-- ==== Sys2Proof/Word.lean ====
section
/-! DEFINITION. Words, bytes, and the plainest field access. -/
namespace Sys2Proof

/-- A 32-bit word: a register, a command word, an accumulator entry (R15, R91, R450). -/
abbrev W32 := BitVec 32
/-- A byte of the scratchpad (R241). -/
abbrev Byte := BitVec 8
/-- A 64-bit word: a recipe instruction (R176). -/
abbrev W64 := BitVec 64

/-- Bits [lo + len - 1 : lo] of a word as a number (R13). -/
def fieldN {n : Nat} (w : BitVec n) (lo len : Nat) : Nat := (w.toNat >>> lo) % 2 ^ len

/-- Bit `i` of a word. -/
def bitB {n : Nat} (w : BitVec n) (i : Nat) : Bool := fieldN w i 1 == 1

/-- A word whose bits [lo + len - 1 : lo] are those of `v`, the others kept. -/
def putN {n : Nat} (w : BitVec n) (lo len v : Nat) : BitVec n :=
  (w &&& ~~~(BitVec.ofNat n ((2 ^ len - 1) <<< lo))) ||| BitVec.ofNat n ((v % 2 ^ len) <<< lo)

/-- A field whose code 0 stands for `top` (fields "0 encodes N"). -/
def zeroIs (top v : Nat) : Nat := if v = 0 then top else v

/-- One bit as a number. -/
def b2n (b : Bool) : Nat := if b then 1 else 0

/-- A count that holds at its top value. -/
def satAdd (top a b : Nat) : Nat := min top (a + b)

/-- A number read as two's complement of `len` bits. -/
def signedN (len v : Nat) : Int :=
  let v := v % 2 ^ len
  if v < 2 ^ (len - 1) then v else (v : Int) - 2 ^ len

/-- An integer as a number modulo 2^len. -/
def wrapN (len : Nat) (i : Int) : Nat := (i % (2 ^ len : Int)).toNat

end Sys2Proof
end

