-- ==== Sys2Proof/Syntax.lean ====
section
/-! DEFINITION. The commands of the block: one constructor per row of the table of operations and events. -/
namespace Sys2Proof

/-- A control port (R435). -/
inductive Port where
  | hcp | scp | dbg
  deriving DecidableEq, Repr

/-- Where a mailbox command comes from: one of the three mailboxes, the peer queue, or a CMD section of the image
(R445, R446, R452, R367). -/
inductive Origin where
  | hcp | scp | dbg | peer | image
  deriving DecidableEq, Repr

/-- The four words of a command (R446, R450). -/
structure CmdWords where
  w0 : W32
  w1 : W32
  w2 : W32
  w3 : W32
  deriving DecidableEq, Repr

/-- A flit: 256 data bits and 32 side-band bits (R308, R309). -/
structure Flit where
  data : BitVec 256
  side : W32
  deriving DecidableEq, Repr

/-- One end of a link as REPORT and TOPO carry it: a tile, its port, the neighbour and the neighbour's port (R322). -/
structure LinkEnd where
  tile : Nat
  port : Nat
  peer : Nat
  peerPort : Nat
  deriving DecidableEq, Repr

/-- A barrier message's mode: the new rounding, parameter epoch, USER value and APPLY_RED (R327, R328). -/
structure ModeWord where
  rnd : Nat
  pepoch : Nat
  user : Nat
  applyRed : Bool
  deriving DecidableEq, Repr

/-- The commands: one constructor per row of spec/opcode_table.json, in its order. -/
inductive Instr where
  /-- ARM (R281): Arms a stream channel with a kibble chain, starting at once from IDLE or becoming a pending arm otherwise. -/
  | arm (o : Origin) (w : CmdWords)
  /-- CH_STOP (R281): Stops a running or waiting channel, which lets its outstanding requests complete and then becomes HALTED with CAUSE STOP. -/
  | chStop (o : Origin) (w : CmdWords)
  /-- CH_RESUME (R281): Restarts a FAULT or HALTED channel by rereading the kibble at its saved position. -/
  | chResume (o : Origin) (w : CmdWords)
  /-- CH_ABORT (R281): Aborts a channel, dropping its pending arm and its partly filled half; the channel becomes IDLE once its outstanding requests are settled. -/
  | chAbort (o : Origin) (w : CmdWords)
  /-- RING_SET (R259): Writes a ring table entry, with admission, and takes effect at a bench boundary once the ring is drained. -/
  | ringSet (o : Origin) (w : CmdWords)
  /-- BIND (R119): Binds or rebinds a seam with its vectors, width, formats and row set. -/
  | bind (o : Origin) (w : CmdWords)
  /-- EVICT (R119): Requests eviction of a resident seam, deferred if the seam is in a chunk. -/
  | evict (o : Origin) (w : CmdWords)
  /-- RELOAD (R119): Triggers a reload of a seam's state from its home address. -/
  | reload (o : Origin) (w : CmdWords)
  /-- ZERO (R119): Zeroes a seam's committed copy and its step count at the next bench boundary. -/
  | zero (o : Origin) (w : CmdWords)
  /-- ACCEPT (R119): Clears the STALE mark of a seam. -/
  | accept (o : Origin) (w : CmdWords)
  /-- SEAM_CLOSE (R119): Unbinds a seam, discarding its chunk in flight and returning its rows and deep groups. -/
  | seamClose (o : Origin) (w : CmdWords)
  /-- RUN (R236): Checks program n and starts the sequencer running it from its directory entry. -/
  | run (o : Origin) (w : CmdWords)
  /-- HALT (R236): Halts the sequencer with CAUSE 6. -/
  | halt (o : Origin) (w : CmdWords)
  /-- BENCH_STOP (R236): Lets the benches in progress finish, starts no new bench, and then halts with CAUSE 7. -/
  | benchStop (o : Origin) (w : CmdWords)
  /-- BENCH_RESUME (R234): Replays a HALTED sequencer from its replay point, skipping the steps already committed. -/
  | benchResume (o : Origin) (w : CmdWords)
  /-- BENCH_ABORT (R236): Drops the entry states of a HALTED sequencer and returns it to IDLE. -/
  | benchAbort (o : Origin) (w : CmdWords)
  /-- STORE (R378): Writes a new copy of a key from the scratchpad into a settings-store frame. -/
  | store (o : Origin) (w : CmdWords)
  /-- FETCH (R378): Copies the newest copy of a key from the settings store into the scratchpad. -/
  | fetch (o : Origin) (w : CmdWords)
  /-- MODE_CHANGE (R327): The leader starts a mode barrier over the member tiles to change rounding, PEPOCH, USER and reduction configuration. -/
  | modeChange (o : Origin) (w : CmdWords)
  /-- RESURVEY (R326): Reruns the survey from its TREE state across the fabric. -/
  | resurvey (o : Origin) (w : CmdWords)
  /-- REDUCE_ROUND (R345): Starts a reduction round of a group and forms the contribution of every block. -/
  | reduceRound (o : Origin) (w : CmdWords)
  /-- OPEN_EXPORT (R268): Opens a window entry as an export of a scratchpad range or of a landing ring. -/
  | openExport (o : Origin) (w : CmdWords)
  /-- OPEN_IMPORT (R268): Opens a window entry as an import of a peer's export. -/
  | openImport (o : Origin) (w : CmdWords)
  /-- WINDOW_CLOSE (R268): Closes an export or import window entry. -/
  | windowClose (o : Origin) (w : CmdWords)
  /-- RESET (R406): A RESET-class command requests a reset at the level its source's fuse field gives, or a single-unit reset of UNIT. -/
  | reset (o : Origin) (w : CmdWords)
  /-- DBG_PEEK (R463): Returns one ECC-decoded scratchpad word or accumulator entry without side effects. -/
  | dbgPeek (o : Origin) (w : CmdWords)
  /-- DBG_POKE (R463): Replaces one scratchpad word and rewrites its sector with a fresh check. -/
  | dbgPoke (o : Origin) (w : CmdWords)
  /-- REMOTE_COMMAND (R451): A GO in the SCP mailbox with REMOTE set sends the command as a CMD packet to a tile or to all tiles. -/
  | remoteCommand (w : CmdWords)
  /-- REG_WRITE (R17): A write to a register that has no row of its own stores, sets or clears bits under its access codes. -/
  | regWrite (p : Port) (off : Nat) (val : W32)
  /-- SCP_ONLY_DENIED (R20): An HCP access to an SCP-only register has no effect, reads 0 and raises PORT_DENIED. -/
  | scpOnlyDenied (off : Nat) (we : Bool)
  /-- DEBUG_PORT_DENIED (R437): An access through the closed debug port is refused, counted and raises PORT_DENIED. -/
  | debugPortDenied (off : Nat) (we : Bool)
  /-- LIFECYCLE_CHANGE (R437): A change on the lifecycle input opens or closes the debug port in the next PCLK cycle. -/
  | lifecycleChange (lc : Nat)
  /-- CLR_CSUM_COUNT (R90): A write of 1 to ARRAY_CMD.CLR_CSUM_COUNT clears the checksum mismatch count. -/
  | clrCsumCount (p : Port)
  /-- ACC_META_LO_READ (R121): A read of ACC_META_LO captures the selected row's upper metadata for the next ACC_META_HI read. -/
  | accMetaLoRead (p : Port)
  /-- GP_TBL_DATA_ACCESS (R131): An access to GP_TBL_DATA reads or writes a gate-table coefficient, refusing writes to the active or pending bank, and advances the address. -/
  | gpTblDataAccess (p : Port) (wr : Option W32)
  /-- SWAP_SIG (R131): Makes a switch of the sig table bank pending. -/
  | swapSig (p : Port)
  /-- SWAP_TANH (R131): Makes a switch of the tnh table bank pending. -/
  | swapTanh (p : Port)
  /-- VEC_RCP_DATA_LO_ACCESS (R192): A write to VEC_RCP_DATA_LO holds the low word; a read returns the low word and captures the high word. -/
  | vecRcpDataLoAccess (p : Port) (wr : Option W32)
  /-- VEC_RCP_DATA_HI_ACCESS (R190): A write to VEC_RCP_DATA_HI stores the whole instruction unless its entry is in use, and the address advances. -/
  | vecRcpDataHiAccess (p : Port) (wr : Option W32)
  /-- RECIPE_ARM (R190): A write of 1 to VEC_RCP_DIR.ARM of an idle entry starts the check of its recipe. -/
  | recipeArm (p : Port) (val : W32)
  /-- RECIPE_RETIRE (R190): A write of 1 to VEC_RCP_DIR.RETIRE of a VALID entry makes it idle at the next bench boundary. -/
  | recipeRetire (p : Port) (val : W32)
  /-- CLR_RUNS (R192): Clears VEC_RUNS. -/
  | clrRuns (p : Port)
  /-- CLR_DROP (R192): Clears VEC_DROP. -/
  | clrDrop (p : Port)
  /-- CLR_CHUNKS (R167): Clears SCAN_CHUNKS. -/
  | clrChunks (p : Port)
  /-- CLR_SPOILED (R167): Clears SCAN_SPOILED. -/
  | clrSpoiled (p : Port)
  /-- SFU_TBL_DATA_ACCESS (R202): An access to SFU_TBL_DATA reads or writes a table-slot word, refusing writes to the active or pending bank, and advances the address. -/
  | sfuTblDataAccess (p : Port) (wr : Option W32)
  /-- SFU_SWAP (R202): A write of 1 to bit s of SFU_SWAP makes a bank switch of slot s pending. -/
  | sfuSwap (p : Port) (val : W32)
  /-- SFU_UC_DATA_ACCESS (R205): An access to SFU_UC_DATA reads or writes a microcode step, refusing writes to programs in use, and advances the address. -/
  | sfuUcDataAccess (p : Port) (wr : Option W32)
  /-- CLR_CLAMPS (R212): Clears SFU_VAR_CLAMPS. -/
  | clrClamps (p : Port)
  /-- BENCH_PRAM_DATA_ACCESS (R237): An access to BENCH_PRAM_DATA reads or writes a program word, refusing writes while the sequencer is active, and advances the address. -/
  | benchPramDataAccess (p : Port) (wr : Option W32)
  /-- BENCH_CLR_COUNTS (R239): Clears BENCH_SLIP_COUNT and BENCH_LATE. -/
  | benchClrCounts (p : Port)
  /-- SPAD_REGION_WRITE (R250): A write to a region table entry is performed only while the sequencer is idle or halted and the pool is undrawn, and only if it leaves the table valid. -/
  | spadRegionWrite (p : Port) (n : Nat) (val : W32)
  /-- SPAD_CACHE_WRITE (R267): A write to SPAD_CACHE resizes the cache area when allowed and invalidates every line. -/
  | spadCacheWrite (p : Port) (val : W32)
  /-- CACHE_INV (R266): Invalidates every cache line in the next MCLK cycle. -/
  | cacheInv (p : Port)
  /-- SPAD_CLR_COUNTS (R274): Clears the scratchpad cache, ECC, DMA-win and transpose counters. -/
  | spadClrCounts (p : Port)
  /-- CH_BELL_ADD (R285): A write of n to CH_BELL.ADD adds n doorbells to a channel. -/
  | chBellAdd (p : Port) (c : Nat) (val : W32)
  /-- OVERCOMMIT_WRITE (R302): A write of MEMP_CTRL is refused if it would change OVERCOMMIT while a pooled ring is enabled. -/
  | overcommitWrite (p : Port) (val : W32)
  /-- REOPEN (R299): Clears MEMP_STATUS.CLOSED after a memory timeout. -/
  | reopen (p : Port)
  /-- MEMP_CLR_COUNTS (R307): Clears the channel stall and miss counters and the memory-port counters. -/
  | mempClrCounts (p : Port)
  /-- FAB_CLR_COUNTS (R336): Clears the fabric failure and error counters. -/
  | fabClrCounts (p : Port)
  /-- MODE_MEMBERS_WRITE (R337): A write of MODE_MEMBERS is refused with TABLE_BUSY while the leader is preparing or committing. -/
  | modeMembersWrite (p : Port) (k : Nat) (val : W32)
  /-- RED_CLR_COUNTS (R360): Clears RED_COUNTS and RED_FAULTS. -/
  | redClrCounts (p : Port) (k : Nat)
  /-- GATE_WRITE (R389): A write to CLK_CTRL.GATE enables clock gating, or wakes the tile when 0 is written. -/
  | gateWrite (p : Port) (val : W32)
  /-- CLK_DUMP_GO (R396): A write with GO = 1 starts a dump of a band's trim set to the scratchpad. -/
  | clkDumpGo (p : Port) (val : W32)
  /-- UNTRIM_FULL (R402): Marks the full-band trim set not valid and abandons its re-trim. -/
  | untrimFull (p : Port)
  /-- UNTRIM_MED (R402): Marks the medium-band trim set not valid and abandons its re-trim. -/
  | untrimMed (p : Port)
  /-- CLK_CLR_COUNTS (R402): Clears the three clock-stretch counters. -/
  | clkClrCounts (p : Port)
  /-- SUP_CLR (R403): Clears SUP_COUNTS and resets SUP_STATUS.MIN to 0xFF. -/
  | supClr (p : Port)
  /-- WDOG_KICK (R413): A write to RST_WDOG_KICK restarts the watchdog count if it carries the key from a permitted port, and otherwise raises PORT_DENIED. -/
  | wdogKick (p : Port) (val : W32)
  /-- WDOG_CTRL_WRITE (R414): A write of RST_WDOG_CTRL sets EN, which then stays 1 and restarts the count; PERIOD is written only while EN = 0. -/
  | wdogCtrlWrite (p : Port) (val : W32)
  /-- RST_CTRL_WRITE (R415): A write of RST_CTRL sets IDLE_TO, but a value of 0 or above 1,000 is not performed. -/
  | rstCtrlWrite (p : Port) (val : W32)
  /-- RST_CLR_COUNTS (R415): Clears RST_COUNTS. -/
  | rstClrCounts (p : Port)
  /-- EVT_PEND_WRITE (R428): A W1C write to EVT_PEND clears pending bits, except HCP writes to bits of events routed SECURE. -/
  | evtPendWrite (p : Port) (k : Nat) (val : W32)
  /-- CLR_LOG (R432): Clears the event log, its status and EVT_COUNT. -/
  | clrLog (p : Port)
  /-- EVT_LOG_LO_READ (R432): A read of EVT_LOG_LO captures the upper half of the selected log entry. -/
  | evtLogLoRead (p : Port)
  /-- EVT_LOG_HI_READ (R429): A read of EVT_LOG_HI returns the captured half and marks the entry as read. -/
  | evtLogHiRead (p : Port)
  /-- PERF_LO_READ (R433): A read of a PERF LO register captures the matching HI register. -/
  | perfLoRead (p : Port) (c : Nat)
  /-- CLR_CHECKS (R433): Clears PERF_CHECK, PERF_ACC_ECC and PERF_PARITY. -/
  | clrChecks (p : Port)
  /-- CLR_FREEZE (R433): Clears the six freeze counters and the slot counter. -/
  | clrFreeze (p : Port)
  /-- POR_ASSERT (R408): por_n sampled low asserts an L0 reset at once, overriding any reset in progress. -/
  | porAssert
  /-- POR_DEASSERT (R408): por_n sampled high starts the 16-cycle hold before the power-on reset is released. -/
  | porDeassert
  /-- RESET_ASSERT (R408): After any deferral the tile sends LINK_RESET for L0, asserts the reset, records RST_CAUSE and drives its during-reset outputs. -/
  | resetAssert
  /-- RESET_RELEASE (R408): At the end of the hold the reset is released, the straps are sampled and start-up begins as the level requires. -/
  | resetRelease (imgBase : Nat) (slot : Nat)
  /-- UNIT_IDLE_ACK (R410): The unit under a single-unit reset raises IDLE_ACK, and the controller resets it. -/
  | unitIdleAck
  /-- UNIT_IDLE_TIMEOUT (R411): The handshake timer expires and the single-unit reset is forced. -/
  | unitIdleTimeout
  /-- UNIT_RESET_RELEASE (R410): After 4 SCLK cycles the unit is released and the RESET command completes. -/
  | unitResetRelease
  /-- WDOG_WARN (R413): The watchdog count reaches half its period and raises WDOG_WARN. -/
  | wdogWarn
  /-- WDOG_EXPIRE (R413): The watchdog count reaches its period and requests a reset with source WDOG. -/
  | wdogExpire
  /-- FUSE_READ_DONE (R444): Step 1 of start-up ends: the fuse map is checked and applied, or start-up stops with cause 11. -/
  | fuseReadDone (map : BitVec 1024)
  /-- LIGHT_TRIM_DONE (R361): Step 2 of start-up ends once the clocks have started and the light-band droop sensors are trimmed. -/
  | lightTrimDone (codes : List W32)
  /-- IMAGE_CHECK_DONE (R369): The check pass over the image and the capability check end, with start-up failing at the first fault. -/
  | imageCheckDone
  /-- OVERLAY_SCAN_DONE (R377): The scan of the settings store ends; the index is built and trim records are applied. -/
  | overlayScanDone
  /-- LOAD_PASS_DONE (R368): The load pass and the override and PARAM records are applied; start-up reaches DONE and issues RUN 0. -/
  | loadPassDone
  /-- MEM_REQUEST_ISSUE (R292): The memory port accepts the request that became ready first. -/
  | memRequestIssue
  /-- MEM_READ_BEAT (R440): A read response beat arrives and is placed by its tag; a complete response settles its request. -/
  | memReadBeat (tag : Nat) (data : BitVec 512) (status : Nat) (last : Bool)
  /-- MEM_WRITE_RESPONSE (R295): A write response arrives, completing the write and any release, eviction or kibble that waited on it. -/
  | memWriteResponse (tag : Nat) (status : Nat)
  /-- MEM_TIMEOUT (R299): A request timer expires: the port closes, its slots are freed and the channels halt. -/
  | memTimeout (slot : Nat)
  /-- CH_WAIT_END (R257): A waiting producer may begin its next half once ring space is released and pool pages are free, and it draws the pages. -/
  | chWaitEnd (c : Nat)
  /-- DEADLOCK_BREAK (R303): A mutual wait has held for 4,096 ACLK cycles, and the youngest holding ingress channel is halted with its halves dropped. -/
  | deadlockBreak
  /-- DMA_WIN (R245): A bank's starvation count reaches 64 and its oldest DMA request wins the next slot pair. -/
  | dmaWin (bank : Nat)
  /-- WINDOW_REQUEST_CHECK (R270): A remote request reaches the owner's scratchpad port and is checked, then performed or dropped. -/
  | windowRequestCheck (n : Nat)
  /-- EXPORT_CLOSE_EFFECT (R270): An export CLOSE takes effect: the entry becomes CLOSED and its GEN increments. -/
  | exportCloseEffect (w : Nat)
  /-- WINDOW_FAIL_RESPONSE (R271): A sender receives WINDOW_CLOSED or WINDOW_RANGE: it marks the entry STALE or raises the event, and it poisons or discards the data. -/
  | windowFailResponse
  /-- LANDING_WRITE (R264): A write through a landing export lands in the filling half or waits; a half whose every sector has landed becomes full and is tagged. -/
  | landingWrite (n : Nat)
  /-- LANDING_WRITE_RELEASE (R264): A waiting landing write lands once its half becomes the filling half and may be begun. -/
  | landingWriteRelease (n : Nat)
  /-- BENCH_START (R219): A staged bench starts at its boundary, and changes pending for the boundary take effect. -/
  | benchStart
  /-- RECORD_FINISH (R220): A record's last engine action completes, releasing RELMODE 1 rings and possibly ending a drain. -/
  | recordFinish (b : Nat) (pos : Nat)
  /-- RUN_CHECK_DONE (R223): The check of a program ends, and the program runs or RUN completes with BAD_ARG. -/
  | runCheckDone
  /-- ARRAY_RECORD (R224): The sequencer reads an array record into the bench being built. -/
  | arrayRecord
  /-- DERRICK_RECORD (R224): The sequencer reads a derrick record. -/
  | derrickRecord
  /-- DRAIN_RECORD (R224): The sequencer reads a drain record. -/
  | drainRecord
  /-- GATE_RECORD (R224): The sequencer reads a gate record. -/
  | gateRecord
  /-- SCAN_RECORD (R224): The sequencer reads a scan record. -/
  | scanRecord
  /-- VECTOR_RECORD (R224): The sequencer reads a vector record. -/
  | vectorRecord
  /-- PROG_START (R217): The START item closes a bench and sets its rounding, reseed and length. -/
  | progStart
  /-- PROG_LOOP (R228): The LOOP item samples its count and enters or skips its body. -/
  | progLoop
  /-- ENDLOOP (R228): The ENDLOOP item ends an iteration and repeats the body or exits the loop. -/
  | endloop
  /-- CNTSET (R217): The CNTSET item writes a loop count register. -/
  | cntset
  /-- TDSET (R217): The TDSET item writes a word of a tile descriptor. -/
  | tdset
  /-- TDADD (R217): The TDADD item adds to a descriptor's TD_OFFSET. -/
  | tdadd
  /-- PROG_END (R236): The END item ends the program, and the sequencer enters DRAINING. -/
  | progEnd
  /-- FREEZE_END (R215): The last freeze cause ends and every slot-timed engine resumes together. -/
  | freezeEnd
  /-- FREEZE_LONG (R216): A freeze exceeds its limit, raises FREEZE_LONG and optionally halts the sequencer. -/
  | freezeLong
  /-- WAVEFRONT_ISSUE (R64): At its issue slot a wavefront's operands are read and checked, and the wavefront enters row 0 of the array. -/
  | wavefrontIssue (b : Nat) (pos : Nat)
  /-- WAVEFRONT_WRITE_PORT (R95): A wavefront's column results reach the accumulator write port and overwrite or add into the target row. -/
  | wavefrontWritePort
  /-- CSUM_COMPARE (R88): The checksum comparison of a checked wavefront completes, and a mismatch is flagged and may halt the bench. -/
  | csumCompare
  /-- DERRICK_ROW (R77): The derrick issues one plane row, stamps it and sweeps its weights east. -/
  | derrickRow (b : Nat) (pos : Nat)
  /-- DRAIN_READ (R106): A drain reads one total and delivers it to its destination and the statistics tree. -/
  | drainRead (b : Nat) (pos : Nat)
  /-- GATE_PARAM_READ (R135): The gate pipe reads and checks its parameter rows before its first start. -/
  | gateParamRead (b : Nat) (pos : Nat)
  /-- GATE_STREAM_START (R136): The gate pipe starts a stream's step, dispatching its chunk and evaluating the cell. -/
  | gateStreamStart (b : Nat) (pos : Nat)
  /-- GATE_COMMIT (R113): In the commit window a step commits its seam and releases its output and ring space. -/
  | gateCommit (b : Nat) (pos : Nat)
  /-- SCAN_PARAM_READ (R153): The scan stage reads its parameter block and performs its set-up. -/
  | scanParamRead (b : Nat) (pos : Nat)
  /-- SCAN_CHUNK_DISPATCH (R157): A scan chunk of a stream is dispatched in its first read slot. -/
  | scanChunkDispatch (b : Nat) (pos : Nat)
  /-- SCAN_STEP (R156): A step's row is read and the step enters the prefix network. -/
  | scanStep (b : Nat) (pos : Nat)
  /-- SCAN_COMMIT (R158): A scan chunk commits its C steps at once. -/
  | scanCommit (b : Nat) (pos : Nat)
  /-- SFU_RESULT (R193): An SFU request's result is delivered 12 slots after acceptance. -/
  | sfuResult
  /-- RECIPE_CHECK_DONE (R190): The check of an armed recipe ends, and the entry becomes PEND or is marked ERR. -/
  | recipeCheckDone
  /-- RECIPE_START (R173): A vector record's recipe starts at V_ISSUE, or is refused if the previous recipe has not ended. -/
  | recipeStart (b : Nat) (pos : Nat)
  /-- RECIPE_END (R182): The vector END instruction ends the recipe. -/
  | recipeEnd
  /-- NOP (R182): No operation. -/
  | nop
  /-- RECIPE_LOOP (R183): The vector LOOP instruction repeats its body a sampled number of times. -/
  | recipeLoop
  /-- SETVL (R182): Sets VL from COUNT or from a K register. -/
  | setvl
  /-- VCOMMIT (R181): Commits one step of the seam on a select. -/
  | vcommit
  /-- VLD (R188): Loads a row through a descriptor into a vector register. -/
  | vld
  /-- VST (R188): Hands a register's lanes to the writer for a row. -/
  | vst
  /-- VMOV (R182): Copies a source to the destination. -/
  | vmov
  /-- VSEL (R182): Selects lanes under a mask. -/
  | vsel
  /-- VADDI (R182): Saturating int32 add. -/
  | vaddi
  /-- VSUBI (R182): Saturating int32 subtract. -/
  | vsubi
  /-- VMULI (R182): Saturating int32 multiply. -/
  | vmuli
  /-- VMINI (R182): int32 minimum. -/
  | vmini
  /-- VMAXI (R182): int32 maximum. -/
  | vmaxi
  /-- VSRA (R182): int32 arithmetic right shift, rounded under CRND. -/
  | vsra
  /-- VSHL (R182): Saturating int32 left shift. -/
  | vshl
  /-- VAND (R182): Bitwise and. -/
  | vand
  /-- VOR (R182): Bitwise or. -/
  | vor
  /-- VXOR (R182): Bitwise exclusive or. -/
  | vxor
  /-- VADD (R182): binary32 add. -/
  | vadd
  /-- VSUB (R182): binary32 subtract. -/
  | vsub
  /-- VMUL (R182): binary32 multiply. -/
  | vmul
  /-- VFMA (R182): binary32 fused multiply-add. -/
  | vfma
  /-- VMIN (R182): binary32 minimum. -/
  | vmin
  /-- VMAX (R182): binary32 maximum. -/
  | vmax
  /-- VABS (R182): binary32 absolute value. -/
  | vabs
  /-- VNEG (R182): binary32 negation. -/
  | vneg
  /-- VCVTFI (R182): Converts binary32 to int32 under CRND. -/
  | vcvtfi
  /-- VCVTIF (R182): Converts int32 to binary32 under ARND. -/
  | vcvtif
  /-- VRND (R182): Rounds binary32 to a narrower float format, kept as binary32. -/
  | vrnd
  /-- VRMAXF (R186): Float maximum over the acting lanes, broadcast to them. -/
  | vrmaxf
  /-- VCMPI (R182): int32 compare into a mask. -/
  | vcmpi
  /-- VCMPF (R182): binary32 compare into a mask. -/
  | vcmpf
  /-- MAND (R182): Mask and. -/
  | mand
  /-- MOR (R182): Mask or. -/
  | mor
  /-- MXOR (R182): Mask exclusive or. -/
  | mxor
  /-- MNOT (R182): Mask not. -/
  | mnot
  /-- MCNT (R182): Counts the set mask bits below VL into a K register. -/
  | mcnt
  /-- MFLG (R187): Reads a per-lane sticky flag into a mask. -/
  | mflg
  /-- MFCLR (R187): Clears the per-lane sticky flags of the acting lanes. -/
  | mfclr
  /-- VCPRS (R184): Compresses the masked lanes into a register, appending at a K count. -/
  | vcprs
  /-- VEXPD (R185): Expands compressed lanes back to the masked lanes. -/
  | vexpd
  /-- VRSUMI (R186): int32 sum over the acting lanes. -/
  | vrsumi
  /-- VRMAXI (R186): int32 maximum over the acting lanes. -/
  | vrmaxi
  /-- VRSUMF (R186): binary32 tree sum over the acting lanes. -/
  | vrsumf
  /-- VSFU (R189): Requests an SFU evaluation of a table slot. -/
  | vsfu
  /-- READ (R314): A READ request packet arrives at a tile and is forwarded or served through a window. -/
  | read (n : Nat) (head : Flit)
  /-- WRITE (R314): A WRITE request packet arrives and is forwarded or performed through a window or landing export. -/
  | write (n : Nat) (head : Flit) (body : List Flit)
  /-- CMD (R452): A CMD packet arrives and enters the peer queue, or is answered BUSY when the queue is full. -/
  | cmd (n : Nat) (head : Flit)
  /-- READ_DATA (R315): A READ_DATA response delivers sectors to the waiting reader and frees its tag. -/
  | readData (n : Nat) (head : Flit) (body : List Flit)
  /-- WRITE_ACK (R315): A WRITE_ACK response completes a window write and frees its tag. -/
  | writeAck (n : Nat) (head : Flit)
  /-- CMD_DONE (R451): A CMD_DONE response completes a remote command with its status and result. -/
  | cmdDone (n : Nat) (head : Flit)
  /-- IDLE (R309): An IDLE control flit arrives, returning any credit it carries. -/
  | idle (n : Nat) (cr : Nat)
  /-- HELLO (R322): A HELLO message arrives and brings the port UP after a resync, or marks it LOOP. -/
  | hello (n : Nat) (cr : Nat) (id : Nat) (port : Nat)
  /-- TREE (R323): A TREE message arrives, and the tile may adopt a better root candidate and flood again. -/
  | tree (n : Nat) (cr : Nat) (root : Nat) (depth : Nat) (sender : Nat) (restart : Bool)
  /-- REPORT (R322): A REPORT message arrives and is forwarded up the tree, or collected at the root. -/
  | report (n : Nat) (cr : Nat) (id : Nat) (links : List LinkEnd)
  /-- TOPO (R325): A TOPO message arrives, and the tile fills its route table and reaches READY. -/
  | topo (n : Nat) (cr : Nat) (links : List LinkEnd) (tiles : List Nat) (dups : List Nat)
  /-- RESYNC_REQ (R332): A RESYNC_REQ arrives; the tile stops VC flits and answers with its buffer counts. -/
  | resyncReq (n : Nat) (cr : Nat)
  /-- RESYNC_ACK (R332): A RESYNC_ACK arrives and sets the port's credits exactly. -/
  | resyncAck (n : Nat) (cr : Nat) (c0 : Nat) (c1 : Nat) (c2 : Nat)
  /-- LINK_RESET (R333): A LINK_RESET arrives; the port goes DOWN and its credits are recovered. -/
  | linkReset (n : Nat) (cr : Nat)
  /-- PREPARE (R328): A barrier PREPARE arrives, and the member answers ACK or NAK. -/
  | prepare (n : Nat) (cr : Nat) (src : Nat) (dst : Nat) (e : Nat) (e1 : Nat) (m : ModeWord)
  /-- BARRIER_ACK (R328): The leader receives an ACK, and it sends COMMIT once every member has answered ACK. -/
  | barrierAck (n : Nat) (cr : Nat) (src : Nat) (dst : Nat)
  /-- BARRIER_NAK (R328): The leader receives a NAK and aborts the barrier. -/
  | barrierNak (n : Nat) (cr : Nat) (src : Nat) (dst : Nat)
  /-- COMMIT (R328): A barrier COMMIT arrives, and the member applies it at once or at its next bench boundary. -/
  | commit (n : Nat) (cr : Nat) (src : Nat) (dst : Nat) (e1 : Nat)
  /-- BARRIER_ABORT (R328): A barrier ABORT arrives, and the member drops its prepared mode. -/
  | barrierAbort (n : Nat) (cr : Nat) (src : Nat) (dst : Nat)
  /-- BARRIER_DONE (R328): The leader receives a DONE, and the command completes OKAY when every DONE has arrived. -/
  | barrierDone (n : Nat) (cr : Nat) (src : Nat) (dst : Nat)
  /-- BARRIER_TIMEOUT (R328): The PREPARE timeout passes without every ACK, and the leader aborts. -/
  | barrierTimeout
  /-- COMMIT_RESEND (R328): The resend interval passes; COMMIT is resent, or after four resends the barrier completes PARTIAL. -/
  | commitResend
  /-- HELLO_TIMER (R322): Every 1 us in the HELLO state the tile sends HELLO on its present ports. -/
  | helloTimer
  /-- HELLO_PHASE_END (R322): The HELLO state ends after 20 us and the survey moves to TREE, or to READY alone. -/
  | helloPhaseEnd
  /-- TREE_PHASE_END (R322): TREE ends after 8 us with no change, and REPORT begins. -/
  | treePhaseEnd
  /-- LINK_TIMEOUT (R331): An UP port receives nothing for LINK_TO × 64 cycles and is declared FAILED. -/
  | linkTimeout (n : Nat)
  /-- REQ_TIMEOUT (R318): A fabric request has had no response for REQ_TO × 1,024 cycles and is answered LINK_DOWN. -/
  | reqTimeout (tag : Nat)
  /-- SUM_FLIT (R347): A VC2 sum flit arrives: it is relayed, has the member's contribution added, or ends its pass at the owner. -/
  | sumFlit (n : Nat) (fl : Flit)
  /-- SUM_PASS_START (R347): An owner starts a block's sum pass once the block is formed and a sum token is held. -/
  | sumPassStart (k : Nat) (b : Nat)
  /-- PARAM_PASS_START (R353): An owner sends a block's parameter pass once its update is written and the parameter token is held. -/
  | paramPassStart (k : Nat) (b : Nat)
  /-- PARAM_FLIT (R353): A parameter flit arrives and is written into the next copy and forwarded, or absorbed at its owner. -/
  | paramFlit (n : Nat) (fl : Flit)
  /-- REDUCE_TIMEOUT (R354): A round is not DONE within its timeout and becomes ABORTED. -/
  | reduceTimeout (k : Nat)
  /-- ACTIVITY_WINDOW_END (R391): An activity window ends, setting the band, selecting trim codes and possibly starting a re-trim. -/
  | activityWindowEnd
  /-- RETRIM_SENSOR_DONE (R393): A sensor's re-trim ends; after the last sensor the set becomes valid and CAP is lifted. -/
  | retrimSensorDone (code : W32)
  /-- DROOP_DETECT (R386): A droop sensor reports droop below its threshold, and following ACLK cycles are stretched. -/
  | droopDetect (sensor : Nat)
  /-- GATE_ENTER (R389): The idle conditions have held for 1,000 SCLK cycles, and the tile enters GATED. -/
  | gateEnter
  /-- WAKE (R390): A wake cause starts WAKING in a GATED tile. -/
  | wake
  /-- WAKE_DONE (R390): WAKING ends after 100 SCLK cycles and the tile is ACTIVE. -/
  | wakeDone
  /-- GUARD_ENTER_LOW (R398): FILT consecutive samples below WARN put the guard in LOW, raise SUPPLY_WARN, block store writes and throttle. -/
  | guardEnterLow
  /-- GUARD_ENTER_RECOVER (R398): A sample at or above WARN + HYST moves LOW to RECOVER. -/
  | guardEnterRecover
  /-- GUARD_DWELL_LOST (R398): A sample below WARN + HYST in RECOVER returns the guard to LOW. -/
  | guardDwellLost
  /-- GUARD_ENTER_OK (R398): DWELL consecutive good samples return the guard to OK, raise SUPPLY_OK and end throttling. -/
  | guardEnterOk
  /-- SUPPLY_RESET_TRIP (R398): FILT consecutive samples below RESET request a reset with source SUPPLY. -/
  | supplyResetTrip
  /-- STORE_PHASE_DONE (R379): A phase of a STORE's frame writes ends, and the STORE moves to the next phase, retries, or completes. -/
  | storePhaseDone
  /-- FETCH_DONE (R378): A FETCH finishes copying its payload and completes with its length. -/
  | fetchDone
  /-- CLK_DUMP_DONE (R396): A trim dump finishes writing its payload and clears BUSY. -/
  | clkDumpDone
  /-- LOG_WRITE (R429): Each PCLK cycle the event log writes the entry at the head of its queue. -/
  | logWrite
  /-- BLOCK_FORMED (R345): The adaptation unit finishes forming one block's contribution, 8 MCLK cycles after the previous block, and a sum flit held in the buffer waiting for it is added and sent on. -/
  | blockFormed (k : Nat)
  /-- CACHE_HIT_DELIVERY (R265): A read-cache hit delivers its line to the stream channel 4 MCLK cycles after the request, with no memory-port request. -/
  | cacheHitDelivery (c : Nat)
  /-- DROOP_CLEAR (R386): A droop sensor stops reporting droop below its threshold, and DROOP stretching of following ACLK cycles ends. -/
  | droopClear (sensor : Nat)
  /-- SV_LEVEL_SAMPLE (R397): Each SCLK cycle the tile samples sv_level, updating SUP_STATUS.LEVEL and MIN and the FILT and dwell counts even when the guard state does not change. -/
  | svLevelSample (lv : Nat)
  /-- EVT_PULSE_END (R427): evt_pulse drops after its 4 high PCLK cycles, and after its 4 low cycles any merged raise starts the next pulse. -/
  | evtPulseEnd
  /-- RESERVED_ITEM (R461): The sequencer reads a program word whose ITYPE is reserved, or an item that would pass word 16,383, and halts with BAD_FORMAT. -/
  | reservedItem
  /-- RESERVED_CTYPE_FLIT (R309): A control flit with a reserved CTYPE arrives, is discarded, has any credit it carries returned, and is counted in FAB_HDR_ERR. -/
  | reservedCtypeFlit (n : Nat) (cr : Nat) (ctype : Nat)
  deriving DecidableEq, Repr

end Sys2Proof
end

