-- ==== Sys2Proof/Machine/SMap.lean ====
section
/-! DEFINITION. Sparse maps: sorted association lists in one canonical form. A key that is not listed holds the
default value, and no listed entry equals the default, so that equal contents are equal data. -/
namespace Sys2Proof.Machine

/-- A sparse map from numbers: entries by rising key, none equal to the default of its table. -/
abbrev SMap (α : Type) := List (Nat × α)

/-- The value at key `k`; an unlisted key holds the default `d`. -/
def mget {α : Type} (m : SMap α) (d : α) (k : Nat) : α :=
  match m with
  | [] => d
  | e :: r => if e.1 = k then e.2 else mget r d k

/-- A map without key `k`. -/
def mdel {α : Type} (m : SMap α) (k : Nat) : SMap α :=
  match m with
  | [] => []
  | e :: r => if e.1 = k then mdel r k else e :: mdel r k

/-- An entry put in its place by rising key. -/
def mins {α : Type} (m : SMap α) (k : Nat) (v : α) : SMap α :=
  match m with
  | [] => [(k, v)]
  | e :: r => if k < e.1 then (k, v) :: e :: r else e :: mins r k v

/-- The map with `v` at key `k`: writing the default removes the entry. -/
def mset {α : Type} [DecidableEq α] (m : SMap α) (d : α) (k : Nat) (v : α) : SMap α :=
  if v = d then mdel m k else mins (mdel m k) k v

/-- The value at key `k` changed by `f`. -/
def mupd {α : Type} [DecidableEq α] (m : SMap α) (d : α) (k : Nat) (f : α → α) : SMap α :=
  mset m d k (f (mget m d k))

/-- Write a list of values at consecutive keys from `k`. -/
def msetFrom {α : Type} [DecidableEq α] (m : SMap α) (d : α) (k : Nat) : List α → SMap α
  | [] => m
  | v :: vs => msetFrom (mset m d k v) d (k + 1) vs

/-- Keys rise strictly above `lo`, and no entry is the default. -/
def mwfFrom {α : Type} [DecidableEq α] (d : α) (lo : Nat) : SMap α → Bool
  | [] => true
  | e :: r => decide (lo ≤ e.1) && decide (e.2 ≠ d) && mwfFrom d (e.1 + 1) r

/-- The canonical form of a sparse map. -/
def mwf {α : Type} [DecidableEq α] (d : α) (m : SMap α) : Bool := mwfFrom d 0 m

/-- All entries of keys from `lo` up to, not including, `hi` dropped (reset to the default). -/
def mclear {α : Type} (m : SMap α) (lo hi : Nat) : SMap α :=
  m.filter (fun e => !(decide (lo ≤ e.1) && decide (e.1 < hi)))

/-- The numbers from `lo`, `n` of them, rising. -/
def natsFrom (lo : Nat) : Nat → List Nat
  | 0 => []
  | n + 1 => lo :: natsFrom (lo + 1) n

/-- The numbers below `n`, rising. -/
def natsTo (n : Nat) : List Nat := natsFrom 0 n

/-- Fold a change over the numbers below `n`, rising. -/
def foldTo {σ : Type} (n : Nat) (f : Nat → σ → σ) (s : σ) : σ :=
  (natsTo n).foldl (fun s i => f i s) s

/-- Element `i` of a list, or `d` past its end. -/
def lget {α : Type} (l : List α) (d : α) (i : Nat) : α :=
  match l, i with
  | [], _ => d
  | a :: _, 0 => a
  | _ :: r, i + 1 => lget r d i

/-- Element `i` of a list changed by `f`; nothing past its end. -/
def lupd {α : Type} (l : List α) (i : Nat) (f : α → α) : List α :=
  match l, i with
  | [], _ => []
  | a :: r, 0 => f a :: r
  | a :: r, i + 1 => a :: lupd r i f

end Sys2Proof.Machine
end

