-- ==== Sys2Proof/Machine/Flags.lean ====
section
/-! DEFINITION. Number formats, rounding, conversion, binary32 arithmetic and the per-lane exception flags
(02_number_formats.md, R38 to R60). Values are computed exactly and rounded once where the spec rounds. -/
namespace Sys2Proof.Machine

/-- A flag word of R57: [5] SAT, [4] NAN_IN, [3] CVT, [2] UNF, [1] OVF, [0] INV. -/
abbrev Flg := BitVec 8

/-- INV: a NaN was produced from operands that were not NaN, or a NaN was converted to an integer (R57). -/
def fINV : Flg := 1
/-- OVF: a float arithmetic result was beyond the binary32 range (R57). -/
def fOVF : Flg := 2
/-- UNF: a result, after rounding, was subnormal or zero, and inexact (R57). -/
def fUNF : Flg := 4
/-- CVT: a conversion beyond range, of an infinity to E4M3 or an integer, or of a NaN to an integer (R57). -/
def fCVT : Flg := 8
/-- NAN_IN: a NaN operand was consumed (R57). -/
def fNAN : Flg := 16
/-- SAT: an integer result saturated (R57). -/
def fSAT : Flg := 32

/-- Bit 6 of a lane's word inside the model, which no register holds: a table or microcode word of the lane's lookup failed
its parity (R423). -/
def fPAR : Flg := 64

/-- No flag, or the flag `f`. -/
def flagIf (b : Bool) (f : Flg) : Flg := if b then f else 0

/-- A rounding mode in force (R49): the mode rounding is itself one of these three. -/
inductive RMode where
  /-- round to nearest, ties to even -/
  | rne
  /-- round toward zero -/
  | rz
  /-- stochastic rounding (R51) -/
  | sr
  deriving DecidableEq, Repr

/-- A 2-bit rounding field; 0b11 takes the tile's mode rounding `cur` (R49). -/
def rmodeOf (cur : RMode) (code : Nat) : RMode :=
  match code with
  | 0 => .rne
  | 1 => .rz
  | 2 => .sr
  | _ => cur

/-- An exact number as the tile's arithmetic sees it: NaN, an infinity, or (-1)^neg × m × 2^e with signed zeros. -/
inductive FVal where
  | nan
  | inf (neg : Bool)
  | fin (neg : Bool) (m : Nat) (e : Int)
  deriving DecidableEq, Repr

/-- +0. -/
def FVal.zero : FVal := .fin false 0 0

/-- The exact value of an integer. -/
def FVal.ofInt (i : Int) : FVal := .fin (decide (i < 0)) i.natAbs 0

/-- Whether a value is a NaN. -/
def FVal.isNan : FVal → Bool
  | .nan => true
  | _ => false

/-- Whether a value is zero of either sign. -/
def FVal.isZero : FVal → Bool
  | .fin _ m _ => m == 0
  | _ => false

/-- The sign bit of a value. -/
def FVal.sign : FVal → Bool
  | .nan => false
  | .inf n => n
  | .fin n _ _ => n

/-- The value with its sign turned. -/
def FVal.negate : FVal → FVal
  | .nan => .nan
  | .inf n => .inf (!n)
  | .fin n m e => .fin (!n) m e

/-- The value with its sign cleared. -/
def FVal.abs : FVal → FVal
  | .nan => .nan
  | .inf _ => .inf false
  | .fin _ m e => .fin false m e

/-- The shape of a float format: significand bits with the hidden bit, the exponent of the last bit of a
subnormal, the code of the largest finite value, the sign's bit, the canonical NaN and the infinity's code (R41, R42). -/
structure FFmt where
  p : Nat
  emin : Int
  maxCode : Nat
  signBit : Nat
  nanCode : Nat
  infCode : Option Nat
  deriving DecidableEq, Repr

/-- E4M3 (R41). -/
def fE4M3 : FFmt := ⟨4, -9, 0x7E, 7, 0x7F, none⟩
/-- E5M2 (R41). -/
def fE5M2 : FFmt := ⟨3, -16, 0x7B, 7, 0x7E, some 0x7C⟩
/-- BF16 (R42, R59). -/
def fBF16 : FFmt := ⟨8, -133, 0x7F7F, 15, 0x7FC0, some 0x7F80⟩
/-- FP16 (R42, R59). -/
def fFP16 : FFmt := ⟨11, -24, 0x7BFF, 15, 0x7E00, some 0x7C00⟩
/-- FP32 (R42, R59). -/
def fFP32 : FFmt := ⟨24, -149, 0x7F7FFFFF, 31, 0x7FC00000, some 0x7F800000⟩

/-- The value of a float format's code. A code above the largest finite one is the infinity or a NaN (R41). -/
def ffDecode (f : FFmt) (w : Nat) : FVal :=
  let neg := (w >>> f.signBit) % 2 == 1
  let c := w % 2 ^ f.signBit
  if c > f.maxCode then
    (if some c == f.infCode then .inf neg else .nan)
  else
    let ef := c >>> (f.p - 1)
    let mant := c % 2 ^ (f.p - 1)
    if ef = 0 then .fin neg mant f.emin
    else .fin neg (2 ^ (f.p - 1) + mant) (f.emin + ef - 1)

/-- Format codes of R39 that name a float format. -/
def ffOf (fmt : Nat) : Option FFmt :=
  match fmt with
  | 2 => some fE4M3
  | 3 => some fE5M2
  | 4 => some fBF16
  | 6 => some fFP16
  | 7 => some fFP32
  | _ => none

/-- The bits of a format code of R39; a reserved code has none. -/
def fmtBits (fmt : Nat) : Nat :=
  match fmt with
  | 0 => 8 | 1 => 4 | 2 => 8 | 3 => 8 | 4 => 16 | 5 => 16 | 6 => 16 | 7 => 32 | 8 => 32 | 9 => 64 | 10 => 64
  | _ => 0

/-- Whether a format code names an integer format (R39). -/
def fmtIsInt (fmt : Nat) : Bool := fmt == 0 || fmt == 1 || fmt == 5 || fmt == 8

/-- The exact value of an element of a format (R39, R41). -/
def fmtDecode (fmt w : Nat) : FVal :=
  match ffOf fmt with
  | some f => ffDecode f w
  | none => FVal.ofInt (signedN (fmtBits fmt) w)

/-- The quantity m × 2^e as a count of units 2^pt, rounded, and whether bits were discarded (R50, R51).
`q` is the 16-bit number stochastic rounding draws. -/
def roundAt (md : RMode) (q m : Nat) (e pt : Int) : Nat × Bool :=
  if pt ≤ e then (m <<< (e - pt).toNat, false)
  else
    let s := (pt - e).toNat
    let hi := m >>> s
    let rem := m % 2 ^ s
    if rem = 0 then (hi, false)
    else
      let up : Bool := match md with
        | .rne => decide (2 * rem > 2 ^ s) || (decide (2 * rem = 2 ^ s) && hi % 2 == 1)
        | .rz => false
        | .sr =>
          let d := if s > 16 then rem >>> (s - 16) else rem <<< (16 - s)
          decide (65536 ≤ d + q)
      (if up then hi + 1 else hi, true)

/-- The exponent of a float's rounding point for the magnitude m × 2^e (R50). -/
def roundPoint (f : FFmt) (m : Nat) (e : Int) : Int :=
  max ((Nat.log2 m : Int) + e - (f.p - 1 : Int)) f.emin

/-- A number as a format's bits, its flags, and whether a stochastic number was used (R51, R57). -/
structure NumR where
  bits : Nat
  fl : Flg
  drew : Bool
  deriving DecidableEq, Repr

/-- A finite magnitude rounded to a float format with an unbounded exponent: its code, whether inexact, and
whether the result is subnormal or zero. -/
def ffRound (f : FFmt) (md : RMode) (q m : Nat) (e : Int) : Nat × Bool × Bool :=
  if m = 0 then (0, false, true)
  else
    let pt := roundPoint f m e
    let r := roundAt md q m e pt
    let n := r.1
    let sub := decide (n < 2 ^ (f.p - 1))
    let code :=
      if sub then n
      else (((pt - f.emin).toNat + 1) <<< (f.p - 1)) + (n - 2 ^ (f.p - 1))
    (code, r.2, sub)

/-- A value written in a float format: R55 with `beyond` = CVT, R56 with `beyond` = OVF. -/
def ffEncode (f : FFmt) (md : RMode) (ovfInf : Bool) (q : Nat) (beyond : Flg) (x : FVal) : NumR :=
  match x with
  | .nan => ⟨f.nanCode, fNAN, false⟩
  | .inf neg =>
    match f.infCode with
    | some c => ⟨b2n neg <<< f.signBit ||| c, 0, false⟩
    | none => ⟨b2n neg <<< f.signBit ||| f.maxCode, fCVT, false⟩
  | .fin neg m e =>
    let r := ffRound f md q m e
    let drew := r.2.1 && md == .sr
    if r.1 > f.maxCode then
      match f.infCode, ovfInf with
      | some c, true => ⟨b2n neg <<< f.signBit ||| c, beyond, drew⟩
      | _, _ => ⟨b2n neg <<< f.signBit ||| f.maxCode, beyond, drew⟩
    else ⟨b2n neg <<< f.signBit ||| r.1, flagIf (r.2.1 && r.2.2) fUNF, drew⟩

/-- A value rounded at bit 0 and clamped to an integer format of `len` bits (R55). UNF is a flag of float results
only, as R57 defines it (DEDUCED, log 10). -/
def intEncode (len : Nat) (md : RMode) (q : Nat) (x : FVal) : NumR :=
  let top : Nat := 2 ^ (len - 1) - 1
  let bot : Nat := 2 ^ (len - 1)
  match x with
  | .nan => ⟨0, fCVT ||| fINV ||| fNAN, false⟩
  | .inf neg => ⟨if neg then bot else top, fCVT, false⟩
  | .fin neg m e =>
    let r := roundAt md q m e 0
    let drew := r.2 && md == .sr
    if neg then
      if r.1 > bot then ⟨bot, fCVT, drew⟩
      else ⟨wrapN len (-(r.1 : Int)), 0, drew⟩
    else
      if r.1 > top then ⟨top, fCVT, drew⟩
      else ⟨r.1, 0, drew⟩

/-- Conversion of an exact value to a format of R39 under CRND (R55). -/
def fmtEncode (fmt : Nat) (crnd : RMode) (ovfInf : Bool) (q : Nat) (x : FVal) : NumR :=
  match ffOf fmt with
  | some f => ffEncode f crnd ovfInf q fCVT x
  | none => intEncode (fmtBits fmt) crnd q x

/-- A binary32 arithmetic result: rounded under ARND, out of range with OVF (R56). `fl` are the flags the
operation itself set; a NaN that came from no NaN operand carries INV, not NAN_IN. -/
def arith32 (arnd : RMode) (ovfInf : Bool) (q : Nat) (x : FVal × Flg) : NumR :=
  match x.1 with
  | .nan => ⟨fFP32.nanCode, x.2, false⟩
  | v =>
    let r := ffEncode fFP32 arnd ovfInf q fOVF v
    ⟨r.bits, r.fl ||| x.2, r.drew⟩

/-- The value of a binary32 code. -/
def f32 (w : W32) : FVal := ffDecode fFP32 w.toNat

/-- A binary32 word that is finite: one that is not has a bit of its exponent turned. -/
def finite32 (w : W32) : W32 := match f32 w with | .fin _ _ _ => w | _ => w ^^^ 0x40000000

/-- The signed integer m × 2^(e - pt) of a finite value, `pt` at or below its exponent. -/
def finUnits (pt : Int) (neg : Bool) (m : Nat) (e : Int) : Int :=
  let v : Int := (m <<< (e - pt).toNat : Nat)
  if neg then -v else v

/-- The exact sum of two values, with the flags of R56: infinities of opposite sign give NaN and INV, a NaN
operand gives NaN and NAN_IN, an exact zero sum is +0 unless both addends are -0. -/
def addX (a b : FVal) : FVal × Flg :=
  match a, b with
  | .nan, _ => (.nan, fNAN)
  | _, .nan => (.nan, fNAN)
  | .inf x, .inf y => if x == y then (.inf x, 0) else (.nan, fINV)
  | .inf x, _ => (.inf x, 0)
  | _, .inf y => (.inf y, 0)
  | .fin na ma ea, .fin nb mb eb =>
    if ma = 0 && mb = 0 then (.fin (na && nb) 0 0, 0)
    else if ma = 0 then (.fin nb mb eb, 0)
    else if mb = 0 then (.fin na ma ea, 0)
    else
      let pt := min ea eb
      let t := finUnits pt na ma ea + finUnits pt nb mb eb
      if t = 0 then (.fin false 0 0, 0) else (.fin (decide (t < 0)) t.natAbs pt, 0)

/-- The exact product of two values, with the flags of R56: 0 × ∞ gives NaN and INV. -/
def mulX (a b : FVal) : FVal × Flg :=
  match a, b with
  | .nan, _ => (.nan, fNAN)
  | _, .nan => (.nan, fNAN)
  | .inf x, .inf y => (.inf (x != y), 0)
  | .inf x, .fin y m _ => if m = 0 then (.nan, fINV) else (.inf (x != y), 0)
  | .fin x m _, .inf y => if m = 0 then (.nan, fINV) else (.inf (x != y), 0)
  | .fin x m e, .fin y n f => (.fin (x != y) (m * n) (e + f), 0)

/-- The exact value a × b + c (R56); a NaN that the product makes keeps its INV. -/
def fmaX (a b c : FVal) : FVal × Flg :=
  if a.isNan || b.isNan || c.isNan then (.nan, fNAN)
  else
    let p := mulX a b
    if p.1.isNan then (.nan, p.2)
    else addX p.1 c

/-- Exact sum with the flags of both steps kept; a NaN made earlier is no NaN operand of the tile. -/
def addFlX (a b : FVal × Flg) : FVal × Flg :=
  if a.1.isNan || b.1.isNan then (.nan, a.2 ||| b.2) else
    let r := addX a.1 b.1
    (r.1, r.2 ||| a.2 ||| b.2)

/-- The exact sum of a list of values; every product and sum of the list's flags are kept (R47, R56).
An empty sum is +0. -/
def sumX : List (FVal × Flg) → FVal × Flg
  | [] => (FVal.zero, 0)
  | x :: xs => xs.foldl addFlX x

/-- Order of two finite or infinite values: whether a < b (zeros of either sign are equal). -/
def ltX (a b : FVal) : Bool :=
  match a, b with
  | .nan, _ => false
  | _, .nan => false
  | .inf x, .inf y => x && !y
  | .inf x, _ => x
  | _, .inf y => !y
  | .fin na ma ea, .fin nb mb eb =>
    let pt := min ea eb
    decide (finUnits pt na ma ea < finUnits pt nb mb eb)

/-- Equality of two values as numbers; NaN equals nothing. -/
def eqX (a b : FVal) : Bool := !a.isNan && !b.isNan && !ltX a b && !ltX b a

/-- binary32 addition (R56). -/
def f32Add (md : RMode) (oi : Bool) (q : Nat) (a b : W32) : NumR := arith32 md oi q (addX (f32 a) (f32 b))
/-- binary32 subtraction (R56). -/
def f32Sub (md : RMode) (oi : Bool) (q : Nat) (a b : W32) : NumR := arith32 md oi q (addX (f32 a) (f32 b).negate)
/-- binary32 multiplication (R56). -/
def f32Mul (md : RMode) (oi : Bool) (q : Nat) (a b : W32) : NumR := arith32 md oi q (mulX (f32 a) (f32 b))
/-- binary32 fused multiply-add, one rounding (R56). -/
def f32Fma (md : RMode) (oi : Bool) (q : Nat) (a b c : W32) : NumR :=
  arith32 md oi q (fmaX (f32 a) (f32 b) (f32 c))

/-- An integer clamped to `len` bits of two's complement, and whether it saturated. -/
def satInt (len : Nat) (i : Int) : Int × Bool :=
  let top : Int := 2 ^ (len - 1) - 1
  let bot : Int := -(2 ^ (len - 1))
  if i > top then (top, true) else if i < bot then (bot, true) else (i, false)

/-- A word as int32. -/
def i32 (w : W32) : Int := w.toInt

/-- An integer as a 32-bit word, saturated, with SAT if it saturated (R57). -/
def sat32 (i : Int) : W32 × Flg :=
  let r := satInt 32 i
  (BitVec.ofInt 32 r.1, flagIf r.2 fSAT)

/-- One shift of a stochastic-rounding generator: Galois form, mask 0x8020_0003 (R53). -/
def lfsrStep (g : W32) : W32 :=
  if g.getLsbD 0 then (g >>> 1) ^^^ 0x80200003#32 else g >>> 1

/-- Sixteen shifts: one draw (R53). -/
def lfsrDraw (g : W32) : W32 := Nat.repeat lfsrStep 16 g

/-- The seed of lane `l` of site `k` (R54). -/
def srSeed (seed : W32) (tileId l k : Nat) : W32 :=
  let v := seed ^^^ BitVec.ofNat 32 (l * 0x9E3779B9) ^^^ BitVec.ofNat 32 (k <<< 28) ^^^ BitVec.ofNat 32 (tileId <<< 20)
  if v = 0 then 1 else v

/-- The CRC-16 of R416: polynomial 0x8BB7, initial 0, most significant bit of each byte first. -/
def crc16Bit (c : BitVec 16) (b : Bool) : BitVec 16 :=
  let top := c.getLsbD 15 != b
  let c' := c <<< 1
  if top then c' ^^^ 0x8BB7#16 else c'

/-- One byte of the CRC-16 of R416. -/
def crc16Byte (c : BitVec 16) (b : Byte) : BitVec 16 :=
  crc16Bit (crc16Bit (crc16Bit (crc16Bit (crc16Bit (crc16Bit (crc16Bit (crc16Bit c
    (b.getLsbD 7)) (b.getLsbD 6)) (b.getLsbD 5)) (b.getLsbD 4)) (b.getLsbD 3)) (b.getLsbD 2)) (b.getLsbD 1)) (b.getLsbD 0)

/-- The CRC-16 of a string of bytes (R416). -/
def crc16 (bs : List Byte) : BitVec 16 := bs.foldl crc16Byte 0

end Sys2Proof.Machine
end

