-- ==== Sys2Proof/Config.lean ====
section
/-! DEFINITION. What one implementation fixes, and the free values: constants without a body stand for every value
the manual leaves open, so that nothing can be proved that rests on one value of them (log 4). -/
namespace Sys2Proof

/-- The three variants of the tile (R4). -/
inductive Variant where
  /-- K128-F -/
  | f
  /-- K128-C -/
  | c
  /-- K128-L -/
  | l
  deriving DecidableEq, Repr

/-- The variant the model is of: K128-F, which has every unit (R4). DESIGN CHOICE, log 3. -/
def Config.variant : Variant := .f

/-- Built-in coefficient `c` (0 to 2) of segment `k` of a gate table (`tanh` selects the table). The manual gives
bounds (R130) and no coefficients. Free value, taken where it is finite, log 4. -/
opaque Config.gateCoef : Bool → Nat → Nat → W32

/-- Built-in coefficient word `w` (0 to 767) of SFU table slot `s` (R201 gives bounds, no coefficients). Free value,
taken where it is finite and the table is not exact, log 4. -/
opaque Config.sfuCoef : Nat → Nat → W32

/-- The SFU's own fixed rsqrt of R207, on a positive binary32 operand. Free value, taken where it lies within
the bound, log 4. -/
opaque Config.fixedRsqrt : W32 → W32

/-- Which copy of a seam a read by row number returns (R111): the n-th such read. Free value, log 4. -/
opaque Config.freeCopy : Nat → Bool

/-- What the tile does with a word that has more errors than its code detects (R457): the n-th such word;
0 deliver unchanged, 1 correct wrongly, 2 find uncorrectable. Free value, log 4. -/
opaque Config.freeEcc : Nat → Nat

/-- The wrong correction of R457: the bits turned in the n-th such word. Free value, log 4. -/
opaque Config.freeFlip : Nat → BitVec 64

/-- A bit the spec leaves unspecified for the n-th time: the contents of a scratchpad byte, a data word or a
coefficient that the spec calls unspecified in an event. Free value, log 4. -/
opaque Config.freeWord : Nat → W32

/-- The 256 data bits of a control flit, by the numbers of its message: R309 names the messages and lays out none. Free value, log 135. -/
opaque Config.ctlData : List Nat → BitVec 256

end Sys2Proof
end

