-- ==== Sys2Proof/Machine/State.lean ====
section
/-! DEFINITION. The state of the block: every register, memory, queue and mode the manual gives the tile, as plain
data. Registers whose value is simply held live in `regs`, keyed by their offset in the register window; the others
are computed from the structured state of their unit when they are read. -/
namespace Sys2Proof.Machine

/-- Who waits for a command's completion (R448, R452). -/
structure Cli where
  o : Origin
  src : Nat := 0
  tag : Nat := 0
  bcast : Bool := false
  deriving DecidableEq, Repr

/-- An entry of the log queue (R429): code, class, ARG, and EVT_TIME in the PCLK cycle of the raise. -/
structure EvEntry where
  code : Nat
  cls : Nat
  arg : Nat
  time : W32
  deriving DecidableEq, Repr

/-- An entry of the event log (R429, R432). -/
structure LogEntry where
  valid : Bool := false
  cls : Nat := 0
  code : Nat := 0
  arg : Nat := 0
  time : W32 := 0
  unread : Bool := false
  deriving DecidableEq, Repr

/-- The event unit (R425 to R432): the causes of the present PCLK cycle, code and ARG, which the next one raises (R425); pending bits,
routes ([3] LOG, [2] PULSE, [1] SECURE, [0] HOST), the log and its queue, and the evt_pulse generator (0 idle, 1 high, 2 low) with the
PCLK cycle its phase began in; `logT` is the first PCLK cycle in which the log may write again; `setAt` is the PCLK cycle in which a bit
was last set; `hiCap` is the upper half last captured, of entry `hiSel`, which is the entry's still while `hiOk`; `routeNew` lists route
changes that the next PCLK cycle makes (R427). -/
structure Ev where
  due : List (Nat × Nat) := []
  pend : BitVec 128 := 0
  setAt : SMap Nat := []
  routes : SMap Nat := []
  routeNew : List (Nat × Nat) := []
  queue : List EvEntry := []
  log : SMap LogEntry := []
  head : Nat := 0
  overwritten : Nat := 0
  dropped : Nat := 0
  count : Nat := 0
  hiCap : W32 := 0
  hiSel : Nat := 0
  hiOk : Bool := false
  time : W32 := 0
  pulse : Nat := 0
  merged : Bool := false
  pulseT : Nat := 0
  logT : Nat := 0
  deriving DecidableEq, Repr

/-- A command waiting in the peer queue (R452). -/
structure PeerCmd where
  src : Nat
  tag : Nat
  bcast : Bool
  w : CmdWords
  deriving DecidableEq, Repr

/-- An access that a control port still has to acknowledge, or acknowledges (R435): the port, the PCLK cycle of x_ack, and x_rdata. -/
structure PortAck where
  port : Nat
  t : Nat
  data : W32
  deriving DecidableEq, Repr

/-- The mailboxes (R446 to R452): per mailbox 0 free, 1 issued, 2 accepted and not complete; the read data last
returned on each control port, and the accesses acknowledged from now on (R435); the peer queue; the PCLK cycles from which each
mailbox's command, and the next command of any, may be accepted (R447). -/
structure Mb where
  st : List Nat := [0, 0, 0]
  goT : List Nat := [0, 0, 0]
  nextT : Nat := 0
  rdata : List W32 := [0, 0, 0]
  acks : List PortAck := []
  peerQ : List PeerCmd := []
  peerBusy : Bool := false
  deriving DecidableEq, Repr

/-- An active loop (R228): first body word, remaining iterations, FOREVER, and the word after the ENDLOOP. -/
structure LoopFrame where
  body : Nat
  left : Nat
  forever : Bool
  after : Nat
  deriving DecidableEq, Repr

/-- The entry state of a bench (R233). -/
structure Entry where
  pc : Nat
  frames : List LoopFrame := []
  cnt : List Nat := [0, 0, 0, 0]
  idx : List Nat := [0, 0, 0, 0]
  bep : Nat := 0
  tdf : SMap W32 := []
  deriving DecidableEq, Repr

/-- A record of a bench and its progress (R220, R224): position, ITYPE, words, what has been issued, the parameter rows
it holds, and the streams whose step or chunk is over: committed, held or discarded. -/
structure Rec where
  pos : Nat := 0
  ty : Nat := 0
  w : List W32 := []
  n : Nat := 0
  m : Nat := 0
  fin : Bool := false
  pair : Bool := false
  par : List (List W32) := []
  lost : Bool := false
  dead : List Nat := []
  slipped : Bool := false
  deriving DecidableEq, Repr

/-- A bench staged or in progress (R218 to R222, R233): its settings, its descriptor snapshot (R227) with the words of it that fail
their parity (R423), its records, the seams it dispatched, held or skips (R115, R235), its commits per seam, one more than the highest
row it read of each ring (R258), the computation rows it wrote, and one more than the last slot in which a step of it was discarded
(R143). -/
structure Bench where
  uid : Nat := 0
  start : Nat := 0
  len : Nat := 65536
  bep : Nat := 0
  arnd : Nat := 0
  crnd : Nat := 0
  ovfInf : Bool := false
  reseed : Bool := false
  seed : W32 := 0
  modeRnd : Nat := 0
  tdf : SMap W32 := []
  badTd : List Nat := []
  idx : List Nat := [0, 0, 0, 0]
  recs : List Rec := []
  entry : Entry := { pc := 0 }
  commits : SMap Nat := []
  skips : SMap Nat := []
  disp : List Nat := []
  held : List Nat := []
  rings : SMap Nat := []
  rows : List Nat := []
  spoilt : Nat := 0
  bad : Bool := false
  badRec : Nat := 0
  deriving DecidableEq, Repr

/-- The causes of a freeze (R214): the waiting ones, and the ACLK cycles that remain of the fixed ones. -/
structure Frz where
  link : Bool := false
  feed : Bool := false
  drain : Bool := false
  ecc : Nat := 0
  bank : Nat := 0
  derrick : Nat := 0
  deriving DecidableEq, Repr

/-- What a waiting freeze waits for: a half of a ring complete (`landing` tells LINK from FEED), space to begin a half,
or the data of a remote read. -/
inductive Wait where
  | half (ring : Nat) (q : Nat)
  | space (ring : Nat)
  | remote (rd : Nat)
  deriving DecidableEq, Repr

/-- A halt decided in a slot and performed at the start of the next (R232). -/
structure HaltReq where
  cause : Nat
  recPos : Nat
  bep : Nat
  hasRec : Bool
  start : Nat
  deriving DecidableEq, Repr

/-- The bench sequencer (R213 to R240): `nextRead` is the slot in which it reads its next word. STATE: 0 IDLE, 1 CHECKING, 2 RUNNING, 3 DRAINING, 4 STOPPING, 5 HALTED. -/
structure Seq where
  st : Nat := 0
  pc : Nat := 0
  prog : Nat := 0
  bep : Nat := 0
  lastBep : Nat := 0
  frames : List LoopFrame := []
  idx : List Nat := [0, 0, 0, 0]
  recs : List Rec := []
  cur : Option Entry := none
  staged : Option Bench := none
  stagedAt : Nat := 0
  benches : List Bench := []
  nextUid : Nat := 0
  started : Bool := false
  lastStart : Nat := 0
  lastLen : Nat := 0
  replay : Option Entry := none
  matchSkips : List (SMap Nat) := []
  haltReq : Option HaltReq := none
  runCli : Option Cli := none
  haltCli : List Cli := []
  stopCli : List Cli := []
  pram : SMap W32 := []
  badPram : List Nat := []
  badTd : List Nat := []
  frzNext : Frz := {}
  frz : Frz := {}
  frozen : Bool := false
  waits : List Wait := []
  longDone : Bool := false
  nextRead : Nat := 0
  frzLen : Nat := 0
  resume : Bool := false
  deriving DecidableEq, Repr

/-- One row of a weight plane (R61, R77, R85): 128 bytes, epoch stamp, stale and poison marks, checksum weight and the
format it was formed under (16 means unchecked). -/
structure PlaneRow where
  data : SMap Nat := []
  stamp : Nat := 0
  stale : Bool := true
  poison : Bool := false
  csum : Nat := 0
  dfmt : Nat := 16
  deriving DecidableEq, Repr

/-- A wavefront in the array (R63, R64): the bench and record that issued it, the slot it entered row 0, its elements
(none for an invalid one), side-band, settings, target, the plane rows it has met, and the column partials of a float pass as far
as they are formed. -/
structure Wave where
  uid : Nat
  pos : Nat
  entry : Nat
  benchStart : Nat
  bep : Nat
  acts : List (Option Nat) := []
  tag : Nat := 0
  epoch : Nat := 0
  opfmt : Nat := 0
  piece : Nat := 0
  g : Nat := 4
  arnd : Nat := 0
  modeRnd : Nat := 0
  ovfInf : Bool := false
  tfmt : Nat := 8
  row : Nat := 0
  add : Bool := false
  cols : Nat := 128
  tepoch : Nat := 0
  checked : Bool := false
  slipPol : Bool := false
  slipped : Bool := false
  met : List (List PlaneRow) := []
  part : List (Option W32) := []
  deriving DecidableEq, Repr

/-- A checksum comparison that is due (R88). -/
structure CsumDue where
  uid : Nat
  pos : Nat
  due : Nat
  mismatch : Bool
  tag : Nat
  epoch : Nat
  opfmt : Nat
  slot : Nat
  deriving DecidableEq, Repr

/-- A sweep of the derrick (R77): its record, row, plane and start slot, whether it is its load's last row, its load's epoch, the
row it writes until it has written it at the end of its start slot, and whether it met a wavefront (R79). -/
structure Sweep where
  row : Nat
  plane : Nat
  slot : Nat
  last : Bool
  epoch : Nat
  uid : Nat
  pos : Nat
  put : Option PlaneRow := none
  hit : Bool := false
  deriving DecidableEq, Repr

/-- The array and the derrick (R61 to R90). `planes` is keyed plane × 128 + row. -/
structure Arr where
  planes : SMap PlaneRow := []
  waves : List Wave := []
  csums : List CsumDue := []
  sweeps : List Sweep := []
  active : Bool := false
  ldPlane : Nat := 0
  ldNext : Nat := 0
  ldEpoch : Nat := 0
  ldOwner : Nat := 0
  lastRowSlot : Nat := 0
  hasRow : Bool := false
  planeEpoch : List Nat := [0, 0, 0, 0, 0, 0, 0, 0]
  rowSlot : Nat := 0
  hasWave : Bool := false
  deriving DecidableEq, Repr

/-- The metadata of an accumulator row (R92); its SEAM bit follows from the bound seams. -/
structure Meta where
  fmt : Nat := 0
  epoch : Nat := 0
  stale : Bool := true
  poison : Bool := false
  sat : Bool := false
  long : Bool := false
  passes : Nat := 0
  deriving DecidableEq, Repr

/-- A seam transfer requested or in progress (R116, R117): its seam, whether a reload, its home address once started, the
lines still due, and whether some part of it failed. -/
structure Xfer where
  seam : Nat
  reload : Bool
  home : Nat := 0
  left : Nat := 0
  started : Bool := false
  failed : Bool := false
  deriving DecidableEq, Repr

/-- What a write on its way goes to: the array's update of a row, a row through the write port, or row `row` of seam k's
copy through the write port. -/
inductive WKind where
  | arr
  | row
  | seam (k : Nat)
  deriving DecidableEq, Repr

/-- A write of an accumulator row on its way (R96, R97): the slot it is made in, its row, its kind, its record, the
entries it changes (none: kept), and the row's new metadata (a statistics write, R107, keeps FMT, EPOCH and PASSES of its own). A scan
chunk's write names its stream. A seam write changes the bits of `mask`, and with it the rows `also` (R179). An update of the array
carries its flags and LONGSUM, and a binary32 add its partials, which are added to `lanes` when it is made. A `void` one takes its port and
changes nothing (R175). -/
structure AccWrite where
  due : Nat
  row : Nat
  kind : WKind
  uid : Nat
  pos : Nat
  lanes : List (Option W32)
  md : Meta
  k : Nat := 0
  mask : W32 := 0xFFFFFFFF
  also : List (Nat × W32 × List (Option W32)) := []
  ord : Nat := 0
  add : List W32 := []
  rnd : RMode := .rne
  oi : Bool := false
  fl : Flg := 0
  long : Bool := false
  void : Bool := false
  deriving DecidableEq, Repr

/-- The accumulator memory (R91 to R108, R116, R121). `data` is keyed row × 128 + entry. `flips` holds the wrong stored bits
of an entry (R422), keyed alike, and those of a row's metadata at 131072 + row. The read ports used in slot
`portSlot` are counted, and `ahead` are those that records which started earlier still take in it (R97). Writes on their way, seam transfers, and the seam of the last transfer. -/
structure Acc where
  data : SMap W32 := []
  md : SMap Meta := []
  flips : SMap W32 := []
  hiCap : W32 := 1
  portSlot : Nat := 0
  reads : Nat := 0
  ahead : Nat := 0
  wq : List AccWrite := []
  xfers : List Xfer := []
  xferSeam : Nat := 0
  trigCount : Nat := 0
  xferDir : Bool := false
  deriving DecidableEq, Repr

/-- A BIND or a ZERO of a seam that waits for a bench boundary, or a rebind for an eviction (R119, R449). -/
structure SeamPend where
  isBind : Bool
  w : CmdWords
  cli : Cli
  deriving DecidableEq, Repr

/-- A seam (R109 to R122). STATE as R114. `cur` is the copy that holds the committed state; `shadow` are the entries
written during the step in progress, keyed row index × 128 + entry, `wrBy` names alike the vector record that wrote an entry last (its position
plus one), and `shadowBad` tells that one carried poison.
`owner` is the bench whose chunk is in flight, `trig` the order of its reload's trigger, `bound` the serial of the first bench that
starts under the present binding (R33). `closePend` waits for the transfer in progress when `closing`, else for slot `closeAt`, the first
after a commit window (R113). `flip` is one more than the slot of the last commit: in that slot reads still see the state before it. -/
structure Seam where
  st : Nat := 0
  sfmt : Nat := 0
  nvec : Nat := 1
  nelig : Nat := 0
  poison : Bool := false
  stale : Bool := false
  held : Bool := false
  deep : Nat := 0
  width : Nat := 128
  channel : Nat := 0
  nrows : Nat := 0
  base : Nat := 0
  step : W32 := 0
  evicts : Nat := 0
  reloads : Nat := 0
  cur : Bool := false
  shadow : SMap (Option W32) := []
  wrBy : SMap Nat := []
  shadowBad : Bool := false
  owner : Nat := 0
  pend : Option SeamPend := none
  trig : Nat := 0
  closing : Bool := false
  closePend : Option Cli := none
  closeAt : Nat := 0
  bound : Nat := 0
  flip : Nat := 0
  deriving DecidableEq, Repr

/-- A step of the gate pipe in flight (R136): its record and stream, seam, start slot and number of gates; the table banks
at its start (R131); the rows read so far with their formats (projection, gate), the seam's standard and deep rows, the
audit's reference; per lane the pre-activations, the gates and tnh(c) as far as they are formed; the new vectors in binary32 and as
standard entries. -/
structure GateStep where
  uid : Nat
  pos : Nat
  k : Nat
  seam : Nat
  g : Nat
  bankS : Bool := false
  bankT : Bool := false
  xs : List (Nat × List W32) := []
  rs : List (Nat × List W32) := []
  std : List W32 := []
  deep : List W32 := []
  audit : Bool := false
  aud : Option (List W32) := none
  pre : List (List W32) := []
  gs : List (List W32) := []
  y : List W32 := []
  h : List W32 := []
  c : List W32 := []
  hs : List Nat := []
  cs : List Nat := []
  ref : List W32 := []
  deriving DecidableEq, Repr

/-- An entry of the feedback buffer (R128, R138): whether it holds a value, its value, the value before it, and of the step
that wrote it the start slot, the bench and the first gate row. -/
structure FbEntry where
  has : Bool := false
  old : List Nat := []
  oldHas : Bool := false
  new : List Nat := []
  g : Nat := 0
  uid : Nat := 0
  grow : Nat := 0
  deriving DecidableEq, Repr

/-- The gate pipe (R123 to R150): written coefficients of the tables, keyed table × 512 + bank × 256 + segment × 4 + c (an unlisted one
is the built-in coefficient), active banks, pending switches, the feedback buffer and steps in flight; `drifted` tells that a measurement of
the audit since GP_AUDIT_MAX.VALID was last cleared has passed the limit then in force (R148). -/
structure Gate where
  tbl : SMap (Option W32) := []
  bankSig : Bool := false
  bankTnh : Bool := false
  pendSig : Bool := false
  pendTnh : Bool := false
  badTbl : List Nat := []
  fb : SMap FbEntry := []
  steps : List GateStep := []
  lastStart : Nat := 0
  lastP : Nat := 0
  hasLast : Bool := false
  drifted : Bool := false
  deriving DecidableEq, Repr

/-- A step of a scan chunk (R156): the slot its row was read in, its projection and step-size rows with their formats, and
per lane the scaled input, step size, decay, the pair as each level of the network received it and as it left, the state, and
the same pairs and values of each trace. -/
structure ScanStep where
  r : Nat
  x : Nat × List W32 := (0, [])
  d : Nat × List W32 := (0, [])
  xp : List W32 := []
  dlt : List W32 := []
  a : List W32 := []
  lv : List (List (W32 × W32)) := []
  h : List W32 := []
  tlv : SMap (List (List (W32 × W32))) := []
  tr : SMap (List W32) := []
  deriving DecidableEq, Repr

/-- A scan chunk in flight (R155 to R158): its record and stream, seam, traces, the steps read so far, and the carries of the
state and of the traces. -/
structure ScanChunk where
  uid : Nat
  pos : Nat
  k : Nat
  seam : Nat
  s : Nat
  e : Nat := 0
  steps : List ScanStep := []
  carry : List W32 := []
  carryT : SMap (List W32) := []
  deriving DecidableEq, Repr

/-- The set-up of a scan record (R151, R153, R163): the slot of its exp2 request in mode 1, the product it asks for, the decay, the input
gain β and the factors of the traces, each formed once. -/
structure ScanSetup where
  uid : Nat
  pos : Nat
  req : Nat
  prod : List W32 := []
  a : List W32 := []
  beta : List W32 := []
  g : List W32 := []
  g2 : List W32 := []
  deriving DecidableEq, Repr

/-- The scan stage (R151 to R167): chunks in flight, the seam, bench, record, stream and next step of the chunk last dispatched, and the
set-ups. -/
structure Scan where
  chunks : List ScanChunk := []
  lastSeam : Nat := 0
  lastUid : Nat := 0
  lastPos : Nat := 0
  lastK : Nat := 0
  lastNext : Nat := 0
  setups : List ScanSetup := []
  deriving DecidableEq, Repr

/-- The destination of a delayed vector result that is no row (R174): a vector, mask or K register. -/
inductive VDst where
  | v (r : Nat)
  | m (r : Nat)
  | k (r : Nat)
  deriving DecidableEq, Repr

/-- A vector result on its way (R174): the slot from which instructions see it, the issue order, and its lanes (none: kept).
A mask's lanes are 0 or 1; a K register's value is lane 0. -/
structure VRes where
  due : Nat
  ord : Nat
  dst : VDst
  lanes : List (Option W32)
  uid : Nat
  pos : Nat
  deriving DecidableEq, Repr

/-- An output row on its way to the writer (R181, R188): the seams whose commit it waits for, its descriptor and row, its
bytes, its record, and the slot in which the writer takes it. -/
structure HeldVst where
  seams : List Nat
  td : Nat
  row : Nat
  bytes : List (BitVec 8)
  uid : Nat
  pos : Nat
  due : Nat
  deriving DecidableEq, Repr

/-- A VCOMMIT on its way (R181): the last slot of its commit window, its record and seam. -/
structure VCommit where
  due : Nat
  uid : Nat
  pos : Nat
  seam : Nat
  deriving DecidableEq, Repr

/-- An entry of the recipe directory (R190). -/
structure RcpEntry where
  valid : Bool := false
  pend : Bool := false
  checking : Bool := false
  err : Bool := false
  len : Nat := 0
  start : Nat := 0
  retire : Bool := false
  deriving DecidableEq, Repr

/-- A loop of a recipe (R183): first body address, body length, count, index. -/
structure VLoop where
  first : Nat
  body : Nat
  count : Nat
  i : Nat
  deriving DecidableEq, Repr

/-- A recipe that runs (R173). -/
structure Running where
  uid : Nat
  pos : Nat
  entry : Nat
  pc : Nat
  next : Nat
  loops : List VLoop := []
  deriving DecidableEq, Repr

/-- The vector engine (R168 to R192): `v` is keyed register × 128 + lane; `recipe` holds the recipe RAM;
`checking` lists the entries under check, the first since PCLK cycle `checkT`. -/
structure Vec where
  v : SMap W32 := []
  m : List (BitVec 128) := [0, 0, 0, 0, 0, 0, 0, 0]
  k : List Nat := [0, 0, 0, 0]
  vl : Nat := 128
  li : List Nat := [0, 0]
  flags : SMap Nat := []
  run : Option Running := none
  endSlot : Nat := 0
  hasEnd : Bool := false
  lastEntry : Nat := 0
  lastPc : Nat := 0
  res : List VRes := []
  ord : Nat := 0
  vsts : List HeldVst := []
  ending : List (Nat × Nat) := []
  commits : List VCommit := []
  recipe : SMap W64 := []
  badRcp : List Nat := []
  dir : SMap RcpEntry := []
  loHold : W32 := 0
  hiCap : W32 := 0
  checking : List Nat := []
  checkT : Nat := 0
  deriving DecidableEq, Repr

/-- Who asked the SFU (R193): the vector engine for a vector register or a row (of a base, or of a seam's part), or the scan
stage's set-up, softplus or exp2 of step t of stream k. -/
inductive SfuWho where
  | vec (dst : Nat)
  | scanSetup
  | scanSoft (k : Nat) (t : Nat)
  | scanExp (k : Nat) (t : Nat)
  deriving DecidableEq, Repr

/-- A request accepted by the SFU and not yet delivered (R193): its requester, the slot of its result, the results of the
acting lanes, formed with the banks of its request slot (R202), their flags, whether the slot was off, and whether a word
failed its parity. `dst` of a vector request is the instruction's operand, and `row` the accumulator row that it names in the issue slot. -/
structure SfuReq where
  who : SfuWho
  uid : Nat
  pos : Nat
  due : Nat
  ord : Nat
  row : Nat := 0
  lanes : List (Option W32)
  fls : List Flg
  off : Bool := false
  clamp : Bool := false
  deriving DecidableEq, Repr

/-- The special function unit (R193 to R212): written words keyed (slot × 2 + bank) × 1024 + word (an unlisted one has its
built-in contents), active banks and pending switches as bits, microcode keyed program × 16 + step. -/
structure Sfu where
  tbl : SMap (Option W32) := []
  bank : Nat := 0
  pend : Nat := 0
  uc : SMap W32 := []
  badTbl : List Nat := []
  badUc : List Nat := []
  reqs : List SfuReq := []
  deriving DecidableEq, Repr

/-- The side-band word of a sector (R418): check, poison mark, UNINIT mark, and its wrong stored bits (15 to 0 of the
check, 16 of the poison mark, 17 of UNINIT). -/
structure Side where
  check : Nat := 0
  poison : Bool := false
  uninit : Bool := true
  flips : W64 := 0
  deriving DecidableEq, Repr

/-- A transpose buffer (R252): the block it holds, its bytes and which sectors are marked poisoned. -/
structure XBuf where
  valid : Bool := false
  blk : Nat := 0
  data : SMap Nat := []
  bad : List Nat := []
  deriving DecidableEq, Repr

/-- A line of the read cache (R265, R418): its external line address, its data, the wrong stored bits of its 64-bit words, and the
side-band words of its two sectors. -/
structure CLine where
  addr : Nat
  data : BitVec 512
  flips : SMap W64 := []
  lo : Side := {}
  hi : Side := {}
  deriving DecidableEq, Repr

/-- A line that reaches a channel: its data, and from the read cache the side-band words of its sectors (R418). -/
structure LineIn where
  data : BitVec 512 := 0
  sides : Option (Side × Side) := none
  deriving DecidableEq, Repr

/-- A hit of the read cache on its way to a channel (R265): channel, row, address, lines and the MCLK cycle it is due. -/
structure CacheHit where
  c : Nat
  id : Nat
  addr : Nat
  lines : List LineIn
  due : Nat
  deriving DecidableEq, Repr

/-- A slot-timed write of a whole sector by a record in the present pair (R244): it is in place when the pair has ended. -/
structure SlotWrite where
  slot : Nat
  uid : Nat
  pos : Nat
  sec : Nat
  data : BitVec 256
  check : Nat
  poison : Bool
  deriving DecidableEq, Repr

/-- The accesses of the present slot pair (R243 to R245): slot-timed accesses per bank, the lines read, the writes that
wait for the pair's end; per bank the DMA requests that wait and the pairs they have lost; the banks that one of them won; the
even sector of the last DMA request, plus 1, whose odd sector is part of the same 64 B access. -/
structure Arb where
  acc : SMap Nat := []
  lines : List Nat := []
  wr : List SlotWrite := []
  dma : SMap Nat := []
  starve : SMap Nat := []
  won : List Nat := []
  last : Nat := 0
  deriving DecidableEq, Repr

/-- The scratchpad (R241 to R253, R265, R418). `data` lists bytes; an unlisted byte reads 0 (log 6). `cls` records the class of a
64-bit word other than SECDED; `flips` its wrong stored bits. The cache holds per set the lines, most recently used
first. -/
structure Spad where
  data : List Host.Cell := []
  side : SMap Side := []
  cls : SMap Nat := []
  flips : SMap W64 := []
  arb : Arb := {}
  xFeed : XBuf := {}
  xDerr : XBuf := {}
  cache : SMap (List CLine) := []
  hits : List CacheHit := []
  deriving DecidableEq, Repr

/-- A ring (R254 to R264). `beg` is the sequence number up to which its producer has begun halves; `pg0` and `pg1` list
the pages each half holds; `landed` the sectors of the filling half that have landed; `pend` a RING_SET that waits for
its boundary (R259). -/
structure Ring where
  en : Bool := false
  pooled : Bool := false
  psrc : Bool := false
  relmode : Nat := 0
  rps : Nat := 16
  seam : Nat := 0
  landing : Bool := false
  base : Nat := 0
  rsize : Nat := 32
  nrows : Nat := 1024
  prod : Nat := 0
  rel : Nat := 0
  beg : Nat := 0
  ep0 : Nat := 0
  ep1 : Nat := 0
  pg0 : List Nat := []
  pg1 : List Nat := []
  landed : List Nat := []
  pend : Option (CmdWords × Cli) := none
  deriving DecidableEq, Repr

/-- A window entry (R268 to R271). MODE: 0 CLOSED, 1 EXPORT, 2 IMPORT. `closing` is the CLOSE that waits for its cycle, `fin`
those that wait for the landing writes that were checked before them, each with the generation it closed. -/
structure Win where
  mode : Nat := 0
  rd : Bool := false
  wr : Bool := false
  stale : Bool := false
  land : Bool := false
  gen : Nat := 0
  peer : Nat := 0
  pwin : Nat := 0
  lring : Nat := 0
  base : Nat := 0
  size : Nat := 0
  drops : Nat := 0
  closing : Option Cli := none
  fin : List (Nat × Cli) := []
  deriving DecidableEq, Repr

/-- A sector that travels: 32 bytes, its check and its poison mark (R416, R418). -/
structure Sector where
  data : BitVec 256 := 0
  check : Nat := 0
  poison : Bool := false
  deriving DecidableEq, Repr

/-- A landing write that has passed its check, under the generation that its window entry then had, and has not landed (R264, R270). -/
structure LandReq where
  port : Nat
  win : Nat
  gen : Nat := 0
  ring : Nat
  off : Nat
  step : Nat
  ep : Nat
  src : Nat
  tag : Nat
  sectors : List Sector
  waiting : Bool := false
  deriving DecidableEq, Repr

/-- A kibble that a channel has read (R275), with its own address, the next row to issue and the next to complete, whether
its EPLOAD is still to be done (R284), the writes its FENCE waits for (R294), whether
the next kibble has been asked for (R278) and whether it has raised DEADLINE_MISS (R301). -/
structure Kibble where
  kid : Nat := 0
  addr : Nat := 0
  op : Nat := 0
  last : Bool := false
  irq : Bool := false
  bell : Bool := false
  fence : Bool := false
  cache : Bool := false
  epload : Bool := false
  epinc : Bool := false
  flush : Bool := false
  kep : Nat := 0
  ring : Nat := 0
  ext : Nat := 0
  size : Nat := 32
  rows : Nat := 0
  stride : Int := 0
  spad : Nat := 0
  next : Nat := 0
  bad : Bool := false
  ri : Nat := 0
  rc : Nat := 0
  load : Bool := false
  started : Bool := false
  fenceAt : Nat := 0
  nextDone : Bool := false
  missed : Bool := false
  deriving DecidableEq, Repr

/-- A row of a channel in flight: its serial, kibble and row, the requests still to issue (address, lines), how many are
outstanding, the sectors gathered by number in the row and the side-band words that some of them bring from the read cache, its sequence number in the
ring, whether a request failed, its deadline's start (R301), and the MCLK cycle of its last beat, after which it lands (R283). -/
structure RowFl where
  id : Nat := 0
  kid : Nat := 0
  kaddr : Nat := 0
  r : Nat := 0
  ext : Nat := 0
  reqs : List (Nat × Nat) := []
  first : Bool := true
  outN : Nat := 0
  data : SMap (BitVec 256) := []
  kept : SMap (Option Side) := []
  q : Nat := 0
  failed : Bool := false
  timed : Bool := false
  t0 : Nat := 0
  beatT : Nat := 0
  deriving DecidableEq, Repr

/-- An ARM: chain address, SRC and ROW0 (R281). -/
structure ArmReq where
  addr : Nat
  src : Nat
  row0 : Nat
  deriving DecidableEq, Repr

/-- A kibble read wanted or outstanding (R278): address, whether it is an arm's first, the row to start at, whether a
RESUME asked for it, whether it has been formed, and its serial, which its request carries. -/
structure KibFetch where
  addr : Nat
  first : Bool
  row0 : Nat
  resumed : Bool
  issued : Bool
  id : Nat
  deriving DecidableEq, Repr

/-- A state a channel is to enter: its state, CAUSE and position. -/
structure ChStop where
  st : Nat
  cause : Nat
  addr : Nat
  row : Nat
  deriving DecidableEq, Repr

/-- The chain position of the first row of a half that the channel began (R280, R303). -/
structure HalfPos where
  ring : Nat
  q : Nat
  addr : Nat
  row : Nat
  deriving DecidableEq, Repr

/-- A stream channel (R275 to R289, R306). STATE: 0 IDLE, 1 RUNNING, 2 WAIT, 3 STOPPING, 4 FAULT, 5 HALTED. `kibs` are the
kibbles read and not completed and `rows` the rows in flight, in chain order; `stopTo` is entered once the outstanding
requests have settled, `tail` once the kibbles held have completed (R277, R297); `fill` is the ring that its present or last kibble
fills, and `begins` those in which it has begun a half for kibbles ahead (R287, R303); `unchecked` tells that the first kibble of its arm
has not been checked (R277). -/
structure Chan where
  st : Nat := 0
  cause : Nat := 0
  src : Nat := 0
  ep : Nat := 0
  kibs : List Kibble := []
  rows : List RowFl := []
  nextId : Nat := 0
  posA : Nat := 0
  posR : Nat := 0
  fetch : Option KibFetch := none
  stopTo : Option ChStop := none
  tail : Option ChStop := none
  aborting : Bool := false
  pend : Option ArmReq := none
  bell : Nat := 0
  stopCli : List Cli := []
  abortCli : List Cli := []
  halves : List HalfPos := []
  armOrd : Nat := 0
  ring : Nat := 0
  op : Nat := 0
  fill : Option Nat := none
  begins : List Nat := []
  unchecked : Bool := false
  deriving DecidableEq, Repr

/-- Who holds a memory-port request (R290, R307, R364); `lost` when a reset took the transfer of a seam away
(R120). -/
inductive MWho where
  | none
  | chanKib (c : Nat)
  | chanRow (c : Nat) (id : Nat)
  | seam (s : Nat)
  | writer (src : Nat)
  | image
  | lost (s : Nat)
  deriving DecidableEq, Repr

/-- A request of the memory port (R290, R438 to R440): its holder, address, lines and source; a write's lines and sector
enables; a read's lines received; the checks of its sectors where the writer or the ingress of a reload forms them (R417); the worst status so far; when it was accepted, under which TIMEOUT, and its serial
number among the accepted; whether the read cache may serve it, and whether a fill may not allocate (R266); a row's kibble, and whether it is the
kibble's first data request, which the read of the next follows (R278). -/
structure MReq where
  who : MWho := .none
  write : Bool := false
  addr : Nat := 0
  beats : Nat := 1
  src : Nat := 0
  row : Nat := 0
  sec : Nat := 0
  data : List (BitVec 512) := []
  got : List (BitVec 512) := []
  checks : List Nat := []
  worst : Nat := 0
  t0 : Nat := 0
  timeout : Nat := 0
  serial : Nat := 0
  cache : Bool := false
  noalloc : Bool := false
  first : Bool := false
  kid : Nat := 0
  lead : Bool := false
  deriving DecidableEq, Repr

/-- A beat of a write (R439): a line, the enables of its two sectors, and whether it is the request's last. -/
structure WBeat where
  data : BitVec 512
  sec : Nat
  last : Bool
  deriving DecidableEq, Repr

/-- The memory port (R290 to R300): CLOSED, generation, outstanding requests by slot (0 to 63 reads, 64 to 95 writes),
requests whose every condition but the port's limit holds, requests that are ready in the order they became ready, the
request that the port presents, with its slot, until it is accepted (R438), the serial of the next accepted request, the write beats still
to be sent and the one of the present MCLK cycle (R439), the first MCLK cycle in which a response beat may come (R291), the arms
counted, and the cycles a mutual wait has held (R303). -/
structure Memp where
  gen : Nat := 0
  closed : Bool := false
  out : SMap MReq := []
  cand : List MReq := []
  ready : List MReq := []
  req : Option (Nat × MReq) := none
  serial : Nat := 0
  beats : List WBeat := []
  beat : Option WBeat := none
  beatT : Nat := 0
  armCount : Nat := 0
  mwait : Nat := 0
  mwaitFree : Nat := 0
  deriving DecidableEq, Repr

/-- A fabric request outstanding, by TAG (R315): its kind, window, offset and step, the read it belongs to, when it was
sent, and who waits for a remote command. -/
structure FReq where
  act : Bool := false
  isRead : Bool := false
  isCmd : Bool := false
  win : Nat := 0
  off : Nat := 0
  step : Nat := 1
  rd : Nat := 0
  dst : Nat := 0
  t0 : Nat := 0
  cli : Option Cli := none
  deriving DecidableEq, Repr

/-- A request that waits for READY or for a free TAG (R315, R326): the port of the first hop's trunk if the transfer has been split
(R316), its head's fields and its sectors. -/
structure WaitReq where
  port : Option Nat
  req : FReq
  head : BitVec 256
  body : List Sector
  deriving DecidableEq, Repr

/-- A remote read in progress or held for its reader (R23, R315): its sectors by window offset, the responses still
due, and whether some part of it failed. -/
structure RRead where
  act : Bool := false
  got : SMap Sector := []
  left : Nat := 0
  failed : Bool := false
  deriving DecidableEq, Repr

/-- A packet: its head's data and side-band, and its data flits (R314). -/
structure Packet where
  head : BitVec 256
  side : W32
  body : List Flit
  deriving DecidableEq, Repr

/-- A control message waiting to be sent on a port: CTYPE and the fields it carries (R309). -/
structure CMsg where
  ctype : Nat
  sub : Nat := 0
  a : Nat := 0
  b : Nat := 0
  c : Nat := 0
  d : Nat := 0
  m : ModeWord := ⟨0, 0, 0, false⟩
  links : List LinkEnd := []
  tiles : List Nat := []
  deriving DecidableEq, Repr

/-- What a port drives in an MCLK cycle (R309, R313, R412, R441): every line low, an IDLE control flit, another control message, or a
flit of a virtual channel. -/
inductive Tx where
  | low
  | idle
  | ctl (m : CMsg)
  | vc (ch : Nat) (f : Flit)
  deriving DecidableEq, Repr

/-- A link port (R308 to R313, R331, R332). STATE: 0 ABSENT, 1 DOWN, 2 HELLO, 3 UP, 4 FAILED, 5 LOOP. Credits held and owed per channel;
packets held under R330; VC2 flits in the buffer; flits queued to leave per channel, each with the port in whose buffer it still stands,
or 6 (R312), or 7 for a copy of the tile's own broadcast (R451); control messages queued; the flit last sent with its CR field, the round
robin; when a flit last arrived; the resync in progress, and whether the far end's request of it is still to come; whether a port in HELLO, DOWN or
FAILED has heard HELLO; the MEPOCH and the head of the packet being sent on VC0 and VC1 (R314, R331); the TREE candidate that has come before the
port is UP (R322). -/
structure LinkPort where
  st : Nat := 1
  uplink : Bool := false
  peerPort : Nat := 0
  trunk : Nat := 0
  peerId : Nat := 0
  cred : List Nat := [0, 0, 0]
  owed : List Nat := [0, 0, 0]
  held : List Packet := []
  inVc2 : List Flit := []
  outVc0 : List (Nat × Flit) := []
  outVc1 : List (Nat × Flit) := []
  outVc2 : List (Nat × Flit) := []
  ctl : List CMsg := []
  tx : Tx := .low
  txCr : Nat := 0
  rr : Nat := 0
  lastRx : Nat := 0
  resync : Bool := false
  resyncT : Nat := 0
  heard : Bool := false
  meps : List Nat := [0, 0]
  heads : List (BitVec 256) := [0, 0]
  farReq : Bool := false
  tree : Option (Nat × Nat × Nat) := none
  deriving DecidableEq, Repr

/-- The topology that TOPO carries (R322): the links, each from both its ends, the tiles and the duplicate IDs. -/
structure Topo where
  links : List LinkEnd := []
  tiles : List Nat := []
  dups : List Nat := []
  deriving DecidableEq, Repr

/-- The fabric interface (R308 to R336). STATE of the survey: 0 HELLO, 1 TREE, 2 REPORT, 3 TOPO, 4 READY, 5 ALONE. `kids` are the
ports of the tree links below the tile and `parent` the one above it, as the last survey found them; `candPort` is where the present
survey's candidate came from (R323, R326). `below` are the ports that REPORTs have come in on, the tree's links below the tile, and `topo` is the
topology from which a tile in TOPO fills its route table (R322). `rr` is the round robin of each trunk, by its lowest port (R316). -/
structure Fab where
  ports : List LinkPort := [{}, {}, {}, {}, {}, {}]
  route : SMap Nat := []
  idValid : Bool := false
  id : Nat := 0
  root : Nat := 0
  depth : Nat := 0
  parent : Nat := 7
  st : Nat := 0
  dup : Bool := false
  tiles : Nat := 0
  phaseT : Nat := 0
  candRoot : Nat := 0
  candDepth : Nat := 0
  candSender : Nat := 0
  candPort : Nat := 7
  reports : List (Nat × List LinkEnd) := []
  below : List Nat := []
  topo : Option Topo := none
  surveyRoot : Nat := 0
  kids : List Nat := []
  reqs : SMap FReq := []
  reads : SMap RRead := []
  nextRead : Nat := 1
  wfails : List (Nat × Nat × Nat) := []
  chk : List (Nat × Packet) := []
  land : List LandReq := []
  waitq : List WaitReq := []
  selfIn : List Packet := []
  resurveyCli : Option Cli := none
  rr : SMap Nat := []
  deriving DecidableEq, Repr

/-- The mode and its barrier (R327 to R330, R337). Barrier at the leader: phase 0 none, 1 preparing, 2 committing. `answers` are a member's
answers to PREPARE with the MCLK cycle in which each leaves (R328). -/
structure Mode where
  rnd : Nat := 0
  pepoch : Nat := 0
  user : Nat := 0
  epoch : Nat := 0
  joined : Bool := false
  prepared : Option ModeWord := none
  prepE : Nat := 0
  prepSrc : Nat := 0
  committed : Bool := false
  lead : Nat := 0
  mode : ModeWord := ⟨0, 0, 0, false⟩
  members : List Nat := []
  acks : List Nat := []
  dones : List Nat := []
  resends : Nat := 0
  t0 : Nat := 0
  cli : Option Cli := none
  leadE : Nat := 0
  answers : List (Nat × CMsg) := []
  deriving DecidableEq, Repr

/-- A block of a reduction group (R345 to R353): exponent, whether formed this round, signs, m and q, pass bookkeeping. -/
structure RBlk where
  x : Int := 0
  formed : Bool := false
  sgn : BitVec 32 := 0
  m : W32 := 0
  q : Nat := 0
  x1 : Int := 0
  seen : Nat := 0
  passed : Bool := false
  updated : Bool := false
  home : Bool := false
  arrived : Nat := 0
  parSent : Bool := false
  deriving DecidableEq, Repr

/-- The live configuration of a reduction group (R342), as the register words it was copied from. -/
structure RCfg where
  cfg : W32 := 0
  size : W32 := 0x10000000
  bases : W32 := 0
  param : W32 := 0
  end01 : W32 := 0x08000800
  end23 : W32 := 0x08000800
  lr : List W32 := [0, 0, 0, 0]
  pmin : List W32 := [0xFF800000, 0xFF800000, 0xFF800000, 0xFF800000]
  pmax : List W32 := [0x7F800000, 0x7F800000, 0x7F800000, 0x7F800000]
  deriving DecidableEq, Repr

/-- A reduction group (R341 to R357). STATE: 0 IDLE, 1 RUNNING, 2 DONE, 3 ABORTED. -/
structure Group where
  live : RCfg := {}
  st : Nat := 0
  cause : Nat := 0
  round : Nat := 0
  formed : Nat := 0
  blks : SMap RBlk := []
  sumTok : Nat := 0
  parTok : Nat := 0
  retired : Nat := 0
  inSum : Nat := 0
  inPar : Nat := 0
  t0 : Nat := 0
  waiting : List (Nat × Flit) := []
  leaving : List (Nat × Flit) := []
  deriving DecidableEq, Repr

/-- Start-up (R361 to R371): the step, its cause and section at failure, overlay records applied, SCLK cycles taken, the
lines of the image read in the present pass by their number, those of the header and table that passed, the SCLK cycle in
which a timed step began, the part of a pass being read (1 header, 2 table, 3 sections, 4 over), whether a read failed, what the
end of start-up still waits for, and how far the load pass has come: the section, the words of it taken, and the cause and section of
a fault it has met (R364). -/
structure Boot where
  st : Nat := 0
  cause : Nat := 0
  sect : Nat := 0
  applied : Nat := 0
  time : Nat := 0
  img : SMap Nat := []
  hdr : SMap Nat := []
  t0 : Nat := 0
  stage : Nat := 0
  fail7 : Bool := false
  fromL1 : Bool := false
  recipeWait : Bool := false
  run0 : Bool := false
  fuseFail : Bool := false
  refused : Bool := false
  sectI : Nat := 0
  sectW : Nat := 0
  loadBad : Option (Nat × Nat) := none
  deriving DecidableEq, Repr

/-- A STORE or FETCH in progress (R378 to R380); one that is abandoned ends with word `stop` of its phase. -/
structure StoreJob where
  fetch : Bool
  key : W32
  len : Nat
  off : Nat
  payload : List Nat
  frame : Nat
  phase : Nat
  tries : Nat
  prev : Option Nat
  cli : Cli
  t0 : Nat := 0
  stop : Option Nat := none
  deriving DecidableEq, Repr

/-- The settings store (R373 to R382): its bytes (an unlisted one is erased, 0xFF, log 7), the job in progress and the
deletion clean-up left unfinished. -/
structure Store where
  data : SMap Nat := []
  job : Option StoreJob := none
  last : Nat := 0
  clean : List Nat := []
  bad : Nat := 0
  skipped : Nat := 0
  indexed : Bool := false
  deriving DecidableEq, Repr

/-- The clocks and the droop controller (R383 to R396). `t` counts nominal ACLK periods, `slot` the slots; the pairs of slots count
from `zero`, the slot in which the last reset was (R243);
`cause` is why the present ACLK cycle is stretched (0 not, 1 THROTTLE, 2 CAP, 3 DROOP), `half` that its first half is over; `lightSv` are
the supply codes at the end of each sensor's trim in step 2 of start-up (R361, R396).
STATE: 0 ACTIVE, 1 GATED, 2 WAKING. -/
structure Clk where
  t : Nat := 0
  slot : Nat := 0
  zero : Nat := 0
  half : Bool := false
  cause : Nat := 0
  st : Nat := 0
  idleSclk : Nat := 0
  wakeSclk : Nat := 0
  winSclk : Nat := 0
  winSlots : Nat := 0
  winBusy : Nat := 0
  act : Nat := 0
  band : Nat := 0
  sustBand : Nat := 0
  sust : Nat := 0
  trimmed : List Bool := [false, false, false]
  trims : SMap W32 := []
  lightSv : List Nat := []
  useBand : Nat := 0
  cap : Bool := false
  capPhase : Nat := 0
  retrim : Bool := false
  retrimBand : Nat := 0
  retrimSensor : Nat := 0
  retrimGot : List W32 := []
  retrimT : Nat := 0
  droop : Nat := 0
  dump : Option (Nat × Nat) := none
  dumpErr : Bool := false
  deriving DecidableEq, Repr

/-- The supply guard (R397 to R401). STATE: 0 OK, 1 LOW, 2 RECOVER. `sampleT` is the first SCLK cycle that may take the next sample, and
`throttled` tells that the last SCLK cycle ended in LOW or RECOVER (R400). -/
structure Sup where
  st : Nat := 1
  level : Nat := 0
  min : Nat := 255
  nWarn : Nat := 0
  nReset : Nat := 0
  dwell : Nat := 0
  firstOk : Bool := false
  sampleT : Nat := 0
  throttled : Bool := false
  deriving DecidableEq, Repr

/-- A single-unit reset (R410): unit, phase (1 IDLE_REQ, 2 in reset), source and who waits; the SCLK cycle in which its phase began; the
SCLK cycle of IDLE_ACK; what a LINK freeze was waiting for when IDLE_REQ was raised. -/
structure UnitRst where
  unit : Nat
  phase : Nat
  src : Nat
  cli : Option Cli
  since : Nat
  ack : Option Nat := none
  waits : List Wait := []
  deriving DecidableEq, Repr

/-- The reset controller (R404 to R415): the reset requested and not yet asserted (level, source), the SCLK cycle of its
request or of the start of its hold, and that of the end of a deferral, whether the link ports are held DOWN for it (R408), the reset in
force, por_n held low, the single-unit reset, the watchdog. -/
structure Rst where
  req : Option (Nat × Nat) := none
  t : Nat := 0
  after : Nat := 0
  linksDown : Bool := false
  reqCli : Option Cli := none
  act : Option (Nat × Nat) := none
  actCli : Option Cli := none
  por : Bool := false
  unit : Option UnitRst := none
  lastUnit : Nat := 0
  wdogWait : Bool := false
  wdog : Nat := 0
  wdogWarned : Bool := false
  wdogStop : Bool := false
  hold : Nat := 0
  holdBoot : Bool := false
  deriving DecidableEq, Repr

/-- The pins outside the tile's buses (R427, R434, R437): the lifecycle inputs, their value in force, which follows them in the next PCLK
cycle, the interrupt lines, evt_pulse. -/
structure Pins where
  lifeIn : Nat := 0
  lifecycle : Nat := 0
  irqHost : Bool := false
  irqSecure : Bool := false
  irqFatal : Bool := false
  evtPulse : Bool := false
  deriving DecidableEq, Repr

/-- The fuse map as applied (R443): the register images of its fields, DBG_DIS and the capability disables. -/
structure Fuse where
  repair : W32 := 0
  levels : W32 := 0
  outs : W32 := 0
  thresh : W32 := 0x000A8C6E
  dwell : W32 := 0x000009C4
  dbgDis : Bool := false
  capDis : Nat := 0
  deriving DecidableEq, Repr

/-- The performance counters (R215, R433): the six freeze counts and the slot count, each of 48 bits, and the upper
halves captured by a read of their LO register (index 6 is the slot count). -/
structure Perf where
  frz : List Nat := [0, 0, 0, 0, 0, 0]
  slots : Nat := 0
  caps : List Nat := [0, 0, 0, 0, 0, 0, 0]
  deriving DecidableEq, Repr

/-- A write of a control port in the present PCLK cycle (R436): its register, port and value, and whether it was performed. -/
structure PortWrite where
  off : Nat
  port : Port
  val : W32
  done : Bool
  deriving DecidableEq, Repr

/-- A register before the first write to it in the present PCLK cycle (R436): what a read returned, what it held, and what the
register that addresses its data held. -/
structure Before where
  off : Nat
  rd : W32
  held : W32
  addr : W32
  deriving DecidableEq, Repr

/-- What happened to the registers in PCLK cycle `t` (R19, R436): by offset the bits that the tile set or updated, the offsets from and up
to which a reset gave every register its reset value, the writes of the ports, and the registers before them. -/
structure Cyc where
  t : Nat := 0
  upd : SMap W32 := []
  resets : List (Nat × Nat) := []
  wrote : List PortWrite := []
  before : List Before := []
  deriving DecidableEq, Repr

/-- The state of the tile: every unit, the commands that wait, and the model's own counter of free values. -/
structure State where
  clk : Clk := {}
  ev : Ev := {}
  perf : Perf := {}
  mb : Mb := {}
  regs : SMap W32 := []
  cyc : Cyc := {}
  seq : Seq := {}
  gen : SMap W32 := []
  genSeed : W32 := 0
  arr : Arr := {}
  acc : Acc := {}
  seams : SMap Seam := []
  gate : Gate := {}
  scan : Scan := {}
  vec : Vec := {}
  sfu : Sfu := {}
  spad : Spad := {}
  rings : SMap Ring := []
  wins : SMap Win := []
  chans : SMap Chan := []
  memp : Memp := {}
  fab : Fab := {}
  mode : Mode := {}
  red : List Group := [{}, {}]
  boot : Boot := {}
  store : Store := {}
  sup : Sup := {}
  rst : Rst := {}
  pins : Pins := {}
  fuse : Fuse := {}
  straps : Nat × Nat := (0, 255)
  variant : Variant := Config.variant
  denied : Nat := 0
  free : Nat := 0
  pending : List Instr := []
  deriving DecidableEq, Repr

/-- Reasons to stop the machine. The manual gives every event an effect, so no meaning raises one: a stop by name would
be safe, since nothing could be proved of what follows. -/
inductive Fault where
  /-- no event raises it (safe) -/
  | never
  deriving DecidableEq, Repr

/-- Reasons to refuse a command. -/
inductive Refusal where
  /-- the command has no meaning yet; raised by its arm in Dispatch (safe) -/
  | notModelled (mnemonic : String)
  deriving DecidableEq, Repr

/-- The class of an event code (R426, R430): 0 INFO, 1 WARN, 2 ERROR, 3 FATAL; none for a reserved code. -/
def evClass (code : Nat) : Option Nat :=
  match code with
  | 0x01 => some 0 | 0x02 => some 2 | 0x03 => some 2 | 0x04 => some 2 | 0x05 => some 1 | 0x06 => some 2
  | 0x07 => some 1 | 0x08 => some 2 | 0x09 => some 1 | 0x0A => some 1 | 0x0B => some 1 | 0x0C => some 2
  | 0x0D => some 1 | 0x0E => some 2 | 0x0F => some 2 | 0x10 => some 2 | 0x11 => some 3 | 0x12 => some 2
  | 0x20 => some 2 | 0x21 => some 1 | 0x22 => some 2 | 0x23 => some 2 | 0x24 => some 1 | 0x25 => some 2
  | 0x26 => some 0 | 0x27 => some 0 | 0x28 => some 2 | 0x29 => some 1 | 0x2A => some 2 | 0x2B => some 2
  | 0x2C => some 1 | 0x2D => some 1 | 0x2E => some 1 | 0x2F => some 1
  | 0x40 => some 0 | 0x41 => some 3 | 0x42 => some 2 | 0x43 => some 1 | 0x44 => some 1 | 0x45 => some 0
  | 0x46 => some 1 | 0x47 => some 2 | 0x48 => some 0 | 0x49 => some 1 | 0x4A => some 0 | 0x4B => some 1
  | 0x4C => some 1 | 0x4D => some 2
  | 0x60 => some 0 | 0x61 => some 3 | 0x62 => some 3 | 0x63 => some 1 | 0x64 => some 0 | 0x65 => some 1
  | 0x66 => some 0 | 0x67 => some 1 | 0x68 => some 0 | 0x69 => some 1 | 0x6A => some 1 | 0x6B => some 1
  | _ => none

/-- The default route of a class (R427). -/
def classRoute (c : Nat) : Nat :=
  match c with
  | 0 => 8
  | 1 => 9
  | _ => 15

/-- The routes after an L0 reset (R427): the default of each listed event's class. -/
def defaultRoutes : SMap Nat :=
  (natsTo 128).filterMap fun c => (evClass c).map fun k => (c, classRoute k)

/-- Registers held in `regs` whose reset value is not zero, by offset (the chapters' register tables). -/
def regResets : SMap W32 :=
  [(0x01C0, 0x0007A400), (0x020C, 0x00000064), (0x0218, 0x01000000), (0x0380, 0x00000400), (0x3000, 0x00000015),
   (0x4000, 0x00000003), (0x4004, 0x0000EC08), (0x5C00, 0x00001000), (0x7004, 0x00401000), (0x9008, 0x000000C8),
   (0x8004, 0x10000000), (0x8010, 0x08000800), (0x8014, 0x08000800),
   (0x8030, 0xFF800000), (0x8034, 0xFF800000), (0x8038, 0xFF800000), (0x803C, 0xFF800000),
   (0x8040, 0x7F800000), (0x8044, 0x7F800000), (0x8048, 0x7F800000), (0x804C, 0x7F800000),
   (0x8104, 0x10000000), (0x8110, 0x08000800), (0x8114, 0x08000800),
   (0x8130, 0xFF800000), (0x8134, 0xFF800000), (0x8138, 0xFF800000), (0x813C, 0xFF800000),
   (0x8140, 0x7F800000), (0x8144, 0x7F800000), (0x8148, 0x7F800000), (0x814C, 0x7F800000)]

/-- The machine right after reset: the tile at the release of the power-on reset, start-up at step 1 (log 3). -/
def State.reset : State :=
  { ev := { routes := defaultRoutes }
    regs := regResets }

end Sys2Proof.Machine
end

