-- ==== Sys2Proof/Machine/Ops.lean ====
section
/-! DEFINITION. Operations shared by every unit: the held registers, capabilities, events and interrupt lines, the end of
a command, and free values. -/
namespace Sys2Proof.Machine

/-- The end of every meaning: a next state (log 1). -/
abbrev Out := Host.Outcome State Fault Refusal

-- Clocks (R383): `t` counts nominal ACLK periods.

/-- The PCLK cycle. -/
def pclkOf (s : State) : Nat := s.clk.t / 8
/-- The MCLK cycle. -/
def mclkOf (s : State) : Nat := s.clk.t / 2
/-- The SCLK cycle. -/
def sclkOf (s : State) : Nat := s.clk.t / 40

-- Held registers, by offset (R15, R17).

/-- The value held at offset `off`. -/
def reg (s : State) (off : Nat) : W32 := mget s.regs 0 off
/-- The value held at offset `off` replaced, whoever writes it. -/
def putReg (s : State) (off : Nat) (v : W32) : State := { s with regs := mset s.regs 0 off v }
/-- The bits that a write of 1 clears: W1C fields. -/
def w1cBits (off : Nat) : W32 :=
  match off with
  | 0x114 => 0x40000000
  | 0x134 => 0x40000000
  | 0x154 => 0x40000000
  | 0x1C8 => 0x80000000
  | 0x1D4 => 0x80000000
  | 0x3004 => 0x10000000
  | 0x3010 => 0x80000000
  | 0x3014 => 0x80000000
  | 0x4008 => 0x80000000
  | 0x4010 => 0x0000001F
  | 0x4404 => 0x0000007F
  | 0x4804 => 0x0000007F
  | 0x481C => 0x80000000
  | 0x4F00 => 0x0000001F
  | 0x5004 => 0x00000057
  | 0x5C04 => 0x0000001F
  | 0x5C18 => 0x80000000
  | 0x6058 => 0x80000000
  | _ => 0
/-- What happened to the registers in the present PCLK cycle. -/
def cycNow (s : State) : Cyc := if s.cyc.t = pclkOf s then s.cyc else { t := pclkOf s }
/-- The bits at `off` that the tile set or updated in the present PCLK cycle (R19). -/
def tileBits (s : State) (off : Nat) : W32 :=
  if (cycNow s).resets.any fun e => decide (e.1 ≤ off) && decide (off < e.2) then 0xFFFFFFFF else mget (cycNow s).upd 0 off
/-- The tile has set or updated the bits `m` at `off` (R19). -/
def tileUpd (s : State) (off : Nat) (m : W32) : State :=
  if m = 0 then s else { s with cyc := { cycNow s with upd := mset (cycNow s).upd 0 off (tileBits s off ||| m) } }
/-- The tile writes the value held at offset `off`; the W1C bits that it sets stand against a write that clears them (R19). -/
def setReg (s : State) (off : Nat) (v : W32) : State :=
  tileUpd (putReg s off v) off (v &&& ~~~reg s off &&& w1cBits off)
/-- The tile writes a log whole: every W1C bit that is 1 in it is set, were it set before or not (R19). -/
def logReg (s : State) (off : Nat) (v : W32) : State := tileUpd (putReg s off v) off (v &&& w1cBits off)
/-- The tile updates an RW field: its bits `m` become those of `v`, which stand against a host write (R19). -/
def setRw (s : State) (off : Nat) (m v : W32) : State :=
  tileUpd (putReg s off ((reg s off &&& ~~~m) ||| (v &&& m))) off m
/-- A host write of the value held at offset `off`: what the tile set or updated in this PCLK cycle stands (R19). -/
def hostReg (s : State) (off : Nat) (v : W32) : State :=
  putReg s off ((v &&& ~~~tileBits s off) ||| (reg s off &&& tileBits s off))
/-- Field [lo + len - 1 : lo] of the value held at `off`. -/
def regF (s : State) (off lo len : Nat) : Nat := fieldN (reg s off) lo len
/-- Write a field of the value held at `off`. -/
def setRegF (s : State) (off lo len v : Nat) : State := setReg s off (putN (reg s off) lo len v)
/-- Set the bits `m` of the value held at `off` (a sticky bit, R19). -/
def orReg (s : State) (off : Nat) (m : W32) : State := tileUpd (putReg s off (reg s off ||| m)) off (m &&& w1cBits off)
/-- A counting field advanced by `n`, holding at its top. -/
def addReg (s : State) (off lo len n : Nat) : State :=
  setRegF s off lo len (satAdd (2 ^ len - 1) (regF s off lo len) n)
/-- A counting field advanced by one. -/
def incReg (s : State) (off lo len : Nat) : State := addReg s off lo len 1

/-- A built-in coefficient of a gate table: any finite value (R130). -/
def gateBuilt (tanh : Bool) (k c : Nat) : W32 := finite32 (Config.gateCoef tanh k c)

-- Capabilities (R4, R6, R453).

/-- CAPS of the variant, before the fuse map's disables. -/
def capsOf (v : Variant) : W32 :=
  match v with
  | .f => 0xFFD40000
  | .c => 0x73D40000
  | .l => 0x00C00000

/-- CAPS: the variant's, less the capability disables of the fuse map (bit k clears CAPS bit 22 + k). -/
def caps (s : State) : W32 := capsOf s.variant &&& ~~~(BitVec.ofNat 32 (s.fuse.capDis % 1024 * 2 ^ 22))

/-- Whether the adaptation unit is present. -/
def hasAdapt (s : State) : Bool := bitB (caps s) 31
/-- Whether the deep-state groups are present. -/
def hasDeep (s : State) : Bool := bitB (caps s) 30
/-- Whether cache mode is present. -/
def hasCache (s : State) : Bool := bitB (caps s) 29
/-- Whether the SFU microcode RAM is present. -/
def hasUcode (s : State) : Bool := bitB (caps s) 28
/-- Whether link port n is present. -/
def hasLink (s : State) (n : Nat) : Bool := decide (n < 6) && bitB (caps s) (22 + n)
/-- Bytes of the scratchpad. -/
def spadBytes (s : State) : Nat := if fieldN (caps s) 20 2 = 1 then 4194304 else 2097152
/-- Frames of the settings store (R373). -/
def storeFrames (s : State) : Nat := if fieldN (caps s) 18 2 = 1 then 63 else 7

-- Events (R425 to R429).

/-- The 4-bit route of an event: [3] LOG, [2] PULSE, [1] SECURE, [0] HOST. -/
def routeOf (s : State) (code : Nat) : Nat := mget s.ev.routes 0 code

/-- The log queue takes an entry; it holds 16, and one that finds no place is dropped (R429). -/
def evQueue (v : Ev) (e : EvEntry) : Ev :=
  if v.queue.length < 16 then { v with queue := v.queue ++ [e] } else { v with dropped := satAdd 0xFF v.dropped 1 }

/-- Whether the event's pending bit is set. -/
def pendShown (s : State) (c : Nat) : Bool := s.ev.pend.getLsbD c

/-- The cause of an event, with its ARG: the next PCLK cycle raises it (R425). A reserved code is never raised (R430). -/
def raise (s : State) (code arg : Nat) : State :=
  if (evClass code).isSome then { s with ev := { s.ev with due := s.ev.due ++ [(code, arg % 65536)] } } else s

/-- Causes in ascending order of code, those of one code in their own order. -/
def dueInsert (l : List (Nat × Nat)) (e : Nat × Nat) : List (Nat × Nat) :=
  match l with
  | [] => [e]
  | x :: r => if e.1 < x.1 then e :: x :: r else x :: dueInsert r e

/-- An event raised in PCLK cycle `now`: its pending bit, the count, and under its route an entry for the log (R425, R429, R432). -/
def evRaise (now : Nat) (v : Ev) (e : Nat × Nat) : Ev :=
  let u := { v with pend := v.pend ||| (1#128 <<< e.1), setAt := mset v.setAt 0 e.1 now, count := satAdd 0xFFFFFFFF v.count 1 }
  if (mget v.routes 0 e.1).testBit 3 then evQueue u ⟨e.1, (evClass e.1).getD 0, e.2, v.time⟩ else u

/-- A raise with PULSE = 1 in PCLK cycle `now` (R427): the pulse begins in the next cycle; one that falls during a pulse or its low time is
merged with the others into one that follows. -/
def evPulse (now : Nat) (v : Ev) : Ev :=
  if v.pulse = 0 || (v.pulse = 2 && !v.merged && decide (v.pulseT + 4 ≤ now)) then { v with pulse := 1, pulseT := now + 1 }
  else { v with merged := true }

/-- The causes of the last PCLK cycle are raised in the present one, in ascending order of code (R425, R429). -/
def raiseDue (s : State) : State :=
  let l := s.ev.due.foldl dueInsert []
  let v := l.foldl (evRaise (pclkOf s)) { s.ev with due := [] }
  { s with ev := if l.any fun e => (mget v.routes 0 e.1).testBit 2 then evPulse (pclkOf s) v else v }

/-- Whether some pending event satisfies `p`. -/
def anyPend (s : State) (p : Nat → Bool) : Bool :=
  (natsTo 128).any fun c => pendShown s c && p c

/-- What the event unit drives on irq_host (R427). -/
def wantHost (s : State) : Bool := anyPend s fun c => (routeOf s c).testBit 0
/-- What the event unit drives on irq_secure (R427). -/
def wantSecure (s : State) : Bool := anyPend s fun c => (routeOf s c).testBit 1
/-- What the event unit drives on irq_fatal (R427). -/
def wantFatal (s : State) : Bool := anyPend s fun c => evClass c == some 3

/-- What the event unit drives on evt_pulse (R427). -/
def wantPulse (s : State) : Bool := s.ev.pulse == 1 && decide (s.ev.pulseT ≤ pclkOf s)

/-- Whether unit u accepts no new work: a single-unit reset of it is in progress (R410). -/
def unitHeld (s : State) (u : Nat) : Bool :=
  match s.rst.unit with
  | some x => x.unit == u && x.phase != 0
  | none => false

/-- Whether unit u is in its reset (R410). -/
def unitDown (s : State) (u : Nat) : Bool :=
  match s.rst.unit with
  | some x => x.unit == u && x.phase == 2
  | none => false

/-- Whether a level reset holds every access off (R435). -/
def accessHeld (s : State) : Bool := s.rst.act.isSome || s.rst.por

/-- Whether a reset holds the outputs at their DUR level: a level reset from assertion to release, or a unit in reset
(R412, log 12). -/
def inResetOut (s : State) : Bool :=
  s.rst.act.isSome || (match s.rst.unit with | some u => u.phase == 2 | none => false)

/-- Whether POST = 1 still holds an output at its DUR level (R412). -/
def inPostHold (s : State) : Bool :=
  (s.rst.holdBoot && decide (s.boot.st < 6)) || decide (sclkOf s < s.rst.hold)

/-- Interrupt line `i` (0 irq_host, 1 irq_secure, 2 irq_fatal, 3 evt_pulse) when its unit drives `own` (R412, R362). -/
def lineOut (s : State) (i : Nat) (own : Bool) : Bool :=
  if s.boot.fuseFail then i == 2
  else if inResetOut s || (bitB s.fuse.outs (2 * i) && inPostHold s) then bitB s.fuse.outs (2 * i + 1)
  else own

/-- The interrupt pins as the state drives them (R412, R427). -/
def irqPins (s : State) : Pins :=
  { s.pins with
    irqHost := lineOut s 0 (wantHost s)
    irqSecure := lineOut s 1 (wantSecure s)
    irqFatal := lineOut s 2 (wantFatal s)
    evtPulse := lineOut s 3 (wantPulse s) }

/-- The end of a step: the interrupt pins follow the state. -/
def settle (s : State) : State := { s with pins := irqPins s }

/-- The answer of a meaning with effect `f`: everything but the queue changes, the pins follow, and the machine goes on
(log 1). -/
def act (s : State) (f : State → State) : Out :=
  .next (settle { f s with pending := s.pending, variant := s.variant })

/-- An effect that takes place if its event is enabled; otherwise nothing changes (log 1). -/
def guardS (b : Bool) (f : State → State) (s : State) : State := if b then f s else s

/-- A fold over a list that carries the state. -/
def eachS {α : Type} (l : List α) (f : α → State → State) (s : State) : State := l.foldl (fun s a => f a s) s

-- Free values (log 4).

/-- The number of the next free value, and the state that has used it. -/
def useFree (s : State) : Nat × State := (s.free, { s with free := s.free + 1 })

-- PERF counters (R433).

/-- The top of a 48-bit count. -/
def top48 : Nat := 2 ^ 48 - 1
/-- PERF_FRZ count c advanced (R215). -/
def perfFrz (s : State) (c : Nat) : State :=
  { s with perf := { s.perf with frz := lupd s.perf.frz c (fun n => satAdd top48 n 1) } }

/-- A consumer's check failed: CHECK_FAIL and PERF_CHECK.CONSUMER (R420). `cons` is the consumer. -/
def checkFail (s : State) (poisoned uninit : Bool) (cons : Nat) : State :=
  incReg (raise s 0x0E (b2n poisoned * 32768 + b2n (uninit && !poisoned) * 16384 + cons)) 0xE038 0 16

/-- An egress check failed: EGRESS_FAIL and PERF_CHECK.EGRESS (R420). `what` is 0 channel, 1 writer, 2 eviction. -/
def egressFail (s : State) (unit what : Nat) : State :=
  incReg (raise s 0x0F (unit * 256 + what)) 0xE038 16 16

end Sys2Proof.Machine
end

