-- ==== Sys2Proof/Machine/Spad.lean ====
section
/-! DEFINITION. The scratchpad: addresses, regions, error codes, sector reads and writes, the sector check, bank
arbitration and the transpose buffers (10_scratchpad_and_windows.md, R241 to R253; 17_integrity_and_events.md,
R416 to R420). -/
namespace Sys2Proof.Machine

/-- A byte of the scratchpad; an unlisted one reads 0 (log 6). -/
def spadByte (s : State) (off : Nat) : Byte := mget s.spad.data 0 off

/-- Write a byte of the scratchpad. -/
def setSpadByte (s : State) (off : Nat) (b : Byte) : State :=
  { s with spad := { s.spad with data := mset s.spad.data 0 off b } }

/-- The bytes of a number, least significant first. -/
def bytesLE (n v : Nat) : List Byte := (natsTo n).map fun i => BitVec.ofNat 8 (v >>> (8 * i))

/-- The number whose bytes, least significant first, are the list's. -/
def ofBytesLE : List Byte → Nat
  | [] => 0
  | b :: r => b.toNat + 256 * ofBytesLE r

/-- The bytes of a sector in ascending address order. -/
def sectorBytes (d : BitVec 256) : List Byte := bytesLE 32 d.toNat

/-- The check of a sector's 32 bytes (R416). -/
def sectorCheck (d : BitVec 256) : Nat := (crc16 (sectorBytes d)).toNat

-- Regions (R246).

/-- Region n's register. -/
def regionReg (s : State) (n : Nat) : W32 := reg s (0x6000 + 4 * n)

/-- First byte, bytes and end of a region's word. -/
def regionBase (w : W32) : Nat := fieldN w 12 11 * 2048
/-- Bytes of a region's word (0 encodes 2,048 units). -/
def regionSize (w : W32) : Nat := zeroIs 2048 (fieldN w 0 12) * 2048

/-- The lowest-numbered enabled region that holds a byte (R246). -/
def regionAt (s : State) (off : Nat) : Option W32 :=
  ((natsTo 16).map (regionReg s)).find? fun w =>
    bitB w 31 && decide (regionBase w ≤ off) && decide (off < regionBase w + regionSize w)

/-- The error class of a byte's region: 1 DEC-TED, 0 SECDED (R246). -/
def classAt (s : State) (off : Nat) : Nat :=
  match regionAt s off with
  | some w => fieldN w 29 2
  | none => 0

/-- The region of transposed reads that governs a byte (R251). -/
def xposeAt (s : State) (off : Nat) : Option W32 :=
  (regionAt s off).filter fun w => bitB w 28

/-- The page pool's region (R260). -/
def poolRegion (s : State) : Option W32 :=
  ((natsTo 16).map (regionReg s)).find? fun w => bitB w 31 && bitB w 27

/-- The first byte of the cache area, or the end of the scratchpad (R265). -/
def cacheStart (s : State) : Nat :=
  if hasCache s then spadBytes s - (regF s 0x6044 0 3) * 262144 else spadBytes s

/-- Whether `n` bytes from `off` lie in the scratchpad and outside the cache area (R267). -/
def spadFits (s : State) (off n : Nat) : Bool := decide (off + n ≤ cacheStart s)

-- Error codes (R247 to R249, R418, R457).

/-- Ones of a word. -/
def popcount {n : Nat} (w : BitVec n) : Nat := (natsTo n).foldl (fun a i => a + b2n (w.getLsbD i)) 0

/-- What a code does with a word of `e` wrong bits: 0 clean, 1 corrected, 2 uncorrectable, 3 outside the guarantee. -/
def eccKind (cls e : Nat) : Nat :=
  if e = 0 then 0
  else if e ≤ cls + 1 then 1
  else if e = cls + 2 then 2
  else 3

/-- The side-band word of a sector. -/
def sideOf (s : State) (sec : Nat) : Side := mget s.spad.side {} sec
/-- Write the side-band word of a sector. -/
def setSide (s : State) (sec : Nat) (v : Side) : State :=
  { s with spad := { s.spad with side := mset s.spad.side {} sec v } }

/-- An uncorrectable word poisons its sector; unless the mark was already set it is counted, logged and raised (R249).
`slotted` tells a slot-timed reader. -/
def poisonSector (s : State) (sec cls : Nat) (slotted : Bool) : State :=
  let sd := sideOf s sec
  if sd.poison then s
  else
    let s := setSide s sec { sd with poison := true }
    let s := incReg s 0x6054 0 32
    let s := if bitB (reg s 0x6058) 31 then s
      else setReg s 0x6058 (BitVec.ofNat 32
        (2147483648 + (cls % 2) * 1073741824 + b2n slotted * 536870912 + sec * 32))
    raise s 0x20 0

/-- Counts a correction by class (R248). -/
def countCorr (s : State) (cls : Nat) : State :=
  if cls = 1 then incReg s 0x6050 16 16 else incReg s 0x6050 0 16

/-- A freeze of cause ECC after the present slot; freezes after one slot overlap (R214, R215). -/
def eccFreeze (s : State) (n : Nat) : State :=
  { s with seq := { s.seq with frzNext := { s.seq.frzNext with ecc := max s.seq.frzNext.ecc n } } }

/-- The stored wrong bits of a 64-bit word. -/
def flipsOf (s : State) (wd : Nat) : W64 := mget s.spad.flips 0 wd
/-- Record the stored wrong bits of a 64-bit word. -/
def setFlips (s : State) (wd : Nat) (f : W64) : State :=
  { s with spad := { s.spad with flips := mset s.spad.flips 0 wd f } }
/-- The class a 64-bit word was written under (R247). -/
def wordClass (s : State) (wd : Nat) : Nat := mget s.spad.cls 0 wd

/-- Exchange the stored contents of a 64-bit word by turning the bits `f`. -/
def turnWord (s : State) (wd : Nat) (f : W64) : State :=
  foldTo 8 (fun i s => setSpadByte s (8 * wd + i)
    (spadByte s (8 * wd + i) ^^^ BitVec.ofNat 8 (f.toNat >>> (8 * i)))) s

/-- The bank of a 64-byte line (R241). -/
def bankOf (line : Nat) : Nat := line % 32

/-- A DMA access to a line asks for its bank (R245). -/
def touchLine (s : State) (line : Nat) : State :=
  { s with spad := { s.spad with arb := { s.spad.arb with dma := mupd s.spad.arb.dma 0 (bankOf line) (· + 1) } } }

/-- A DMA access to a sector asks for its bank: one access for the two sectors of a 64 B line (R242, R245). -/
def touchDma (s : State) (sec : Nat) : State :=
  let a := s.spad.arb
  let a := if sec % 2 = 1 && a.last = sec then { a with last := 0 }
    else { a with dma := mupd a.dma 0 (bankOf (sec / 2)) (· + 1), last := if sec % 2 = 0 then sec + 1 else 0 }
  { s with spad := { s.spad with arb := a } }

/-- A correction of a word of sector `sec` under class `cls`: counted, written back at DMA priority, and for a slot-timed reader a freeze
(R214, R248). -/
def corrected (s : State) (sec cls : Nat) (slotted : Bool) : State :=
  let s := touchLine (countCorr s cls) (sec / 2)
  if slotted then eccFreeze s (if cls = 1 then 4 else 2) else s

/-- One 64-bit word decoded by a read: corrected words are written back and counted, an uncorrectable one poisons its
sector, one outside the guarantee does any of the three (R248, R249, R457). -/
def decodeWord (s : State) (wd : Nat) (slotted : Bool) : State :=
  let f := flipsOf s wd
  if f = 0 then s
  else
    let cls := wordClass s wd
    match eccKind cls (popcount f) with
    | 0 => s
    | 1 => corrected (setFlips s wd 0) (wd / 4) cls slotted
    | 2 => poisonSector s (wd / 4) cls slotted
    | _ =>
      let u := useFree s
      match Config.freeEcc u.1 % 3 with
      | 0 => u.2
      | 1 => corrected (turnWord (setFlips u.2 wd 0) wd (f ^^^ Config.freeFlip u.1)) (wd / 4) cls slotted
      | _ => poisonSector u.2 (wd / 4) cls slotted

/-- A side-band word with the bits `f` turned: 15 to 0 the check, 16 the poison mark, 17 UNINIT (R418). -/
def turnSide (sd : Side) (f : W64) : Side :=
  { sd with check := sd.check ^^^ fieldN f 0 16, poison := sd.poison != bitB f 16, uninit := sd.uninit != bitB f 17 }

/-- What a side-band word delivers: its stored bits, with the mark set where they are uncorrectable (R249). -/
def sideStored (sd : Side) : Side :=
  let x := turnSide sd sd.flips
  if eccKind 0 (popcount sd.flips) = 2 then { x with poison := true } else x

/-- A side-band word decoded by a read (R418). -/
def decodeSide (s : State) (sec : Nat) (slotted : Bool) : State :=
  let sd := sideOf s sec
  match eccKind 0 (popcount sd.flips) with
  | 0 => s
  | 1 => corrected (setSide s sec { sd with flips := 0 }) sec 0 slotted
  | 2 => poisonSector s sec 0 slotted
  | _ =>
    let u := useFree s
    match Config.freeEcc u.1 % 3 with
    | 0 => u.2
    | 1 => corrected (setSide u.2 sec { turnSide sd (sd.flips ^^^ Config.freeFlip u.1) with flips := 0 }) sec 0 slotted
    | _ => poisonSector u.2 sec 0 slotted

/-- The stored bits of a sector: its bytes with their wrong bits turned. -/
def sectorStored (s : State) (sec : Nat) : BitVec 256 :=
  let d := ofBytesLE ((natsTo 32).map fun i => spadByte s (32 * sec + i))
  let f := (natsTo 4).foldl (fun a i => a + (flipsOf s (4 * sec + i)).toNat <<< (64 * i)) 0
  BitVec.ofNat 256 (d ^^^ f)

/-- What a read of a sector delivers: data, check, poison and UNINIT (R418). -/
structure SecRead where
  data : BitVec 256 := 0
  check : Nat := 0
  poison : Bool := false
  uninit : Bool := false
  deriving DecidableEq, Repr

/-- The side-band word and the four words of a sector decoded by a read (R248, R249). -/
def decodeSector (s : State) (sec : Nat) (slotted : Bool) : State :=
  foldTo 4 (fun i s => decodeWord s (4 * sec + i) slotted) (decodeSide s sec slotted)

/-- A sector read by one requester: decoding of its side-band word and its four words, then delivery (R248, R249). A
sector of the cache area or past the scratchpad is delivered poisoned and raises SPAD_RANGE (R267). -/
def readSector (s : State) (sec : Nat) (slotted : Bool) : SecRead × State :=
  if spadFits s (32 * sec) 32 then
    let s := decodeSector s sec slotted
    let sd := sideStored (sideOf s sec)
    ({ data := sectorStored s sec, check := sd.check, poison := sd.poison, uninit := sd.uninit }, s)
  else ({ poison := true }, raise s 0x22 0)

/-- Whether a sector passes the verifying point of R419: neither poisoned, UNINIT, nor with a CRC that differs. -/
def secGood (r : SecRead) : Bool := !r.poison && !r.uninit && sectorCheck r.data == r.check

/-- A transpose buffer that holds the block of a written byte is invalidated (R253). -/
def xInvalidate (b : XBuf) (off : Nat) : XBuf :=
  if b.valid && decide (b.blk ≤ off) && decide (off < b.blk + 16384) then { b with valid := false } else b

/-- The 32 bytes of a sector written. -/
def putBytes (s : State) (sec : Nat) (data : BitVec 256) : State :=
  foldTo 32 (fun i s => setSpadByte s (32 * sec + i) (BitVec.ofNat 8 (data.toNat >>> (8 * i)))) s

/-- Word `wd` takes its region's error class, and its stored bits are sound (R247). -/
def putClass (s : State) (wd : Nat) : State :=
  { s with spad := { s.spad with flips := mset s.spad.flips 0 wd 0, cls := mset s.spad.cls 0 wd (classAt s (8 * wd)) } }

/-- The four words of a sector take their region's error class (R247). -/
def putClasses (s : State) (sec : Nat) : State := foldTo 4 (fun i s => putClass s (4 * sec + i)) s

/-- The transpose buffers that hold a written sector's block are invalidated (R253). -/
def putDone (s : State) (sec : Nat) : State :=
  { s with spad := { s.spad with
      xFeed := xInvalidate s.spad.xFeed (32 * sec)
      xDerr := xInvalidate s.spad.xDerr (32 * sec) } }

/-- A whole sector written with its check and poison mark: the words take their region's class, the UNINIT mark goes
(R247, R418). A write to the cache area or past the scratchpad is dropped and raises SPAD_RANGE (R267). -/
def writeSector (s : State) (sec : Nat) (data : BitVec 256) (check : Nat) (poison : Bool) : State :=
  if spadFits s (32 * sec) 32 then
    putDone (setSide (putClasses (putBytes s sec data) sec) sec { check := check, poison := poison, uninit := false }) sec
  else raise s 0x22 0

/-- A whole sector written with a fresh check (R417). -/
def writeFresh (s : State) (sec : Nat) (data : BitVec 256) : State :=
  writeSector s sec data (sectorCheck data) false

/-- Consecutive sectors written with fresh checks from a list of bytes; the last sector is filled out with zeros. -/
def writeFreshBytes (s : State) (sec : Nat) : Nat → List Byte → State
  | 0, _ => s
  | n + 1, bs => writeFreshBytes (writeFresh s sec (BitVec.ofNat 256 (ofBytesLE (bs.take 32)))) (sec + 1) n (bs.drop 32)

-- Bank arbitration (R243 to R245).

/-- A slot-timed read touches a line: counted once in a pair (R243). -/
def touchRead (s : State) (line : Nat) : State :=
  if s.spad.arb.lines.contains line then s
  else { s with spad := { s.spad with arb := { s.spad.arb with
    lines := line :: s.spad.arb.lines
    acc := mupd s.spad.arb.acc 0 (bankOf line) (· + 1) } } }

/-- A slot-timed write touches a line (R243). -/
def touchWrite (s : State) (line : Nat) : State :=
  { s with spad := { s.spad with arb := { s.spad.arb with acc := mupd s.spad.arb.acc 0 (bankOf line) (· + 1) } } }

/-- A DMA read of a sector (R245, R248). -/
def dmaRead (s : State) (sec : Nat) : SecRead × State := readSector (touchDma s sec) sec false

/-- A DMA write of a whole sector. -/
def dmaWrite (s : State) (sec : Nat) (data : BitVec 256) (check : Nat) (poison : Bool) : State :=
  writeSector (touchDma s sec) sec data check poison

/-- A DMA write with a fresh check (R417). -/
def dmaFresh (s : State) (sec : Nat) (data : BitVec 256) : State := dmaWrite s sec data (sectorCheck data) false

/-- DMA writes of consecutive sectors with fresh checks from a list of bytes. -/
def dmaFreshBytes (s : State) (sec : Nat) : Nat → List Byte → State
  | 0, _ => s
  | n + 1, bs => dmaFreshBytes (dmaFresh s sec (BitVec.ofNat 256 (ofBytesLE (bs.take 32)))) (sec + 1) n (bs.drop 32)

/-- Whether write x of the pair is made before w: it falls in an earlier slot, or in the same slot with a record that started later, or
earlier in the same record (R220, R244). -/
def wrFirst (x w : SlotWrite) : Bool :=
  decide (x.slot < w.slot) || (x.slot == w.slot &&
    (decide (w.uid < x.uid) || (x.uid == w.uid && decide (w.pos ≤ x.pos))))

/-- A write put among the pair's, so that the one made last is the one that stands (R244). -/
def wrInsert (l : List SlotWrite) (w : SlotWrite) : List SlotWrite :=
  match l with
  | [] => [w]
  | x :: r => if wrFirst x w then x :: wrInsert r w else w :: x :: r

/-- A slot-timed write of a sector by a record, in place when the pair ends (R243, R244); its line is touched by the caller. -/
def slotWrite (s : State) (uid pos sec : Nat) (data : BitVec 256) : State :=
  { s with spad := { s.spad with arb := { s.spad.arb with
      wr := wrInsert s.spad.arb.wr ⟨s.clk.slot, uid, pos, sec, data, sectorCheck data, false⟩ } } }

/-- Slot-timed writes by a record of the sectors that a row's bytes touch, from sector `sec`: one access per distinct line (R242,
R243). -/
def slotWriteBytes (s : State) (uid pos sec n : Nat) (bs : List Byte) : State :=
  let s := eachS (natsFrom (sec / 2) ((sec + n - 1) / 2 + 1 - sec / 2)) (fun l s => touchWrite s l) s
  foldTo n (fun i s => slotWrite s uid pos (sec + i) (BitVec.ofNat 256 (ofBytesLE ((bs.drop (32 * i)).take 32)))) s

/-- The end of a slot pair (R242 to R245): the writes take their places, the freeze of cause BANK follows from the
fullest bank, and each bank serves one waiting DMA request or its requests lose the pair. -/
def pairEnd (s : State) : State :=
  let a := s.spad.arb
  let k := a.acc.foldl (fun m e => max m e.2) 0
  let s := eachS a.wr (fun w s => writeSector s w.sec w.data w.check w.poison) s
  let busy (e : Nat × Nat) : Bool := decide (mget a.acc 0 e.1 > 0)
  let wait := (a.dma.map fun e => if busy e then e else (e.1, e.2 - 1)).filter (·.2 != 0)
  let lost := a.dma.filter fun e => busy e && !a.won.contains e.1
  let starve := lost.map fun e => (e.1, satAdd 64 (mget a.starve 0 e.1) 1)
  { s with
    spad := { s.spad with arb := { dma := wait, starve := starve } }
    seq := { s.seq with frzNext := { s.seq.frzNext with
      bank := max s.seq.frzNext.bank (if 2 ≤ k then 2 * (k - 1) else 0) } } }

/-- A slot-timed read of one sector. -/
def slotRead (s : State) (sec : Nat) : SecRead × State :=
  if spadFits s (32 * sec) 32 then readSector (touchRead s (sec / 2)) sec true else readSector s sec true

-- Transposed reads (R251, R252).

/-- One sector of a block loaded into a transpose buffer, its check verified; a failed sector's elements are marked and
the failure raised (R252, R420). -/
def xLoadSector (k : Nat) (bs : XBuf × State) : XBuf × State :=
  let r := readSector bs.2 (bs.1.blk / 32 + k) true
  let b := bs.1
  let data := msetFrom b.data 0 (32 * k) ((sectorBytes r.1.data).map BitVec.toNat)
  if secGood r.1 then ({ b with data := data }, r.2)
  else ({ b with data := data, bad := b.bad ++ [k] }, checkFail r.2 r.1.poison r.1.uninit 3)

/-- A block loaded into a transpose buffer, with its 16 cycles of BANK freeze (R252). -/
def xLoad (s : State) (blk : Nat) : XBuf × State :=
  let r := foldTo 512 xLoadSector ({ valid := true, blk := blk }, s)
  let s := incReg r.2 0x6060 0 32
  (r.1, { s with seq := { s.seq with frzNext := { s.seq.frzNext with bank := max 16 s.seq.frzNext.bank } } })

/-- Whether the load of a block would begin now: the buffer does not hold it. -/
def xMissing (b : XBuf) (blk : Nat) : Bool := !(b.valid && b.blk == blk)

/-- The 128 elements of column `a` of a transposed region read through a buffer, the feeder's or the derrick's, with
whether each is poisoned (R251, R252). -/
def xposeRead (s : State) (w : W32) (a : Nat) (derrick : Bool) : List (Nat × Bool) × State :=
  let u := (a - regionBase w) / 32
  let blk := regionBase w + 16384 * (u / 128)
  let col := u % 128
  let b0 := if derrick then s.spad.xDerr else s.spad.xFeed
  let r := if xMissing b0 blk then xLoad s blk else (b0, s)
  let s := if derrick then { r.2 with spad := { r.2.spad with xDerr := r.1 } }
    else { r.2 with spad := { r.2.spad with xFeed := r.1 } }
  ((natsTo 128).map fun i => (mget r.1.data 0 (128 * i + col), r.1.bad.contains ((128 * i + col) / 32)), s)

end Sys2Proof.Machine
end

