-- ==== Sys2Proof/Machine/FabOps.lean ====
section
/-! DEFINITION. Packets of the fabric, the routes a packet is sent on, requests and their local answers, and the
completion of commands (12_urden_fabric.md, R308 to R319; 18_ports_commands_registers.md, R446 to R452). -/
namespace Sys2Proof.Machine

/-- The fields of a head flit (R314). -/
structure Head where
  dst : Nat := 0
  src : Nat := 0
  ty : Nat := 0
  tag : Nat := 0
  pwin : Nat := 0
  gen : Nat := 0
  off : Nat := 0
  count : Nat := 0
  step : Nat := 0
  status : Nat := 0
  ep : Nat := 0
  payload : BitVec 128 := 0
  deriving DecidableEq, Repr

/-- The fields of a head's data bits (R314). -/
def headOf (d : BitVec 256) : Head :=
  { dst := fieldN d 0 8, src := fieldN d 8 8, ty := fieldN d 16 4, tag := fieldN d 20 8, pwin := fieldN d 28 4
    gen := fieldN d 32 8, off := fieldN d 40 17, count := fieldN d 57 6, step := fieldN d 63 3
    status := fieldN d 66 4, ep := fieldN d 70 4, payload := BitVec.ofNat 128 (fieldN d 128 128) }

/-- The data bits of a head (R314). -/
def headBits (h : Head) : BitVec 256 :=
  BitVec.ofNat 256 (h.dst % 256 + (h.src % 256) <<< 8 + (h.ty % 16) <<< 16 + (h.tag % 256) <<< 20
    + (h.pwin % 16) <<< 28 + (h.gen % 256) <<< 32 + (h.off % 131072) <<< 40 + (h.count % 64) <<< 57
    + (h.step % 8) <<< 63 + (h.status % 16) <<< 66 + (h.ep % 16) <<< 70 + h.payload.toNat <<< 128)

/-- The virtual channel of a packet type (R311); none for a reserved type. -/
def typeVc (ty : Nat) : Option Nat := if ty < 3 then some 0 else if ty < 6 then some 1 else none

/-- A packet of the tile: its head with the CRC of R309, and its sectors with their checks and poison marks. -/
def packetOf (h : Head) (body : List Sector) : Packet :=
  let d := headBits h
  let vc := (typeVc h.ty).getD 0
  let n := body.length
  { head := d
    side := BitVec.ofNat 32 (vc <<< 30 + 1 <<< 27 + (if n = 0 then 1 <<< 26 else 0) + sectorCheck d)
    body := (natsTo n).map fun i =>
      let x := lget body {} i
      { data := x.data
        side := BitVec.ofNat 32 (vc <<< 30 + (if i + 1 = n then 1 <<< 26 else 0) + b2n x.poison <<< 25
          + x.check % 65536) } }

/-- The sectors a packet carries. -/
def packetSectors (p : Packet) : List Sector :=
  p.body.map fun f => { data := f.data, check := fieldN f.side 0 16, poison := bitB f.side 25 }

/-- The flits of a packet. -/
def packetFlits (p : Packet) : List Flit := { data := p.head, side := p.side } :: p.body

/-- Sectors of a packet's COUNT field (0 encodes 64). -/
def countOf (h : Head) : Nat := zeroIs 64 h.count

/-- The tile's ID (R321, R324). -/
def tileId (s : State) : Nat := s.fab.id

/-- The route entry for a tile: a port, 6 the tile itself, 7 unreachable (R325). -/
def routeFor (s : State) (d : Nat) : Nat := mget s.fab.route 7 d

/-- Port n. -/
def portOf (s : State) (n : Nat) : LinkPort := lget s.fab.ports { st := 0 } n
/-- Port n changed by `f`. -/
def updPort (s : State) (n : Nat) (f : LinkPort → LinkPort) : State :=
  { s with fab := { s.fab with ports := lupd s.fab.ports n f } }

/-- The UP ports of the trunk of port `p`, rising: the UP ports to the same neighbour (R316). -/
def trunkPorts (s : State) (p : Nat) : List Nat :=
  (natsTo 6).filter fun n => (portOf s n).st == 3 && (portOf s n).peerId == (portOf s p).peerId

/-- `k` credits of channel vc owed to the far end of port n; the tile itself, 6, is owed none (R312). -/
def oweCredit (s : State) (n vc k : Nat) : State :=
  if n < 6 then updPort s n fun p => { p with owed := lupd p.owed vc fun x => min 32 (x + k) } else s

/-- Flits queued to leave a port on a channel, still in the buffer of port `src` until they do. -/
def pushFlits (s : State) (n vc src : Nat) (fs : List Flit) : State :=
  let l := fs.map fun f => (src, f)
  updPort s n fun p =>
    match vc with
    | 0 => { p with outVc0 := p.outVc0 ++ l }
    | 1 => { p with outVc1 := p.outVc1 ++ l }
    | _ => { p with outVc2 := p.outVc2 ++ l }

/-- A control message queued on a port (R313). -/
def pushCtl (s : State) (n : Nat) (m : CMsg) : State := updPort s n fun p => { p with ctl := p.ctl ++ [m] }

/-- The port a packet leaves on at a later hop: the trunk's ports in round robin (R316). -/
def pickPort (s : State) (p : Nat) : Nat × State :=
  let l := trunkPorts s p
  let k := lget l p 0
  let i := mget s.fab.rr 0 k
  (lget l p (i % l.length), { s with fab := { s.fab with rr := mset s.fab.rr 0 k ((i + 1) % 60) } })

/-- A packet from the buffer of port `src` (6: the tile's own) sent on: toward its destination by the route table, to the tile itself, or
nowhere if the entry names no UP port. -/
def forward (s : State) (src : Nat) (pk : Packet) : State :=
  let h := headOf pk.head
  let vc := (typeVc h.ty).getD 0
  let e := routeFor s h.dst
  if e = 6 then oweCredit { s with fab := { s.fab with selfIn := s.fab.selfIn ++ [pk] } } src vc (1 + pk.body.length)
  else if (portOf s e).st = 3 then
    let r := pickPort s e
    pushFlits r.2 r.1 vc src (packetFlits pk)
  else oweCredit s src vc (1 + pk.body.length)

/-- A response sent to the tile that asked (R311, R314). -/
def respond (s : State) (h : Head) (body : List Sector) : State := forward s 6 (packetOf { h with src := tileId s } body)

-- Completion of commands (R448, R452).

/-- The mailbox of an origin: 0 HCP, 1 SCP, 2 debug. -/
def mboxOf (o : Origin) : Option Nat :=
  match o with
  | .hcp => some 0
  | .scp => some 1
  | .dbg => some 2
  | .peer => none
  | .image => none

/-- Whether an opcode is assigned (R450). -/
def opKnown (op : Nat) : Bool :=
  decide (op ≤ 4) || (decide (0x10 ≤ op) && decide (op ≤ 0x15)) || (decide (0x20 ≤ op) && decide (op ≤ 0x24))
    || op == 0x30 || op == 0x31 || (decide (0x40 ≤ op) && decide (op ≤ 0x42)) || (decide (0x50 ≤ op) && decide (op ≤ 0x52))
    || op == 0x60 || op == 0x70 || op == 0x71

/-- Offset of a mailbox's registers (R454). -/
def mboxBase (m : Nat) : Nat := 0x100 + 0x20 * m

/-- Completion of a mailbox's command: BUSY 0, DONE 1, STATUS and RESULT (R448). -/
def mboxDone (s : State) (m status result : Nat) : State :=
  let w0 := reg s (mboxBase m)
  let v : Nat := 1073741824 + (fieldN w0 24 8) * 65536 + (fieldN w0 16 8) * 256 + status % 256
  let s := setReg (setReg s (mboxBase m + 0x14) (BitVec.ofNat 32 v)) (mboxBase m + 0x18) (BitVec.ofNat 32 result)
  { s with mb := { s.mb with st := lupd s.mb.st m fun _ => 0 } }

/-- The CMD_DONE of a peer's command (R452). -/
def cmdDoneHead (src tag status result : Nat) : Head :=
  { dst := src, ty := 5, tag := tag
    status := if status = 5 then 5 else if status = 3 then 6 else 0
    payload := BitVec.ofNat 128 (status % 256 + result % 4294967296 * 4294967296) }

/-- A command completes with a status and a result for whoever waits (R448, R452). A broadcast is answered by no
CMD_DONE; a command of the image is judged by start-up. -/
def complete (s : State) (c : Cli) (status result : Nat) : State :=
  match mboxOf c.o with
  | some m => mboxDone s m status result
  | none =>
    match c.o with
    | .peer =>
      let s := { s with mb := { s.mb with peerBusy := false } }
      if c.bcast then s else respond s (cmdDoneHead c.src c.tag status result) []
    | _ => if status = 0 then s else { s with boot := { s.boot with refused := true } }

/-- The completion of whoever waits, if anyone does. -/
def completeOpt (s : State) (c : Option Cli) (status : Nat) : State :=
  match c with
  | some c => complete s c status 0
  | none => s

-- Acceptance (R445 to R447).

/-- The words in a mailbox. -/
def mboxWords (s : State) (m : Nat) : CmdWords :=
  let b := mboxBase m
  ⟨reg s b, reg s (b + 4), reg s (b + 8), reg s (b + 12)⟩

/-- Whether mailbox m holds an issued command that is to be performed here or, in the SCP mailbox, sent. -/
def mboxIssued (s : State) (m : Nat) : Bool := lget s.mb.st 0 m == 1

/-- Whether mailbox m's command goes to another tile (R451). -/
def mboxRemote (s : State) (m : Nat) : Bool := bitB (reg s (mboxBase m + 0x1C)) 31

/-- Whether the tile accepts commands: ACTIVE, with no level reset in force (R390, R435). -/
def accepts (s : State) : Bool := s.clk.st == 0 && !accessHeld s

/-- Whether mailbox m's command may be accepted in the present PCLK cycle: its GO was performed in an earlier one (R447). -/
def mboxDue (s : State) (m : Nat) : Bool := mboxIssued s m && decide (lget s.mb.goT 0 m ≤ pclkOf s)

/-- Mailbox m's command taken, the only one of its PCLK cycle (R447). -/
def mboxTake (s : State) (m : Nat) : State :=
  { s with mb := { s.mb with st := lupd s.mb.st m fun _ => 2, nextT := pclkOf s + 1 } }

/-- The command at the head of the order of R447 that no row brings, if it may be accepted in the present PCLK cycle: one of a reserved
opcode, which completes with BAD_ARG, or a GO with REMOTE = 1 in mailbox 0 or 2, which completes with PORT_DENIED (R451); until start-up
has ended either completes with BUSY (R447, log 21). -/
def mboxTick (s : State) : State :=
  let early := decide (s.boot.st < 6)
  if !accepts s || decide (pclkOf s < s.mb.nextT) then s
  else
    match [1, 2, 0].find? (mboxDue s) with
    | some m =>
      if mboxRemote s m then
        if m = 1 then s
        else if early then mboxDone (mboxTake s m) m 1 0
        else mboxDone (mboxTake (raise s 0x6B m) m) m 5 0
      else if opKnown (fieldN (mboxWords s m).w0 24 8) then s
      else mboxDone (mboxTake s m) m (if early then 1 else 2) 0
    | none =>
      match s.mb.peerQ with
      | p :: q =>
        if s.mb.peerBusy || opKnown (fieldN p.w.w0 24 8) then s
        else
          complete { s with mb := { s.mb with peerQ := q, nextT := pclkOf s + 1 } }
            { o := .peer, src := p.src, tag := p.tag, bcast := p.bcast } (if early then 1 else 2) 0
      | [] => s

-- Requests (R315 to R318).

/-- The lowest free TAG of 0 to 63. -/
def freeTag (s : State) : Option Nat := (natsTo 64).find? fun t => !(mget s.fab.reqs {} t).act

/-- The read `rd` changed by `f`. -/
def updRead (s : State) (rd : Nat) (f : RRead → RRead) : State :=
  { s with fab := { s.fab with reads := mupd s.fab.reads {} rd f } }

/-- A part of a read ends: one response fewer is due; a failed one leaves poisoned sectors (R271, R317). -/
def readPart (s : State) (rd : Nat) (failed : Bool) : State :=
  updRead s rd fun r => { r with left := r.left - 1, failed := r.failed || failed }

/-- A request is answered with a failing status: WINDOW_CLOSED and WINDOW_RANGE wait for their processing (R271);
UNREACHABLE and LINK_DOWN raise FAB_UNREACHABLE and fail the read, discard the write, or complete the command
(R317, R318, R451). -/
def answerFail (s : State) (r : FReq) (status : Nat) : State :=
  if status = 1 || status = 2 then
    { s with fab := { s.fab with wfails := s.fab.wfails ++ [(r.win, status, if r.isRead then r.rd else 0)] } }
  else
    let s := raise s 0x44 r.dst
    if r.isCmd then completeOpt s r.cli (if status = 3 then 12 else 13)
    else if r.isRead then readPart s r.rd true
    else s

/-- A request sent on one port under a TAG. -/
def sendTagged (s : State) (tag port : Nat) (r : FReq) (h : Head) (body : List Sector) : State :=
  let s := { s with fab := { s.fab with
    reqs := mset s.fab.reqs {} tag { r with act := true, t0 := mclkOf s } } }
  let pk := packetOf { h with tag := tag, src := tileId s } body
  if port = 6 then { s with fab := { s.fab with selfIn := s.fab.selfIn ++ [pk] } }
  else pushFlits s port 0 6 (packetFlits pk)

/-- One request packet: refused locally (R317), made to wait for READY or a TAG (R315, R326), or sent on port `port` of
the first hop; one that a RESURVEY has taken out of the first hop's trunk meanwhile gives way to the port that the route names (log 134). A tile whose ID is a duplicate sends nothing, as though the link were down (R324, log 14). -/
def sendReqOn (s : State) (port : Option Nat) (r : FReq) (h : Head) (body : List Sector) : State :=
  let wait : State := { s with fab := { s.fab with waitq := s.fab.waitq ++ [⟨port, r, headBits h, body⟩] } }
  if s.fab.st = 4 then
    let e := routeFor s h.dst
    if e = 7 then answerFail s r 3
    else if s.fab.dup || (e != 6 && (portOf s e).st != 3) then answerFail s r 4
    else
      match freeTag s with
      | some t => sendTagged s t (if e = 6 then 6 else (port.filter (trunkPorts s e).contains).getD e) r h body
      | none => wait
  else if s.fab.st = 5 then answerFail s r 3
  else wait

/-- The elements j, j + k, j + 2k … of a list (R316). -/
def everyKth {α : Type} (l : List α) (k j : Nat) : List α :=
  (natsTo l.length).filterMap fun i => if i % k = j then l[i]? else none

/-- A request sent, a window transfer of `n` sectors split over the k ports of the first hop's trunk once the survey has found it (R316): with
STEP = k, in as many packets as have a sector to carry (log 134). -/
def sendSplit (s : State) (r : FReq) (h : Head) (n : Nat) (body : List Sector) : State :=
  let e := routeFor s h.dst
  let ports := if s.fab.st = 4 && !r.isCmd && e < 6 && (portOf s e).st = 3 then (trunkPorts s e).map some else [none]
  let k := ports.length
  let packets := min k n
  let s := if r.isRead then updRead s r.rd fun x => { x with left := x.left + packets - 1 } else s
  foldTo packets (fun j s =>
    sendReqOn s (lget ports none j) { r with off := r.off + j, step := k }
      { h with off := h.off + j, count := (n - j + k - 1) / k % 64, step := if r.isCmd then h.step else k } (everyKth body k j)) s

/-- The requests that waited, tried again in order; one that waited for READY is split now. -/
def flushWait (s : State) : State :=
  let l := s.fab.waitq
  eachS l (fun w s =>
    let h := headOf w.head
    match w.port with
    | some p => sendReqOn s (some p) w.req h w.body
    | none => if w.req.isCmd then sendReqOn s none w.req h w.body else sendSplit s w.req h (countOf h) w.body)
    { s with fab := { s.fab with waitq := [] } }

/-- The TAG of a request freed, and the requests that waited for one sent. -/
def freeReq (s : State) (tag : Nat) : State :=
  flushWait { s with fab := { s.fab with reqs := mset s.fab.reqs {} tag {} } }

/-- A window transfer of `n` sectors at offset `off` of import `win` (R269, R316): a read for `rd`, or a write of `body` with epoch `ep`. -/
def sendWindow (s : State) (win off n ep rd : Nat) (isRead : Bool) (body : List Sector) : State :=
  let w := mget s.wins {} win
  let s := if isRead then updRead s rd fun r => { r with act := true, left := r.left + 1 } else s
  sendSplit s { isRead := isRead, win := win, off := off, step := 1, rd := rd, dst := w.peer }
    { dst := w.peer, ty := if isRead then 0 else 1, pwin := w.pwin, gen := w.gen, off := off, count := n % 64
      step := 1, ep := if isRead then 0 else ep } n body

/-- Import `win` accepts an access of `n` sectors at `off` (R269); otherwise the status it answers. -/
def windowGate (s : State) (win off n : Nat) (isRead : Bool) : Option Nat :=
  let w := mget s.wins {} win
  if w.mode ≠ 2 || w.stale then some 1
  else if off + n ≤ 64 * w.size && (if isRead then w.rd else w.wr) then none
  else some 2

end Sys2Proof.Machine
end

