-- ==== Sys2Proof/Machine/Rings.lean ====
section
/-! DEFINITION. Rings and the page pool: where a row lies, when a half may be begun, its stamping, the release of rows and
the pages (10_scratchpad_and_windows.md, R254 to R261). -/
namespace Sys2Proof.Machine

/-- 2^32: the counters of rings are taken modulo it. -/
def m32 : Nat := 4294967296
/-- a − b modulo 2^32. -/
def sub32 (a b : Nat) : Nat := (a % m32 + m32 - b % m32) % m32
/-- a + b modulo 2^32. -/
def add32 (a b : Nat) : Nat := (a + b) % m32

/-- Ring n. -/
def ringOf (s : State) (n : Nat) : Ring := mget s.rings {} n
/-- Ring n replaced. -/
def setRing (s : State) (n : Nat) (r : Ring) : State := { s with rings := mset s.rings {} n r }

/-- Rows of a half. -/
def halfRows (r : Ring) : Nat := r.nrows / 2
/-- Bytes of a row. -/
def rowBytes (r : Ring) : Nat := 32 * r.rsize
/-- Rows of a page (R255). -/
def rowsPerPage (r : Ring) : Nat := 2048 / rowBytes r
/-- Pages of a half (R260). -/
def pagesPerHalf (r : Ring) : Nat := (halfRows r + rowsPerPage r - 1) / rowsPerPage r
/-- The half of row q (R255). -/
def halfOf (r : Ring) (q : Nat) : Nat := (q % r.nrows) / halfRows r
/-- Rows produced and not released. -/
def ringHeld (r : Ring) : Nat := sub32 r.prod r.rel

/-- The pages a half holds. -/
def halfPages (r : Ring) (h : Nat) : List Nat := if h = 0 then r.pg0 else r.pg1
/-- The pages of a half replaced. -/
def setHalfPages (r : Ring) (h : Nat) (l : List Nat) : Ring := if h = 0 then { r with pg0 := l } else { r with pg1 := l }
/-- The tag of a half. -/
def halfTag (r : Ring) (h : Nat) : Nat := if h = 0 then r.ep0 else r.ep1
/-- A half stamped with its tag (R284). -/
def stampHalf (r : Ring) (h tag : Nat) : Ring :=
  if h = 0 then { r with ep0 := tag % 16 } else { r with ep1 := tag % 16 }

/-- Pages of the pool (R260). -/
def poolPages (s : State) : Nat :=
  match poolRegion s with
  | some w => regionSize w / 2048
  | none => 0

/-- The pages every ring holds. -/
def pagesDrawn (s : State) : List Nat := s.rings.flatMap fun e => e.2.pg0 ++ e.2.pg1

/-- The free pages, lowest first. -/
def freePages (s : State) : List Nat :=
  let d := pagesDrawn s
  (natsTo (poolPages s)).filter fun p => !d.contains p

/-- Pages reserved by the enabled pooled rings (R302). -/
def pagesReserved (s : State) : Nat :=
  s.rings.foldl (fun a e => if e.2.en && e.2.pooled then a + 2 * pagesPerHalf e.2 else a) 0

/-- The byte offset of row q of ring n (R255). -/
def rowPlace (s : State) (n q : Nat) : Nat :=
  let r := ringOf s n
  if r.pooled then
    let j := q % halfRows r
    let pg := lget (halfPages r (halfOf r q)) 0 (j / rowsPerPage r)
    let b := match poolRegion s with | some w => regionBase w | none => 0
    b + 2048 * pg + rowBytes r * (j % rowsPerPage r)
  else (r.base + rowBytes r * (q % r.nrows)) % spadBytes s

/-- Whether every row of the previous lap of the next half to begin has been released (R257). -/
def spaceToBegin (r : Ring) : Bool := decide (sub32 r.beg r.rel ≤ r.nrows - halfRows r)

/-- Whether the producer may begin its next half: space, and free pages for a pooled ring (R257, R261). -/
def mayBegin (s : State) (n : Nat) : Bool :=
  let r := ringOf s n
  spaceToBegin r && (!r.pooled || decide (pagesPerHalf r ≤ (freePages s).length))

/-- The producer begins its next half and draws its pages, lowest-numbered free ones first (R260). -/
def beginHalf (s : State) (n : Nat) : State :=
  let r := ringOf s n
  let r' := { r with beg := add32 r.beg (halfRows r) }
  if r.pooled then setRing s n (setHalfPages r' (halfOf r r.beg) ((freePages s).take (pagesPerHalf r)))
  else setRing s n r'

/-- Whether row q lies in a half the producer has begun. -/
def rowBegun (r : Ring) (q : Nat) : Bool := decide (0 < sub32 r.beg q) && decide (sub32 r.beg q ≤ r.nrows)

/-- One row produced: PROD advances; the last row of a half stamps it with `tag` (R257, R284). Answers whether a half
became full. -/
def produceRow (s : State) (n tag : Nat) : Bool × State :=
  let r := ringOf s n
  let r' := { r with prod := add32 r.prod 1 }
  if (r.prod + 1) % halfRows r = 0 then (true, setRing s n (stampHalf r' (halfOf r r.prod) tag))
  else (false, setRing s n r')

/-- Whether a half of the ring is begun and not wholly released. -/
def halfHeld (r : Ring) (h : Nat) : Bool :=
  let first := sub32 r.rel (r.rel % halfRows r)
  let n := sub32 r.beg first / halfRows r
  decide (0 < n) && (halfOf r first == h || decide (1 < n))

/-- The pages of halves that hold no row returned to the pool (R260). -/
def trimPages (r : Ring) : Ring :=
  let r := if halfHeld r 0 then r else { r with pg0 := [] }
  if halfHeld r 1 then r else { r with pg1 := [] }

/-- Rows released: REL never passes PROD, and one that would raises RING_UNDERRUN (R258). -/
def releaseRows (s : State) (n k : Nat) : State :=
  let r := ringOf s n
  let k' := min k (ringHeld r)
  let s := setRing s n (trimPages { r with rel := add32 r.rel k' })
  if k' < k then raise s 0x23 n else s

/-- The rows of a step of seam `m` released by its commit of `k` steps: RELMODE 0 rings that name it (R258). -/
def releaseCommit (s : State) (m k : Nat) : State :=
  eachS (natsTo 64) (fun n s =>
    let r := ringOf s n
    if r.en && r.relmode == 0 && r.seam == m then releaseRows s n (r.rps * k) else s) s

/-- A half that has been begun and not completed is dropped: PROD returns to its first row and its pages to the pool
(R287, R272). -/
def dropPartial (s : State) (n : Nat) : State :=
  let r := ringOf s n
  let p := sub32 r.prod (r.prod % halfRows r)
  setRing s n (trimPages { r with prod := p, beg := p, landed := [] })

/-- What R256 finds for a slot-timed read of row q. -/
inductive RowState where
  | off
  | released
  | notYet
  | full (tag : Nat)
  deriving DecidableEq, Repr

/-- The state of row q of ring n for a slot-timed read, in the order of R256. -/
def rowState (s : State) (n q : Nat) : RowState :=
  let r := ringOf s n
  if !r.en then .off
  else
    let d := sub32 q r.rel
    if 2147483648 ≤ d then .released
    else if (ringHeld r : Int) < (d : Int) - (q % halfRows r : Nat) + halfRows r then .notYet
    else .full (halfTag r (halfOf r q))

/-- FULL of half h: complete and not released (RING_CFG). -/
def halfFull (r : Ring) (h : Nat) : Bool :=
  let j := r.prod % halfRows r
  let e := ringHeld r
  let cur := halfOf r r.prod
  r.en && (if h = cur then decide (e > j + halfRows r) else decide (e > j))

end Sys2Proof.Machine
end

