-- ==== Sys2Proof/Machine/Memp.lean ====
section
/-! DEFINITION. The memory port's requests and the read cache (11_streams_and_memory_port.md, R290 to R300;
10_scratchpad_and_windows.md, R265, R266). -/
namespace Sys2Proof.Machine

/-- 2^48: external addresses are taken modulo it (R276). -/
def m48 : Nat := 281474976710656

/-- The requests of `n` bytes at `a`: for each 256-byte block they touch, the first line's address and the lines (R290).
`fuel` bounds the blocks. -/
def splitReqs (fuel a n : Nat) : List (Nat × Nat) :=
  match fuel with
  | 0 => []
  | f + 1 =>
    if n = 0 then []
    else
      let e := min (a + n) ((a / 256 + 1) * 256)
      ((a / 64) * 64 % m48, (e + 63) / 64 - a / 64) :: splitReqs f e (a + n - e)

/-- The requests of a row or a kibble (R290). -/
def reqsOf (a n : Nat) : List (Nat × Nat) := splitReqs (n / 256 + 2) a n

/-- Outstanding requests that satisfy `p`. -/
def countOut (s : State) (p : MReq → Bool) : Nat := (s.memp.out.filter fun e => p e.2).length
/-- Reads outstanding. -/
def readsOut (s : State) : Nat := countOut s fun r => !r.write
/-- Writes outstanding. -/
def writesOut (s : State) : Nat := countOut s fun r => r.write

/-- Whether the port is below the outstanding limit of a kind (R291). -/
def portRoom (s : State) (write : Bool) : Bool :=
  if write then decide (writesOut s < 32) else decide (readsOut s < 64)

/-- The lowest free slot of a kind: 0 to 63 reads, 64 to 95 writes. -/
def freeSlot (s : State) (write : Bool) : Option Nat :=
  (if write then natsFrom 64 32 else natsTo 64).find? fun k => (mget s.memp.out {} k).who == .none

/-- Whether a holder is channel c. -/
def whoIsChan (c : Nat) (w : MWho) : Bool :=
  match w with
  | .chanKib k => k == c
  | .chanRow k _ => k == c
  | _ => false

/-- The place of a holder among requests that become ready in one cycle (R292): seam transfers, writer, channels. -/
def whoRank (w : MWho) : Nat :=
  match w with
  | .none => 0
  | .image => 0
  | .lost _ => 0
  | .seam _ => 1
  | .writer _ => 2
  | .chanKib c => 3 + c
  | .chanRow c _ => 3 + c

/-- The channel of a request, if it is a channel's. -/
def chanOfReq (r : MReq) : Option Nat :=
  match r.who with
  | .chanKib c => some c
  | .chanRow c _ => some c
  | _ => none

/-- Whether a request is below the limits of its kind and of its channel (R291). -/
def reqRoom (s : State) (r : MReq) : Bool :=
  portRoom s r.write && match chanOfReq r with
    | some c => decide (countOut s (fun x => whoIsChan c x.who) < 16)
    | none => true

/-- A request whose every condition but the port's limit holds. -/
def pushCand (s : State) (r : MReq) : State := { s with memp := { s.memp with cand := s.memp.cand ++ [r] } }

/-- Requests not yet accepted whose holder satisfies `p` are withdrawn. -/
def dropCand (s : State) (p : MWho → Bool) : State :=
  { s with memp := { s.memp with
      cand := s.memp.cand.filter fun r => !p r.who
      ready := s.memp.ready.filter fun r => !p r.who } }

/-- A request put in its place by rank, after those of its own rank. -/
def rankInsert (l : List MReq) (r : MReq) : List MReq :=
  match l with
  | [] => [r]
  | x :: t => if whoRank r.who < whoRank x.who then r :: x :: t else x :: rankInsert t r

/-- Each MCLK cycle: the requests that become ready join the ready ones in the order of R292. -/
def readyTick (s : State) : State :=
  if s.memp.closed then s
  else
    let new := s.memp.cand.filter (reqRoom s)
    { s with memp := { s.memp with
        cand := s.memp.cand.filter fun r => !reqRoom s r
        ready := s.memp.ready ++ new.foldl rankInsert [] } }

/-- The port accepts a request in slot k: its timer starts, and it gets its serial number (R291, R292, R298). -/
def takeSlot (s : State) (k : Nat) (r : MReq) : State :=
  { s with memp := { s.memp with
      serial := s.memp.serial + 1
      out := mset s.memp.out {} k { r with
        t0 := mclkOf s, timeout := zeroIs 1024 (regF s 0x01C0 10 10) * 4096, serial := s.memp.serial } } }

/-- The beats of an accepted write, in ascending address order (R439). -/
def writeBeats (r : MReq) : List WBeat :=
  (natsTo r.beats).map fun i => { data := lget r.data 0 i, sec := r.sec / 4 ^ i % 4, last := i + 1 == r.beats }

/-- The requests not yet accepted, the one presented among them. -/
def mempWaits (s : State) : List MReq := s.memp.cand ++ s.memp.ready ++ s.memp.req.toList.map (·.2)

/-- Each MCLK cycle: the next write beat is sent (R439); the surroundings take it (log 129). -/
def beatTick (s : State) : State :=
  { s with memp := { s.memp with beat := s.memp.beats.head?, beats := s.memp.beats.drop 1 } }

-- The read cache (R265, R266).

/-- Sets of the cache. -/
def cacheSets (s : State) : Nat := regF s 0x6044 0 3 * 512

/-- The lines held in an address's set, most recently used first. -/
def cacheSet (s : State) (a : Nat) : List CLine := mget s.spad.cache [] (a / 64 % cacheSets s)

/-- A set of the cache replaced. -/
def putCacheSet (s : State) (a : Nat) (l : List CLine) : State :=
  { s with spad := { s.spad with cache := mset s.spad.cache [] (a / 64 % cacheSets s) l } }

/-- What decoding the words of a cached line comes to: the line as it stands after it, the data and the side-band words it delivers, and
whether some word is uncorrectable. -/
structure LineRead where
  line : CLine
  data : BitVec 512
  lo : Side
  hi : Side
  bad : Bool := false
  deriving DecidableEq, Repr

/-- A correction of a word of a cached line: counted, and written back as a DMA access to the bank of its set (R248, log 126). -/
def lineCorr (s : State) (a : Nat) : State := touchLine (countCorr s 0) (a / 64 % cacheSets s)

/-- Bits `f` as word i of a line. -/
def lineWord (i : Nat) (f : W64) : BitVec 512 := BitVec.ofNat 512 (f.toNat <<< (64 * i))

/-- Word i of a cached line decoded: SECDED holds for each 64-bit word (R265, R457). -/
def lineDecode (i : Nat) (a : LineRead × State) : LineRead × State :=
  let f := mget a.1.line.flips 0 i
  let keep (x : LineRead) (f d : W64) : LineRead :=
    { x with line := { x.line with flips := mset x.line.flips 0 i 0, data := x.line.data ^^^ lineWord i (f ^^^ d) }
             data := x.data ^^^ lineWord i (f ^^^ d) }
  match eccKind 0 (popcount f) with
  | 0 => a
  | 1 => (keep a.1 f f, lineCorr a.2 a.1.line.addr)
  | 2 => ({ a.1 with bad := true }, a.2)
  | _ =>
    let u := useFree a.2
    match Config.freeEcc u.1 % 3 with
    | 0 => ({ a.1 with data := a.1.data ^^^ lineWord i f }, u.2)
    | 1 => (keep a.1 f (Config.freeFlip u.1), lineCorr u.2 a.1.line.addr)
    | _ => ({ a.1 with bad := true }, u.2)

/-- The side-band word of a cached line's first or second sector decoded (R418, R457). -/
def lineSide (hi : Bool) (a : LineRead × State) : LineRead × State :=
  let sd := if hi then a.1.line.hi else a.1.line.lo
  let put (x : LineRead) (sd : Side) : LineRead := if hi then { x with hi := sd } else { x with lo := sd }
  let keep (x : LineRead) (sd : Side) : LineRead :=
    put { x with line := if hi then { x.line with hi := sd } else { x.line with lo := sd } } sd
  match eccKind 0 (popcount sd.flips) with
  | 0 => a
  | 1 => (keep a.1 { sd with flips := 0 }, lineCorr a.2 a.1.line.addr)
  | 2 => ({ a.1 with bad := true }, a.2)
  | _ =>
    let u := useFree a.2
    match Config.freeEcc u.1 % 3 with
    | 0 => (put a.1 (turnSide sd sd.flips), u.2)
    | 1 => (keep a.1 { turnSide sd (sd.flips ^^^ Config.freeFlip u.1) with flips := 0 }, lineCorr u.2 a.1.line.addr)
    | _ => ({ a.1 with bad := true }, u.2)

/-- Look a line up: a hit moves it to the front and brings the checks and marks of its sectors (R418); an uncorrectable error drops it and
counts (R266). -/
def cacheLook (s : State) (a : Nat) : Option LineIn × State :=
  if cacheSets s = 0 then (none, s)
  else
    let l := cacheSet s a
    match l.find? (·.addr == a) with
    | none => (none, s)
    | some x =>
      let rest := l.filter (·.addr != a)
      let y := lineSide true (lineSide false (foldTo 8 lineDecode ({ line := x, data := x.data, lo := x.lo, hi := x.hi }, s)))
      if y.1.bad then (none, incReg (putCacheSet y.2 a rest) 0x6054 0 32)
      else (some { data := y.1.data, sides := some (y.1.lo, y.1.hi) }, putCacheSet y.2 a (y.1.line :: rest))

/-- Sector k of a 512-bit line. -/
def lineSector (d : BitVec 512) (k : Nat) : BitVec 256 := BitVec.ofNat 256 (d.toNat >>> (256 * (k % 2)))

/-- A line from two sectors. -/
def lineOf (a b : BitVec 256) : BitVec 512 := BitVec.ofNat 512 (a.toNat + b.toNat <<< 256)

/-- A fresh check of sector k of a line (R417). -/
def freshSide (d : BitVec 512) (k : Nat) : Side := { check := sectorCheck (lineSector d k), uninit := false }

/-- Fresh checks of the sectors of lines (R417). -/
def lineChecks (ls : List (BitVec 512)) : List Nat := ls.flatMap fun d => [(freshSide d 0).check, (freshSide d 1).check]

/-- How many sectors that a request's enables name fail the checks formed of them (R419). -/
def badSectors (data : List (BitVec 512)) (checks : List Nat) (named : Nat → Bool) : Nat :=
  ((natsTo (2 * data.length)).filter fun i =>
    named i && sectorCheck (lineSector (lget data 0 (i / 2)) i) != lget checks 0 i).length

/-- A line taken into the cache with fresh checks (R417), the least recently used of its set going (R265); the fill asks for the bank of its
set (R242, log 126). -/
def cacheFill (s : State) (a : Nat) (d : BitVec 512) : State :=
  if cacheSets s = 0 then s
  else
    let s := touchLine s (a / 64 % cacheSets s)
    putCacheSet s a (({ addr := a, data := d, lo := freshSide d 0, hi := freshSide d 1 } :: (cacheSet s a).filter (·.addr != a)).take 8)

/-- The address of line i of a request. -/
def lineAddr (r : MReq) (i : Nat) : Nat := (r.addr + 64 * i) % m48

/-- Whether a request covers a line. -/
def coversLine (r : MReq) (a : Nat) : Bool := (natsTo r.beats).any fun i => lineAddr r i == a

/-- A line of the cache invalidated, with fills of it in flight kept from allocating (R266). -/
def cacheDrop (s : State) (a : Nat) : State :=
  let s := if cacheSets s = 0 then s else putCacheSet s a ((cacheSet s a).filter (·.addr != a))
  { s with memp := { s.memp with
      out := s.memp.out.map fun e => (e.1, if e.2.cache && coversLine e.2 a then { e.2 with noalloc := true } else e.2) } }

/-- Every line invalidated; fills in flight do not allocate (R266). -/
def cacheClear (s : State) : State :=
  { s with
    spad := { s.spad with cache := [] }
    memp := { s.memp with
      out := s.memp.out.map fun e => (e.1, if e.2.cache then { e.2 with noalloc := true } else e.2) } }

/-- Line i of a request put to the runs of lines before it, last run first: a run is its first line, how many lines the port must read,
and the lines that the cache holds. -/
def addRun (l : List (Nat × Nat × List LineIn)) (i : Nat) (x : Option LineIn) : List (Nat × Nat × List LineIn) :=
  match x, l with
  | some d, (j, 0, ds) :: t => (j, 0, ds ++ [d]) :: t
  | none, (j, n + 1, ds) :: t => (j, n + 2, ds) :: t
  | some d, l => (i, 0, [d]) :: l
  | none, l => (i, 1, []) :: l

/-- The lines of a request looked up in the cache, as runs of hits and of misses, which are counted (R265). -/
def cacheRuns (s : State) (r : MReq) : List (Nat × Nat × List LineIn) × State :=
  let x := (natsTo r.beats).foldl (fun (a : List (Nat × Nat × List LineIn) × State) i =>
    let y := cacheLook a.2 (lineAddr r i)
    (addRun a.1 i y.1, addReg y.2 (if y.1.isSome then 0x6048 else 0x604C) 0 32 1)) ([], s)
  (x.1.reverse, x.2)

end Sys2Proof.Machine
end

