-- ==== Sys2Proof/Machine/Chan.lean ====
section
/-! DEFINITION. Stream channels: kibbles, the forming of requests, the landing and release of rows, and the states of a
channel (11_streams_and_memory_port.md, R275 to R289, R301 to R305). -/
namespace Sys2Proof.Machine

/-- Channel c. -/
def chan (s : State) (c : Nat) : Chan := mget s.chans {} c
/-- Channel c changed by `f`. -/
def updChan (s : State) (c : Nat) (f : Chan → Chan) : State := { s with chans := mupd s.chans {} c f }

/-- Offset of a register of channel c (R306). -/
def chReg (c k : Nat) : Nat := 0x1000 + 0x20 * c + k

-- Kibbles (R275 to R277).

/-- Bits [hi:lo] of word w of a kibble's 256 bits. -/
def kibF (d : BitVec 256) (w lo len : Nat) : Nat := fieldN d (32 * w + lo) len

/-- A kibble's fields from its 32 bytes; `bad` tells a reserved OP, a reserved bit, ROWS 0 or a STRIDE that is not a
multiple of 32 (R275, R277). -/
def kibOf (addr : Nat) (d : BitVec 256) : Kibble :=
  let op := kibF d 0 28 4
  let ringOp := op < 2
  let bad := op > 3 || kibF d 0 0 10 != 0 || kibF d 1 0 5 != 0 || kibF d 2 16 16 != 0 || kibF d 3 21 11 != 0
    || kibF d 5 22 10 != 0 || kibF d 5 0 5 != 0 || kibF d 6 0 5 != 0 || kibF d 7 16 16 != 0
    || (ringOp && (kibF d 3 16 5 != 0 || kibF d 5 5 17 != 0))
    || kibF d 3 0 16 == 0 || kibF d 4 0 5 != 0
  { addr := addr, op := op, last := kibF d 0 27 1 == 1, irq := kibF d 0 26 1 == 1, bell := kibF d 0 25 1 == 1
    fence := kibF d 0 24 1 == 1, cache := kibF d 0 23 1 == 1, epload := kibF d 0 22 1 == 1
    epinc := kibF d 0 21 1 == 1, flush := kibF d 0 20 1 == 1, kep := kibF d 0 16 4, ring := kibF d 0 10 6
    ext := kibF d 1 5 27 * 32 + kibF d 2 0 16 * m32, size := 32 * zeroIs 32 (kibF d 3 16 5)
    rows := kibF d 3 0 16, stride := signedN 32 (kibF d 4 0 32), spad := kibF d 5 5 17 * 32
    next := kibF d 6 5 27 * 32 + kibF d 7 0 16 * m32, bad := bad }

/-- The kibble a channel is on: the first it has read and not completed. -/
def curKib (h : Chan) : Option Kibble := h.kibs.head?

/-- Whether another channel's current kibble names a ring (R277). -/
def ringTaken (s : State) (c ring : Nat) : Bool :=
  s.chans.any fun e => e.1 != c && e.2.st != 0 &&
    (match curKib e.2 with | some k => decide (k.op < 2) && k.ring == ring | none => false)

/-- Whether n bytes of the scratchpad from `a`, taken modulo its size, touch the cache area (R277). -/
def touchesCache (s : State) (a n : Nat) : Bool :=
  let e := cacheStart s
  let b := spadBytes s
  decide (e < b) && (decide (e < a + n) || decide (b + e < a + n))

/-- Whether a kibble that has arrived fails its check (R277). -/
def kibBad (s : State) (c : Nat) (k : Kibble) (first : Bool) (row0 : Nat) : Bool :=
  k.bad || (first && decide (k.rows ≤ row0)) ||
  (if k.op < 2 then
    let r := ringOf s k.ring
    !r.en || (if k.op = 0 then r.psrc || r.relmode == 2 else !r.psrc || r.relmode != 2) || ringTaken s c k.ring
  else touchesCache s k.spad (k.rows * k.size))

/-- The kibble as the channel takes it: the row size of its ring, the rows to start at (R276, R284). -/
def kibTake (s : State) (k : Kibble) (row0 : Nat) (resumed : Bool) : Kibble :=
  { k with
    size := if k.op < 2 then rowBytes (ringOf s k.ring) else k.size
    ri := row0, rc := row0
    load := k.epload && !(resumed && decide (0 < row0)) }

/-- External address of row r (R276). -/
def kibExt (k : Kibble) (r : Nat) : Nat := wrapN 48 ((k.ext : Int) + r * k.stride)

/-- The position of a channel: the first row that has not completed (R280). -/
def chanWhere (h : Chan) : Nat × Nat :=
  match h.rows, h.kibs with
  | r :: _, _ => (r.kaddr, r.r)
  | [], k :: _ => (k.addr, k.rc)
  | [], [] => (h.posA, h.posR)

/-- Requests of channel c outstanding at the port (R291). -/
def chanOut (s : State) (c : Nat) : Nat := countOut s fun r => whoIsChan c r.who

/-- Whether something of channel c is under way: a request that is outstanding or that the port presents, or lines on their way from the read
cache. -/
def chanBusy (s : State) (c : Nat) : Bool :=
  chanOut s c != 0 || s.memp.req.any (fun e => whoIsChan c e.2.who) || s.spad.hits.any (·.c == c)

/-- Requests of channel c formed and not yet accepted. -/
def chanFormed (s : State) (c : Nat) : List MReq := (mempWaits s).filter fun r => whoIsChan c r.who

-- Chains (R278, R281, R282).

/-- A kibble read is wanted, under a serial of its own. -/
def fetchKib (h : Chan) (addr row0 : Nat) (first resumed : Bool) : Chan :=
  { h with nextId := h.nextId + 1, fetch := some ⟨addr, first, row0, resumed, false, h.nextId + 1⟩ }

/-- A chain begun: the channel reads its first kibble (R281, R282). What it has begun in rings stays its own (R286, R287). -/
def chanStart (s : State) (c : Nat) (a : ArmReq) : State :=
  let s := { s with memp := { s.memp with armCount := s.memp.armCount + 1 } }
  updChan s c fun h =>
    fetchKib { st := 1, src := a.src, posA := a.addr, posR := a.row0, bell := h.bell, armOrd := s.memp.armCount
               ring := h.ring, op := h.op, nextId := h.nextId, halves := h.halves, fill := h.fill, begins := h.begins
               unchecked := true } a.addr a.row0 true false

/-- The commands that wait for a channel to stop complete. -/
def chanAnswer (s : State) (c : Nat) : State :=
  let h := chan s c
  let l := h.stopCli ++ h.abortCli
  eachS l (fun cl s => complete s cl 0 0) (updChan s c fun h => { h with stopCli := [], abortCli := [] })

/-- A channel enters HALTED, FAULT or IDLE, its position saved and what it held dropped; aborted, it has left its ring (R287). An arm that is
pending takes effect in the next MCLK cycle (R282). -/
def chanEnter (s : State) (c st cause addr row : Nat) : State :=
  let s := updChan s c fun h =>
    { h with st := st, cause := cause, posA := addr, posR := row, kibs := [], rows := [], fetch := none
             stopTo := none, tail := none, aborting := false, fill := if st = 0 then none else h.fill
             begins := if st = 0 then [] else h.begins }
  let s := dropCand s (whoIsChan c)
  let s := chanAnswer s c
  if cause = 5 && st = 5 then raise s 0x28 c else s

/-- The chain's end: CHAIN_END, and IDLE; a pending arm takes effect in the next MCLK cycle (R282). -/
def chainEnd (s : State) (c : Nat) : State :=
  let w := chanWhere (chan s c)
  let s := raise s 0x27 c
  let s := updChan s c fun h =>
    { h with st := 0, posA := w.1, posR := w.2, kibs := [], rows := [], fetch := none
             stopTo := none, tail := none, aborting := false, begins := [] }
  chanAnswer s c

/-- A pending arm of a channel whose chain has ended takes effect (R282). -/
def pendStart (s : State) (c : Nat) : State :=
  match (chan s c).pend with
  | some a => if (chan s c).st = 0 then chanStart (updChan s c fun h => { h with pend := none }) c a else s
  | none => s

/-- One zero row written by FLUSH (R286). -/
def flushRow (s : State) (c : Nat) (k : Kibble) : State :=
  let r := ringOf s k.ring
  let s := dmaFreshBytes s (rowPlace s k.ring r.prod / 32) r.rsize []
  let p := produceRow s k.ring (chan s c).ep
  if p.1 && k.epinc then updChan p.2 c fun h => { h with ep := (h.ep + 1) % 16 } else p.2

/-- Whether a kibble whose last row has landed still completes its half with zero rows (R286). -/
def flushDue (s : State) (k : Kibble) : Bool :=
  let r := ringOf s k.ring
  k.flush && k.op == 0 && k.rc == k.rows && decide (0 < r.prod % halfRows r)

/-- A kibble completes: the count, KIBBLE_DONE, and the end of a chain; the position is row 0 of the next kibble (R275, R280, R282). -/
def kibEnd (s : State) (c : Nat) (k : Kibble) : State :=
  let s := setRegF s (chReg c 0x1C) 0 16 ((regF s (chReg c 0x1C) 0 16 + 1) % 65536)
  let s := if k.irq then raise s 0x26 c else s
  let s := updChan s c fun h =>
    { h with kibs := h.kibs.drop 1, posA := if k.last then k.addr else k.next, posR := if k.last then k.rc else 0 }
  if k.last then chainEnd s c else s

/-- A kibble the chain has reached loads the tag counter once (R284); its ring and OP are shown, and the ring it fills is noted. -/
def kibHead (s : State) (c : Nat) : State :=
  match curKib (chan s c) with
  | none => s
  | some k =>
    updChan s c fun h =>
      { h with ring := k.ring, op := k.op, fill := if k.op = 0 then some k.ring else none, ep := if k.load then k.kep else h.ep
               kibs := { k with load := false } :: h.kibs.drop 1 }

/-- The deadline of a row that has landed or been released (R301). -/
def rowDeadline (s : State) (c : Nat) (rw : RowFl) : State :=
  let d := regF s (chReg c 0x10) 16 16 * 16
  if d = 0 || !rw.timed || mclkOf s - rw.t0 ≤ d then s
  else
    let s := incReg s (chReg c 0x1C) 16 16
    match curKib (chan s c) with
    | some k =>
      if k.missed then s
      else raise (updChan s c fun h => { h with kibs := { k with missed := true } :: h.kibs.drop 1 }) 0x2D c
    | none => s

/-- A sector written by DMA with the check and the marks it brings (R418). -/
def dmaCarry (s : State) (sec : Nat) (data : BitVec 256) (sd : Side) : State :=
  let s := dmaWrite s sec data sd.check sd.poison
  if sd.uninit then setSide s sec { sideOf s sec with uninit := true } else s

/-- The sectors of a row written to the scratchpad from byte `a`, taken modulo its size: with fresh checks (R417), or with what the read cache
holds of them (R418). -/
def landSectors (s : State) (a n : Nat) (rw : RowFl) : State :=
  foldTo n (fun i s =>
    let sec := (a + 32 * i) % spadBytes s / 32
    match mget rw.kept none i with
    | none => dmaFresh s sec (mget rw.data 0 i)
    | some sd => dmaCarry s sec (mget rw.data 0 i) sd) s

/-- The first row in flight of a channel lands or is released (R283, R284, R288, R289). -/
def rowLand (s : State) (c : Nat) (k : Kibble) (rw : RowFl) : State :=
  let s := rowDeadline s c rw
  if k.op = 0 then
    let r := ringOf s k.ring
    let s := landSectors s (rowPlace s k.ring r.prod) r.rsize rw
    let s := if r.prod % halfRows r = 0 then
      updChan s c fun h => { h with halves := (⟨k.ring, r.prod, rw.kaddr, rw.r⟩ :: h.halves).take 3 } else s
    let p := produceRow s k.ring (chan s c).ep
    if p.1 && k.epinc then updChan p.2 c fun h => { h with ep := (h.ep + 1) % 16 } else p.2
  else if k.op = 1 then releaseRows s k.ring 1
  else if k.op = 2 then landSectors s (k.spad + rw.r * k.size) (k.size / 32) rw
  else s

/-- Whether the first row in flight has all its responses. -/
def rowReady (rw : RowFl) : Bool := rw.reqs.isEmpty && rw.outN == 0 && !rw.failed && !rw.first

/-- Whether the first row in flight completes now: an ingress row in the MCLK cycle after its last beat (R283), none while the channel is
aborted, and none while the scratchpad accepts no work (R410, log 133); an egress row at its last response (R288). -/
def rowCompletes (s : State) (h : Chan) (k : Kibble) (rw : RowFl) : Bool :=
  rw.kid == k.kid && rowReady rw && (k.op % 2 == 1 || (!h.aborting && !unitHeld s 7 && decide (rw.beatT < mclkOf s)))

/-- Rows complete in chain order, and kibbles with them (R280, R283). `fuel` bounds the rows. -/
def chanRows (fuel : Nat) (s : State) (c : Nat) : State :=
  match fuel with
  | 0 => s
  | f + 1 =>
    let s := kibHead s c
    match curKib (chan s c), (chan s c).rows with
    | some k, rw :: rest =>
      if rowCompletes s (chan s c) k rw then
        let s := rowLand (updChan s c fun h => { h with rows := rest }) c k rw
        let s := updChan s c fun h =>
          match h.kibs with
          | x :: t => { h with kibs := { x with rc := rw.r + 1 } :: t }
          | [] => h
        let s := match curKib (chan s c) with
          | some k' => if k'.rc = k'.rows && !flushDue s k' then kibEnd s c k' else s
          | none => s
        chanRows f s c
      else s
    | _, _ => s

/-- The ring that a channel's present kibble fills, or that its last one filled. -/
def fillRing (h : Chan) : Option Nat :=
  match curKib h with
  | some k => if k.op = 0 then some k.ring else none
  | none => h.fill

/-- The partial half of ring n dropped (R287). Answers the position of its first row, or `w`. -/
def dropHalf (s : State) (c n : Nat) (w : Nat × Nat) : (Nat × Nat) × State :=
  let r := ringOf s n
  let q := sub32 r.prod (r.prod % halfRows r)
  let x := (chan s c).halves.find? fun x => x.ring == n && x.q == q
  ((x.map fun x => (x.addr, x.row)).getD w,
    updChan (dropPartial s n) c fun h => { h with halves := h.halves.filter fun x => x.ring != n || x.q != q })

/-- The halves that a channel has begun in other rings than the one it fills, of which no row has landed, dropped (R287). -/
def dropAhead (s : State) (c : Nat) : State :=
  let h := chan s c
  let s := eachS (h.begins.filter fun n => fillRing h != some n) (fun n s =>
    let r := ringOf s n
    if r.prod % halfRows r = 0 && !ringTaken s c n then dropPartial s n else s) s
  updChan s c fun h => { h with begins := [] }

/-- A half begun and not completed by an aborted or reset channel is dropped, and the position returns to its first row
(R280, R287). Answers the position. -/
def chanDropHalf (s : State) (c : Nat) : (Nat × Nat) × State :=
  let w := chanWhere (chan s c)
  let s := dropAhead s c
  match fillRing (chan s c) with
  | none => (w, s)
  | some n => if ringTaken s c n then (w, s) else dropHalf s c n w

/-- Whether something that has come is still to land in the next MCLK cycle, or zero rows are still to complete a half (R283, R286). -/
def chanLanding (s : State) (h : Chan) : Bool :=
  !h.aborting &&
    match curKib h, h.rows with
    | some k, rw :: _ => flushDue s k || (rw.kid == k.kid && rowReady rw)
    | some k, [] => flushDue s k
    | none, _ => false

/-- The position of an aborted channel: that of its ABORT, or on an egress kibble the first row without a write response of OKAY (R280,
R281). -/
def abortWhere (h : Chan) : Nat × Nat :=
  if (curKib h).any fun k => k.op % 2 == 1 then chanWhere h else (h.posA, h.posR)

/-- What follows once a channel's requests have settled: STOP, FAULT, ERROR, CHECK, ABORT (R281, R297), or what waited for
the kibbles held to complete (R277). A stopping channel whose kibble read has failed stops for that at its position. -/
def chanFinal (s : State) (c : Nat) : State :=
  let h := chan s c
  let clear := h.kibs.isEmpty && h.rows.isEmpty
  let enter (t : ChStop) : State := chanEnter s c t.st t.cause t.addr t.row
  if chanBusy s c || chanLanding s h then s
  else
    match h.stopTo, h.tail with
    | some t, tail =>
      let w := chanWhere h
      if t.st = 0 then chanEnter s c 0 h.cause (abortWhere h).1 (abortWhere h).2
      else
        match tail.filter fun _ => clear && t.cause == 1 with
        | some u => enter u
        | none => enter { t with addr := w.1, row := w.2 }
    | none, some t => if clear then enter t else s
    | none, none => s

/-- A channel settles after a response. -/
def chanSettle (s : State) (c : Nat) : State :=
  chanFinal (chanRows ((chan s c).rows.length + 2) s c) c

/-- No new request issues, and the channel stops as `t` says once its outstanding ones have settled. -/
def chanStopTo (s : State) (c : Nat) (t : ChStop) : State :=
  dropCand (updChan s c fun h => { h with stopTo := some t }) (whoIsChan c)

-- Forming requests (R278, R285, R292, R294).

/-- Kibble i of a channel's list changed by `f`. -/
def updKib (s : State) (c i : Nat) (f : Kibble → Kibble) : State := updChan s c fun h => { h with kibs := lupd h.kibs i f }

/-- The index of the first kibble with rows still to issue. -/
def kibToIssue (h : Chan) : Option Nat := h.kibs.findIdx? fun k => decide (k.ri < k.rows)

/-- Whether the writes that a FENCE waits for have their responses (R294). -/
def fenceClear (s : State) (k : Kibble) : Bool :=
  !k.fence || !(s.memp.out.any fun e => e.2.write && decide (e.2.serial < k.fenceAt))

/-- Whether a doorbell is left for another row (R285). -/
def bellFree (s : State) (c : Nat) (k : Kibble) : Bool :=
  !k.bell || decide (((chanFormed s c).filter (·.first)).length < (chan s c).bell)

/-- The place of the next row of kibble i: its sequence number in a ring, after the rows of the kibbles before it that name the ring
and the zero rows with which they complete a half (R286). -/
def nextQ (s : State) (c i : Nat) (k : Kibble) : Nat :=
  let r := ringOf s k.ring
  let q0 := if k.op = 0 then r.prod else r.rel
  let q := ((chan s c).kibs.take i).foldl (fun q x =>
    if x.op = k.op && x.ring = k.ring then
      let q := q + (x.rows - x.rc)
      if x.flush && x.op = 0 then (q + halfRows r - 1) / halfRows r * halfRows r else q
    else q) q0
  (q + (k.ri - k.rc)) % m32

/-- The ring's condition for the next row: an ingress row's half begun, and begun now if it may be; an egress row's half
complete (R257, R288). -/
def ringReady (s : State) (c : Nat) (k : Kibble) (q : Nat) : Bool × State :=
  if k.op = 0 then
    if rowBegun (ringOf s k.ring) q then (true, s)
    else if mayBegin s k.ring then
      (true, updChan (beginHalf s k.ring) c fun h =>
        { h with begins := if h.begins.contains k.ring then h.begins else k.ring :: h.begins })
    else (false, s)
  else if k.op = 1 then
    match rowState s k.ring q with
    | .full _ => (true, s)
    | _ => (false, s)
  else (true, s)

/-- The next row of a kibble put in flight. -/
def rowBegin (s : State) (c i : Nat) (k : Kibble) (q : Nat) : State :=
  let a := kibExt k k.ri
  let s := updKib s c i fun k => { k with ri := k.ri + 1 }
  updChan s c fun h =>
    { h with
      nextId := h.nextId + 1
      rows := h.rows ++ [{ id := h.nextId, kid := k.kid, kaddr := k.addr, r := k.ri, ext := a, q := q
                           reqs := reqsOf a k.size }] }

/-- The request a row puts forward, as a request of the port. -/
def rowReq (h : Chan) (c : Nat) (k : Kibble) (rw : RowFl) (a n : Nat) : MReq :=
  { who := .chanRow c rw.id, write := k.op % 2 == 1, addr := a, beats := n, src := h.src, row := rw.r
    cache := k.cache && k.op % 2 == 0, first := rw.first && k.bell, kid := k.kid, lead := !k.nextDone && !k.last }

/-- The next kibble is read, after the first data request of the one before it and ahead of all that follows (R278). -/
def kibNext (s : State) (c kid : Nat) : State :=
  match (chan s c).kibs.findIdx? (·.kid == kid) with
  | none => s
  | some i =>
    let k := lget (chan s c).kibs {} i
    if k.nextDone || k.last then s
    else updChan (updKib s c i fun k => { k with nextDone := true }) c fun h => fetchKib h k.next 0 false false

/-- The doorbell of a row is taken with its first request (R285). -/
def takeBell (s : State) (r : MReq) : State :=
  match r.who with
  | .chanRow c _ => if r.first then updChan s c fun h => { h with bell := h.bell - 1 } else s
  | _ => s

/-- The pieces of a request still to be answered: one more for row `id`. -/
def rowAsks (s : State) (c id : Nat) : State :=
  updChan s c fun h => { h with rows := h.rows.map fun x => if x.id = id then { x with outN := x.outN + 1 } else x }

/-- A request of row `id` of channel c put forward: to the port, or, with the cache hint, its lines to the read cache, which delivers those that it
holds four MCLK cycles later; the others go to the port (R265). -/
def askRow (s : State) (c id : Nat) (r : MReq) : State :=
  if !r.cache || cacheSets s = 0 then pushCand (rowAsks s c id) { r with cache := false }
  else
    let x := cacheRuns s r
    let hit := x.1.any fun e => e.2.1 == 0
    let s := if hit then takeBell x.2 r else x.2
    eachS x.1 (fun e s =>
      let s := rowAsks s c id
      if e.2.1 = 0 then
        { s with spad := { s.spad with hits := s.spad.hits ++ [⟨c, id, lineAddr r e.1, e.2.2, mclkOf s + 4⟩] } }
      else pushCand s { r with addr := lineAddr r e.1, beats := e.2.1, first := r.first && !hit, lead := r.lead && !hit }) s

/-- The next request of a row in flight is formed; a row's time begins with its first (R301), and with a kibble's first the next kibble is asked
for (R278). -/
def formRow (s : State) (c : Nat) (k : Kibble) (rw : RowFl) : State :=
  match rw.reqs with
  | [] => s
  | (a, n) :: rest =>
    let r := rowReq (chan s c) c k rw a n
    let s := updChan s c fun h =>
      { h with rows := h.rows.map fun x =>
          if x.id = rw.id then { x with reqs := rest, first := false, timed := true, t0 := if x.timed then x.t0 else mclkOf s } else x }
    let s := askRow s c rw.id r
    if r.lead then kibNext s c k.kid else s

/-- One step of forming the requests of a running channel, in chain order: the kibble read that is due, the row in hand,
or the next row (R278, R292). Answers whether something was formed. -/
def chanForm (s : State) (c : Nat) : Bool × State :=
  let h := chan s c
  if h.st ≠ 1 || h.stopTo.isSome || h.aborting || 16 ≤ chanOut s c + (chanFormed s c).length then (false, s)
  else
    match h.fetch with
    | some f =>
      if f.issued then chanFormRow s c h
      else
        (true, pushCand (updChan s c fun h => { h with fetch := some { f with issued := true } })
          { who := .chanKib c, addr := f.addr / 64 * 64, beats := 1, src := h.src, row := f.id })
    | none => chanFormRow s c h
where
  /-- The row in hand, or the next row of the first kibble that has one. -/
  chanFormRow (s : State) (c : Nat) (h : Chan) : Bool × State :=
    match h.rows.find? (fun rw => !rw.reqs.isEmpty) with
    | some rw =>
      match h.kibs.findIdx? (·.kid == rw.kid) with
      | some i =>
        (true, formRow s c (lget h.kibs {} i) rw)
      | none => (false, s)
    | none =>
      match kibToIssue h with
      | none => (false, s)
      | some i =>
        let k0 := lget h.kibs {} i
        if k0.fence && !k0.started && !(chanFormed s c).isEmpty then (false, s)
        else
          let s := updKib s c i fun k => if k.started then k else { k with started := true, fenceAt := s.memp.serial }
          let k := lget (chan s c).kibs {} i
          if !fenceClear s k || !bellFree s c k then (false, s)
          else
            let q := nextQ s c i k
            let g := ringReady s c k q
            if g.1 then
              let s := rowBegin g.2 c i k q
              match (chan s c).rows.getLast? with
              | some rw => (true, formRow s c k rw)
              | none => (false, s)
            else if k.op = 0 && !(s.memp.cand.any fun r => whoIsChan c r.who) then (false, updChan s c fun h => { h with st := 2 })
            else (false, s)

/-- A running channel forms every request it can in this cycle. -/
def chanFormAll (fuel : Nat) (s : State) (c : Nat) : State :=
  match fuel with
  | 0 => s
  | f + 1 =>
    let r := chanForm s c
    if r.1 then chanFormAll f r.2 c else r.2

/-- The next zero row of a FLUSH, and with the last one the end of its kibble (R286). -/
def flushTick (s : State) (c : Nat) : State :=
  match curKib (chan s c) with
  | none => s
  | some k =>
    if !flushDue s k || (chan s c).aborting || unitHeld s 7 then s
    else
      let s := flushRow s c k
      if flushDue s k then s else kibEnd s c k

/-- The zero rows that remain of a FLUSH, at once: its channel stops (log 126). -/
def flushNow (s : State) (c : Nat) : State :=
  match curKib (chan s c) with
  | none => s
  | some k =>
    if flushDue s k then
      let r := ringOf s k.ring
      kibEnd (foldTo (halfRows r - r.prod % halfRows r) (fun _ s => flushRow s c k) s) c k
    else s

/-- Every channel lands what has come, and forms its requests (each MCLK cycle); first a pending arm takes effect. -/
def chansTick (s : State) : State :=
  eachS (s.chans.map (·.1)) (fun c s =>
    let s := pendStart s c
    let s := if (chan s c).st = 0 then s else chanSettle (flushTick s c) c
    if (chan s c).st = 1 then chanFormAll 17 s c else s) s

/-- A channel that holds a ready request which the port did not accept in the MCLK cycle that ends counts a stall (R293). -/
def stallsTick (s : State) : State :=
  eachS (s.chans.map (·.1)) (fun c s =>
    if (s.memp.ready ++ s.memp.req.toList.map (·.2)).any fun r => whoIsChan c r.who then incReg s (chReg c 0x18) 0 32 else s) s

end Sys2Proof.Machine
end

