-- ==== Sys2Proof/Machine/SeqOps.lean ====
section
/-! DEFINITION. Benches, records and tile descriptors as the engines see them: fields, effective addresses and epochs,
halts, SLOT_SLIP and BAD_FORMAT, freezes, and the generators of stochastic rounding (09_bench_sequencer.md, R213 to
R235; 02_number_formats.md, R49 to R54). -/
namespace Sys2Proof.Machine

-- Benches and records.

/-- The bench in progress with serial `uid`. -/
def benchOf (s : State) (uid : Nat) : Option Bench := s.seq.benches.find? (·.uid == uid)
/-- A bench in progress changed by `f`. -/
def updBench (s : State) (uid : Nat) (f : Bench → Bench) : State :=
  { s with seq := { s.seq with benches := s.seq.benches.map fun b => if b.uid = uid then f b else b } }
/-- A step of a bench discarded in the present slot (R26, R143). -/
def noteSpoil (s : State) (uid : Nat) : State := updBench s uid fun b => { b with spoilt := s.clk.slot + 1 }
/-- Record `pos` of a bench. -/
def recAt (b : Bench) (pos : Nat) : Option Rec := b.recs.find? (·.pos == pos)
/-- A record changed by `f`. -/
def updRec (s : State) (uid pos : Nat) (f : Rec → Rec) : State :=
  updBench s uid fun b => { b with recs := b.recs.map fun r => if r.pos = pos then f r else r }
/-- A bench in progress with one of its records that has not finished. -/
def recOf (s : State) (uid pos : Nat) : Option (Bench × Rec) :=
  match benchOf s uid with
  | none => none
  | some b => ((recAt b pos).filter fun r => !r.fin).map fun r => (b, r)

/-- Bits [lo + len - 1 : lo] of word w of a record (R224). -/
def rf (r : Rec) (w lo len : Nat) : Nat := fieldN (lget r.w 0 w) lo len
/-- SLIP_POL (R224). -/
def slipPol (r : Rec) : Bool := rf r 0 25 1 == 1

/-- ITYPE codes of the records (R217). -/
def itArray : Nat := 1
/-- ITYPE of a derrick record. -/
def itDerrick : Nat := 2
/-- ITYPE of a drain record. -/
def itDrain : Nat := 3
/-- ITYPE of a gate record. -/
def itGate : Nat := 4
/-- ITYPE of a scan record. -/
def itScan : Nat := 5
/-- ITYPE of a vector record. -/
def itVector : Nat := 6

/-- The sequencer runs benches: RUNNING, DRAINING or STOPPING (R236). -/
def seqActive (s : State) : Bool := s.seq.st == 2 || s.seq.st == 3 || s.seq.st == 4
/-- The sequencer is IDLE or HALTED. -/
def seqStopped (s : State) : Bool := s.seq.st == 0 || s.seq.st == 5

-- Tile descriptors, as the bench's START found them (R226, R227, R240).

/-- Word w of descriptor n. -/
def tdw (b : Bench) (n w : Nat) : W32 := mget b.tdf 0 (8 * n + w)
/-- KIND of descriptor n. -/
def tdKind (b : Bench) (n : Nat) : Nat := fieldN (tdw b n 0) 29 3
/-- FMT of descriptor n. -/
def tdFmt (b : Bench) (n : Nat) : Nat := fieldN (tdw b n 0) 25 4
/-- EREL of descriptor n. -/
def tdErel (b : Bench) (n : Nat) : Bool := bitB (tdw b n 0) 20
/-- SRC of descriptor n. -/
def tdSrc (b : Bench) (n : Nat) : Nat := fieldN (tdw b n 0) 16 4
/-- UNIT of descriptor n. -/
def tdUnit (b : Bench) (n : Nat) : Nat := fieldN (tdw b n 0) 10 6
/-- ROW of descriptor n. -/
def tdRow (b : Bench) (n : Nat) : Nat := fieldN (tdw b n 0) 0 10
/-- The base of descriptor n: ADDR_HI belongs to a MEM address alone (R240). -/
def tdBase (b : Bench) (n : Nat) : Nat :=
  fieldN (tdw b n 1) 5 27 * 32 + (if tdKind b n = 4 then fieldN (tdw b n 2) 0 16 * m32 else 0)
/-- The offset o of R227, modulo 2^32 and signed. -/
def tdOff (b : Bench) (n : Nat) : Int :=
  let st (w lo k : Nat) : Int := signedN 16 (fieldN (tdw b n w) lo 16) * (lget b.idx 0 k : Nat)
  let o : Int := (tdw b n 7).toInt + st 4 0 0 + st 4 16 1 + st 5 0 2 + st 5 16 3
  signedN 32 (wrapN 32 o)
/-- Row r of an ACC descriptor (R227). -/
def tdAcc (b : Bench) (n r : Nat) : Nat := (((tdRow b n : Int) + tdOff b n + r) % 1024).toNat
/-- Entry r of a FEEDBACK descriptor (R227). -/
def tdFb (b : Bench) (n r : Nat) : Nat := (((tdRow b n % 128 : Nat) + tdOff b n + (r : Int)) % 128).toNat
/-- Sequence number of row r of a RING descriptor (R256). -/
def tdSeq (b : Bench) (n r : Nat) : Nat := wrapN 32 (tdOff b n + (fieldN (tdw b n 3) 0 16 * r : Nat))
/-- Address of row r of a SPAD, WINDOW or MEM descriptor, before it is taken modulo its space (R227). -/
def tdAddr (b : Bench) (n r : Nat) : Int :=
  let q : Int := tdOff b n + (fieldN (tdw b n 3) 0 16 * r : Nat)
  let len := fieldN (tdw b n 6) 0 16
  let q := if len = 0 then q else q % (len : Int)
  (tdBase b n : Int) + 32 * q
/-- Scratchpad offset of row r (R227). -/
def tdSpad (s : State) (b : Bench) (n r : Nat) : Nat := (tdAddr b n r % (spadBytes s : Int)).toNat

/-- The effective epoch of a field tied to descriptor n (R229). -/
def effEp (b : Bench) (n field : Nat) : Nat := if tdErel b n then (field + b.bep) % 16 else field % 16
/-- The effective EPOCH of descriptor n itself. -/
def tdEp (b : Bench) (n : Nat) : Nat := effEp b n (fieldN (tdw b n 0) 21 4)

/-- The bench's rounding for a 2-bit field (R49, R222). -/
def benchRnd (b : Bench) (code : Nat) : RMode := rmodeOf (rmodeOf .rne b.modeRnd) code

-- Halts (R232), BAD_FORMAT and SLOT_SLIP (R231).

/-- The record's position and its BEP as an event's ARG (R430). -/
def recArg (b : Bench) (pos : Nat) : Nat := (pos % 32) * 256 + b.bep % 16

/-- The bench most recently started and still in progress. -/
def lastBench (s : State) : Option Bench := s.seq.benches.getLast?

/-- A halt cause detected in this slot, by a record; the first stands (R232). -/
def reqHalt (s : State) (cause : Nat) (b : Bench) (pos : Nat) : State :=
  if !seqActive s || s.seq.haltReq.isSome then s
  else { s with seq := { s.seq with haltReq := some ⟨cause, pos, b.bep, true, b.start⟩ } }

/-- A halt cause of no record: BEP and slot count of the bench most recently started (R239). -/
def reqHaltSeq (s : State) (cause : Nat) : State :=
  if !seqActive s || s.seq.haltReq.isSome then s
  else
    let h : HaltReq := match lastBench s with
      | some b => ⟨cause, 0, b.bep, true, b.start⟩
      | none => ⟨cause, 0, 0, false, 0⟩
    { s with seq := { s.seq with haltReq := some h } }

/-- BAD_FORMAT of a record: the event, and the halt of its bench. -/
def badFormat (s : State) (b : Bench) (pos : Nat) : State := reqHalt (raise s 0x04 (recArg b pos)) 2 b pos

/-- Whether a SLOT_SLIP of a record halts (R231). -/
def slipHalts (s : State) (r : Rec) : Bool := !slipPol r || bitB (reg s 0x3000) 9

/-- SLOT_SLIP of a record (R231): counted, logged and raised, and a halt under the halt policy. -/
def slip (s : State) (b : Bench) (r : Rec) (cause expect found : Nat) : State :=
  let s := incReg s 0x3018 0 32
  let s := if bitB (reg s 0x3014) 31 then s
    else setReg s 0x3014 (BitVec.ofNat 32 (2147483648 + cause % 16 * 134217728 + r.pos % 32 * 4194304
      + b.bep % 16 * 65536 + expect % 16 * 4096 + found % 16 * 256))
  let s := raise s 0x05 (recArg b r.pos)
  if slipHalts s r then reqHalt s 1 b r.pos else s

/-- A parity failure of a program, recipe, table or microcode word: RAM_PARITY, its count, and a halt of no record
(R423). `mem` is the memory's code. -/
def ramParity (s : State) (mem : Nat) : State := reqHaltSeq (incReg (raise s 0x11 mem) 0xE040 0 32) 4

/-- Words of a memory that fail their parity: each is counted and raised (R423). -/
def ramParities (s : State) (mem : Nat) (l : List Nat) : State := eachS l (fun _ s => ramParity s mem) s

-- Freezes (R214): a cause that begins after the present slot.

/-- Wait for half of ring n that holds row q: LINK for a landing ring, FEED otherwise. -/
def freezeHalf (s : State) (n q : Nat) : State :=
  let l := (ringOf s n).landing
  { s with seq := { s.seq with
      frzNext := { s.seq.frzNext with link := s.seq.frzNext.link || l, feed := s.seq.frzNext.feed || !l }
      waits := s.seq.waits ++ [.half n q] } }
/-- Wait for a half of ring n to be begun by the writer: DRAIN. -/
def freezeSpace (s : State) (n : Nat) : State :=
  { s with seq := { s.seq with
      frzNext := { s.seq.frzNext with drain := true }, waits := s.seq.waits ++ [.space n] } }
/-- Wait for the data of remote read rd: LINK. -/
def freezeRemote (s : State) (rd : Nat) : State :=
  { s with seq := { s.seq with
      frzNext := { s.seq.frzNext with link := true }, waits := s.seq.waits ++ [.remote rd] } }
/-- A freeze of cause DERRICK of one ACLK cycle (R79). -/
def freezeDerrick (s : State) : State :=
  { s with seq := { s.seq with frzNext := { s.seq.frzNext with derrick := max 1 s.seq.frzNext.derrick } } }

/-- Whether what a freeze waits for has come about. -/
def waitOver (s : State) (w : Wait) : Bool :=
  match w with
  | .half n q => match rowState s n q with | .notYet => false | _ => true
  | .space n => mayBegin s n || rowBegun (ringOf s n) (ringOf s n).prod
  | .remote rd => (mget s.fab.reads {} rd).left == 0

-- Generators of stochastic rounding (R53, R54).

/-- The generator of a lane of a site; one that has not advanced since it was loaded holds its seed. -/
def genOf (s : State) (site lane : Nat) : W32 :=
  let g := mget s.gen 0 (site * 128 + lane)
  if g = 0 then srSeed s.genSeed (tileId s) lane site else g

/-- A rounding in a lane of a site: the number q is drawn if the rounding discards bits under SR (R51, R53). -/
def rnd (s : State) (site lane : Nat) (f : Nat → NumR) : NumR × State :=
  let g := lfsrDraw (genOf s site lane)
  let r := f (g.toNat % 65536)
  (r, if r.drew then { s with gen := mset s.gen 0 (site * 128 + lane) g } else s)

/-- Every generator loaded from a seed (R54). -/
def reseed (s : State) (seed : W32) : State := { s with gen := [], genSeed := seed }

/-- Sites of R53. -/
def siteArr : Nat := 0
/-- The accumulator write port. -/
def siteAcc : Nat := 1
/-- The gate pipe. -/
def siteGate : Nat := 2
/-- The scan stage. -/
def siteScan : Nat := 3
/-- The vector engine. -/
def siteVec : Nat := 4
/-- The special function unit. -/
def siteSfu : Nat := 5
/-- The writer. -/
def siteWr : Nat := 6

/-- The flags of a lane ORed into a sticky register, less those the register does not hold (R57). -/
def stick (s : State) (off : Nat) (fl : Flg) (mask : Nat) : State :=
  if fl = 0 then s else orReg s off (BitVec.ofNat 32 (fl.toNat &&& mask))

end Sys2Proof.Machine
end

