-- ==== Sys2Proof/Machine/Acc.lean ====
section
/-! DEFINITION. The accumulator memory: entries, metadata, error correction, ports, the check of reads by row number, and
writes on their way (04_accumulators_and_seams.md, R91 to R104, R460; 17_integrity_and_events.md, R422). -/
namespace Sys2Proof.Machine

/-- Entry j of row r as stored without error. -/
def accEntry (s : State) (r j : Nat) : W32 := mget s.acc.data 0 (r * 128 + j)
/-- The metadata of row r; a row never written is unwritten and stale (R120). -/
def accMeta (s : State) (r : Nat) : Meta := mget s.acc.md {} r
/-- The metadata of row r replaced. -/
def setMeta (s : State) (r : Nat) (m : Meta) : State := { s with acc := { s.acc with md := mset s.acc.md {} r m } }
/-- Entry j of row r replaced, any wrong stored bits with it. -/
def setEntry (s : State) (r j : Nat) (v : W32) : State :=
  { s with acc := { s.acc with
      data := mset s.acc.data 0 (r * 128 + j) v, flips := mset s.acc.flips 0 (r * 128 + j) 0 } }

/-- Entry j of row `src` copied as it is stored to row `dst`, any wrong stored bits with it. -/
def copyEntry (s : State) (src dst j : Nat) : State :=
  { s with acc := { s.acc with
      data := mset s.acc.data 0 (dst * 128 + j) (accEntry s src j)
      flips := mset s.acc.flips 0 (dst * 128 + j) (mget s.acc.flips 0 (src * 128 + j)) } }

/-- Seam m. -/
def seam (s : State) (m : Nat) : Seam := mget s.seams {} m
/-- Seam m changed by `f`. -/
def updSeam (s : State) (m : Nat) (f : Seam → Seam) : State := { s with seams := mupd s.seams {} m f }

/-- Whether row r lies in a seam's row set. -/
def inRowSet (m : Seam) (r : Nat) : Bool := m.st != 0 && decide (m.base ≤ r) && decide (r < m.base + 2 * m.nrows)

/-- SEAM of a row: it lies in the row set of a bound seam (R92). -/
def rowSeam (s : State) (r : Nat) : Bool := s.seams.any fun e => inRowSet e.2 r

/-- The row that a read by row number reads: for a seam's row, that row of one of the two copies, and which is a free
value (R93, R111). -/
def pickCopy (s : State) (r : Nat) : Nat × State :=
  match s.seams.find? fun e => inRowSet e.2 r with
  | none => (r, s)
  | some e =>
    let i := (r - e.2.base) % e.2.nrows
    let u := useFree s
    (e.2.base + (if Config.freeCopy u.1 then e.2.nrows else 0) + i, u.2)

-- Error correction (R422).

/-- An uncorrectable entry or metadata word of row r: POISON, counted and raised, unless the row is poisoned already. -/
def accUncorr (s : State) (r : Nat) : State :=
  let m := accMeta s r
  if m.poison then s
  else raise (incReg (setMeta s r { m with poison := true }) 0xE03C 0 16) 0x10 r

/-- What a read finds at key k of the error table, for row r. -/
def accDecode (s : State) (r k : Nat) : State :=
  let f := mget s.acc.flips 0 k
  if f = 0 then s
  else if popcount f = 1 then incReg s 0xE03C 16 16
  else accUncorr s r

/-- The bits a read delivers for an entry: corrected, or as stored when uncorrectable. -/
def accDeliver (s : State) (r j : Nat) : W32 :=
  let f := mget s.acc.flips 0 (r * 128 + j)
  if popcount f ≤ 1 then accEntry s r j else accEntry s r j ^^^ f

/-- A row read: its 128 entries (R422). -/
def accRead (s : State) (r : Nat) : List W32 × State :=
  let bad := s.acc.flips.filter fun e => e.1 / 128 == r || e.1 == 131072 + r
  let s := eachS bad (fun e s => accDecode s r e.1) s
  ((natsTo 128).map fun j => accDeliver s r j, s)

-- Ports (R97).

/-- The ports of the present slot. -/
def portsNow (s : State) : Acc :=
  if s.acc.portSlot = s.clk.slot then s.acc else { s.acc with portSlot := s.clk.slot, reads := 0 }

/-- The ports that records which started earlier than the one that reads next still take in the present slot. -/
def setAhead (s : State) (n : Nat) : State := { s with acc := { s.acc with ahead := n } }

/-- `n` read ports of the present slot taken, or not if records that started earlier take or leave fewer (R97). -/
def takeRead (s : State) (n : Nat) : Bool × State :=
  let a := portsNow s
  if a.reads + a.ahead + n ≤ 4 then (true, { s with acc := { a with reads := a.reads + n } }) else (false, s)

/-- A row write put on its way. -/
def pushWrite (s : State) (w : AccWrite) : State := { s with acc := { s.acc with wq := s.acc.wq ++ [w] } }

/-- The order in which records started (R220): an earlier bench, or an earlier place in one bench. -/
def startedBefore (u1 p1 u2 p2 : Nat) : Bool := decide (u1 < u2) || (u1 == u2 && decide (p1 < p2))

/-- A write put in its place: in the order in which the records started, of one record in the order of issue, stable. -/
def wrtInsert (l : List AccWrite) (w : AccWrite) : List AccWrite :=
  match l with
  | [] => [w]
  | x :: r =>
    if startedBefore w.uid w.pos x.uid x.pos || (w.uid == x.uid && w.pos == x.pos && decide (w.ord < x.ord)) then w :: x :: r
    else x :: wrtInsert r w

/-- A computation row recorded as written by a bench in progress (R143). -/
def noteRow (s : State) (uid row : Nat) : State :=
  updBench s uid fun b => if b.rows.contains row then b else { b with rows := row :: b.rows }

/-- A row written: the changed entries and the metadata. -/
def applyRow (s : State) (w : AccWrite) : State :=
  let s := (natsTo w.lanes.length).foldl (fun s j =>
    match lget w.lanes none j with
    | some v => setEntry s w.row j v
    | none => s) s
  noteRow (setMeta { s with acc := { s.acc with flips := mset s.acc.flips 0 (131072 + w.row) 0 } } w.row w.md) w.uid w.row

/-- The bits `mask` of entry j of row `row` of seam k's copy that is not committed, as a step writes them: over the CURRENT view (R111,
R112, R127). A write of a part of an entry reads the rest, and meets its errors (R422). `who` is the position of a vector record plus
one, or 0. -/
def seamEntryWrite (k row who : Nat) (mask : W32) (bad : Bool) (j : Nat) (v : W32) (s : State) : State :=
  let m := seam s k
  let src := m.base + (if m.cur then m.nrows else 0) + row
  let sh := mget m.shadow none (row * 128 + j)
  let meets := sh.isNone && mask != 0xFFFFFFFF
  let s := if meets then accDecode s src (src * 128 + j) else s
  let old := sh.getD (accDeliver s src j)
  let bad := bad || (meets && (accMeta s src).poison)
  let v := (old &&& ~~~mask) ||| (v &&& mask)
  updSeam (setEntry s (m.base + (if m.cur then 0 else m.nrows) + row) j v) k fun m =>
    { m with shadow := mset m.shadow none (row * 128 + j) (some v), wrBy := mset m.wrBy 0 (row * 128 + j) who
             shadowBad := m.shadowBad || bad }

/-- The lanes of a row written so. -/
def seamRowWrite (s : State) (k row who : Nat) (mask : W32) (bad : Bool) (lanes : List (Option W32)) : State :=
  (natsTo lanes.length).foldl (fun s j =>
    match lget lanes none j with
    | some v => seamEntryWrite k row who mask bad j v s
    | none => s) s

/-- A write of a step to seam k, with the rows that change with it. -/
def applySeam (s : State) (k : Nat) (w : AccWrite) : State :=
  let who := if ((benchOf s w.uid).bind fun b => recAt b w.pos).any (·.ty == 6) then w.pos + 1 else 0
  eachS w.also (fun e s => seamRowWrite s k e.1 who e.2.1 w.md.poison e.2.2)
    (seamRowWrite s k w.row who w.mask w.md.poison w.lanes)

/-- A write made; one to a seam whose chunk has ended is dropped (R26). -/
def applyWrite (s : State) (w : AccWrite) : State :=
  match w.kind with
  | .seam k => if (seam s k).owner = w.uid + 1 then applySeam s k w else s
  | _ => applyRow s w

/-- Whether two writes of one slot reach the same row. -/
def sameTarget (a b : AccWrite) : Bool :=
  match a.kind, b.kind with
  | .seam j, .seam k => j == k && a.row == b.row
  | .seam _, _ => false
  | _, .seam _ => false
  | _, _ => a.row == b.row

/-- Whether two writes are of one record. -/
def sameRec (a b : AccWrite) : Bool := a.uid == b.uid && a.pos == b.pos

/-- Whether a write is lost to one that has its port already: another record's of the same row. Of two results of the vector engine, be
they of two recipes, the later-issued stands instead (R97, R174). -/
def losesRow (w x : AccWrite) : Bool := sameTarget w x && !sameRec w x && (w.ord == 0 || x.ord == 0)

/-- A write put in its place in the order in which writes are made: results of the vector engine in the order of issue (R174), stable. -/
def ordInsert (l : List AccWrite) (w : AccWrite) : List AccWrite :=
  match l with
  | [] => [w]
  | x :: r => if w.ord < x.ord then w :: x :: r else x :: ordInsert r w

/-- The slot's writes through the write port in the order their records started (R97): a third one finds no port; a row of a seam halts
the bench (R93); a row of `arr`, which an array update reaches, or one that an earlier record's write reaches, is lost. A write in which no
lane acts takes its port, and meets neither SEAM_OVERLAP nor the row's metadata (DESIGN CHOICE, log 50). `done` are those made, `lost`
those that lose their row or port, and `used` counts the ports: one that loses its row has used its port (log 50). -/
def portWrites (s : State) (arr : List Nat) (done lost : List AccWrite) (used : Nat) : List AccWrite → List AccWrite × State
  | [] => (lost, eachS (done.foldl ordInsert []) (fun w s => applyWrite s w) s)
  | w :: r =>
    if 2 ≤ used then portWrites s arr done (lost ++ [w]) used r
    else if w.void then portWrites s arr done lost (used + 1) r
    else if (match w.kind with | .row => rowSeam s w.row | _ => false) then
      let s := match benchOf s w.uid with
        | some b => reqHalt (raise s 0x06 (recArg b w.pos)) 3 b w.pos
        | none => s
      portWrites s arr done lost (used + 1) r
    else if (w.kind == .row && arr.contains w.row) || done.any (losesRow w) then
      portWrites s arr done (lost ++ [w]) (used + 1) r
    else portWrites s arr (done ++ [w]) lost (used + 1) r

-- Reads by row number (R98).

/-- What R98 finds in a row's metadata: the SLOT_SLIP cause, with the epochs, if any. -/
def metaSlip (m : Meta) (expect : Nat) : Option Nat :=
  if m.stale || m.fmt == 0 then some 2 else if m.epoch ≠ expect then some 1 else none

/-- The check of a row's metadata by a record (R98): SLOT_SLIP under its policy, and a halt for POISON. -/
def metaCheck (s : State) (b : Bench) (r : Rec) (m : Meta) (expect : Nat) : State :=
  let s := match metaSlip m expect with
    | some c => slip s b r c expect m.epoch
    | none => s
  if m.poison then reqHalt s 4 b r.pos else s

/-- A read by row number with one port (R97, R98): the row's entries and the metadata of the row it reads. A lost port is a
SLOT_SLIP of cause 4 and delivers nothing. -/
def rowRead (s : State) (b : Bench) (r : Rec) (row expect : Nat) : Option (List W32 × Meta) × State :=
  let t := takeRead s 1
  if t.1 then
    let p := pickCopy t.2 row
    let d := accRead p.2 p.1
    let m := accMeta d.2 p.1
    (some (d.1, m), metaCheck d.2 b r m expect)
  else (none, slip s b r 4 0 0)

/-- The row as the array's pipeline sees it: what is stored with the updates on their way in it (R96). -/
def arrRow (s : State) (row : Nat) : List W32 × Meta × State :=
  let d := accRead s row
  let ws := d.2.acc.wq.filter fun w => w.kind == .arr && w.row == row
  let lanes := ws.foldl (fun l w => (natsTo 128).map fun j => (lget w.lanes none j).getD (lget l 0 j)) d.1
  (lanes, match ws.getLast? with | some w => w.md | none => accMeta d.2 row, d.2)

end Sys2Proof.Machine
end

