-- ==== Sys2Proof/Machine/Seams.lean ====
section
/-! DEFINITION. Seams: their rows and views, dispatch, commit and spoil, evictions and reloads
(04_accumulators_and_seams.md, R109 to R118, R464). -/
namespace Sys2Proof.Machine

/-- Rows of standard entries of a copy (R110). -/
def nStd (v : Nat) : Nat := (v + 1) / 2
/-- Rows of a copy (R110). -/
def nRowsOf (v deep elig : Nat) : Nat := nStd v + (if deep = 0 then 0 else v) + elig

/-- Row of a seam's copy `c`, row index i. -/
def seamRow (m : Seam) (c : Bool) (i : Nat) : Nat := m.base + (if c then m.nrows else 0) + i

/-- Whether channel j lies in a deep group (R109). -/
def isDeep (m : Seam) (j : Nat) : Bool := m.deep.testBit (j / 16)

/-- The bits of entry j of row i of a copy that hold something: the other half of a standard entry, and an entry of a deep row outside the
deep groups, read 0 (R110). -/
def seamBits (m : Seam) (i j : Nat) : W32 :=
  if i < nStd m.nvec then (if 2 * i + 1 < m.nvec then 0xFFFFFFFF else 0xFFFF)
  else if m.deep ≠ 0 && decide (i < nStd m.nvec + m.nvec) && !isDeep m j then 0
  else 0xFFFFFFFF

/-- Row i of copy c of a seam read with its errors handled; a row found poisoned poisons the seam (R111, R422). -/
def seamRead (s : State) (k : Nat) (c : Bool) (i : Nat) : List W32 × State :=
  let row := seamRow (seam s k) c i
  let d := accRead s row
  if (accMeta d.2 row).poison then (d.1, updSeam d.2 k fun m => { m with poison := true }) else d

/-- The copy that the COMMITTED view shows in the present slot: in the slot of a commit still the one before it (R111, R112). -/
def viewCopy (s : State) (k : Nat) : Bool :=
  let m := seam s k
  m.cur != (m.flip == s.clk.slot + 1)

/-- The COMMITTED view of row i (R111). -/
def seamCommitted (s : State) (k i : Nat) : List W32 × State := seamRead s k (viewCopy s k) i

/-- The CURRENT view of row i: what the step in progress wrote, and the committed value otherwise (R111). -/
def seamCurrent (s : State) (k i : Nat) : List W32 × State :=
  let d := seamRead s k (seam s k).cur i
  let sh := (seam s k).shadow
  ((natsTo 128).map fun j => (mget sh none (i * 128 + j)).getD (lget d.1 0 j), d.2)

/-- The write of a step carried poison (R113). -/
def seamTaint (s : State) (k : Nat) (bad : Bool) : State :=
  if bad then updSeam s k fun m => { m with shadowBad := true } else s

/-- The step in progress becomes spoil: every write of it is discarded (R112, R26). -/
def seamSpoil (s : State) (k : Nat) : State :=
  updSeam s k fun m => { m with shadow := [], wrBy := [], shadowBad := false }

/-- What vector record `pos` wrote in the step in progress is discarded; the writes of the others stay (R180). -/
def seamForget (s : State) (k pos : Nat) : State :=
  updSeam s k fun m =>
    let l := m.shadow.filter fun e => mget m.wrBy 0 e.1 != pos + 1
    { m with shadow := l, wrBy := m.wrBy.filter fun e => e.2 != pos + 1, shadowBad := m.shadowBad && !l.isEmpty }

/-- A row of a seam written anew as a whole: what it held is gone, and with it POISON and STALE (R92, log 116). -/
def rowFresh (s : State) (row : Nat) : State := setMeta s row { accMeta s row with poison := false, stale := false }

/-- Row i of the new copy: what the step wrote, and the committed value elsewhere, with the errors stored in it and the row's POISON
(R112, R422). -/
def commitRow (k : Nat) (i : Nat) (s : State) : State :=
  let m := seam s k
  let src := seamRow m m.cur i
  let dst := seamRow m (!m.cur) i
  let wrote := fun j => mget m.shadow none (i * 128 + j)
  let keeps := (natsTo 128).any fun j => (wrote j).isNone
  let s := foldTo 128 (fun j s =>
    match wrote j with
    | some v => setEntry s dst j v
    | none => copyEntry s src dst j) s
  setMeta s dst { accMeta s dst with poison := keeps && (accMeta s src).poison, stale := false }

/-- The commit of `n` steps of a seam: the written copy becomes the committed one and SEAM_STEP advances (R112, R158). -/
def seamCommit (s : State) (k n : Nat) : State :=
  let m := seam s k
  let s := foldTo m.nrows (commitRow k) s
  updSeam s k fun m =>
    { m with cur := !m.cur, shadow := [], wrBy := [], shadowBad := false, step := m.step + BitVec.ofNat 32 n, flip := s.clk.slot + 1 }

-- Transfers (R116 to R118, R464).

/-- Whether two bound seams have one row set (R114). -/
def sameRows (a b : Seam) : Bool := a.st != 0 && b.st != 0 && a.base == b.base && a.nrows == b.nrows

/-- Whether a seam holds its rows: states 3 to 7 (R114). -/
def holdsRows (m : Seam) : Bool := decide (3 ≤ m.st) && decide (m.st ≤ 7)

/-- Whether seam k's own eviction has not ended: in RELOAD_WAIT it still holds its rows for it (R114, R116). -/
def ownEvict (s : State) (k : Nat) : Bool := s.acc.xfers.any fun x => x.seam == k && !x.reload

/-- The other seam of k's row set that holds the rows, be it for its own eviction alone (R114). -/
def rowHolder (s : State) (k : Nat) : Option (Nat × Seam) :=
  s.seams.find? fun e => e.1 != k && sameRows e.2 (seam s k) && (holdsRows e.2 || ownEvict s e.1)

/-- A transfer queued (R116). -/
def xferQueue (s : State) (k : Nat) (reload : Bool) : State :=
  { s with acc := { s.acc with xfers := s.acc.xfers ++ [{ seam := k, reload := reload }] } }

/-- The eviction of a RESIDENT seam is requested: it is EVICTING. -/
def startEvict (s : State) (k : Nat) : State := xferQueue (updSeam s k fun m => { m with st := 7 }) k false

/-- The reload of a seam is requested: it is RELOADING. -/
def startReload (s : State) (k : Nat) : State := xferQueue (updSeam s k fun m => { m with st := 3, flip := 0 }) k true

/-- A seam waits for an eviction, in the order of the triggers (R116, R464). -/
def waitReload (s : State) (k : Nat) : State :=
  let s := { s with acc := { s.acc with trigCount := s.acc.trigCount + 1 } }
  updSeam s k fun m => { m with st := 2, trig := s.acc.trigCount }

/-- A reload of seam k triggered (R116). While another seam of the row set is RELOADING the rule names no state; the model puts the
seam in RELOAD_WAIT, and the other's eviction starts when its reload is over (DESIGN CHOICE, log 122). -/
def triggerReload (s : State) (k : Nat) : State :=
  if (seam s k).st = 7 then waitReload s k
  else
    match rowHolder s k with
    | some (h, m) =>
      let s := if m.st = 4 then startEvict s h
        else if m.st = 5 then updSeam s h fun m => { m with st := 6 } else s
      waitReload s k
    | none => startReload s k

/-- A chunk of seam k ends; an eviction that was deferred starts in the next MCLK cycle (R116). -/
def chunkEnd (s : State) (k : Nat) : State :=
  updSeam s k fun m => { m with shadow := [], wrBy := [], shadowBad := false, owner := 0, st := if m.st = 5 then 4 else m.st }

/-- An MCLK cycle: the deferred evictions of seams whose chunk has ended start (R116). -/
def deferTick (s : State) : State :=
  eachS (s.seams.filter fun e => e.2.st == 6 && e.2.owner == 0) (fun e s => startEvict s e.1) s

/-- A chunk of the bench ends: the bench may dispatch the seam again. -/
def benchChunkEnd (s : State) (uid k : Nat) : State :=
  let s := updBench s uid fun b => { b with disp := b.disp.filter (· != k) }
  if (seam s k).owner = uid + 1 then chunkEnd s k else s

/-- The seams in RELOAD_WAIT on a row set: the first triggered reloads, the others return to HOME (R464). -/
def passRows (s : State) (k : Nat) : State :=
  let m := seam s k
  let w := s.seams.filter fun e => e.2.st == 2 && e.2.base == m.base && e.2.nrows == m.nrows
  match w with
  | [] => s
  | x :: r =>
    let first := r.foldl (fun a e => if e.2.trig < a.2.trig then e else a) x
    eachS w (fun e s => if e.1 = first.1 then startReload s e.1 else updSeam s e.1 (fun m => { m with st := 1 })) s

/-- The reload of seam k is over: it is RESIDENT, and evicted again if a seam waits for its rows (log 122). -/
def reloadOver (s : State) (k : Nat) : State :=
  let m := seam s k
  if s.seams.any fun e => e.2.st == 2 && e.2.base == m.base && e.2.nrows == m.nrows then startEvict s k
  else updSeam s k fun m => { m with st := 4 }

/-- The seams in RELOAD_WAIT on an eviction that failed return to HOME (R118). -/
def unwait (s : State) (k : Nat) : State :=
  let m := seam s k
  eachS (s.seams.filter fun e => e.1 != k && e.2.st == 2 && e.2.base == m.base && e.2.nrows == m.nrows)
    (fun e s => updSeam s e.1 (fun m => { m with st := 1 })) s

/-- A seam unbound: its rows and deep groups are returned (R119). -/
def seamUnbind (s : State) (k : Nat) : State := { s with seams := mset s.seams {} k {} }

/-- The layout of a BIND's words (R119, R450). -/
def bindSeam (w : CmdWords) : Seam :=
  let v := fieldN w.w1 24 2 + 1
  let deep := fieldN w.w1 8 8
  let elig := fieldN w.w1 21 3
  { st := 1, sfmt := fieldN w.w1 26 2, nvec := v, nelig := elig, deep := deep
    width := zeroIs 128 (fieldN w.w1 0 7), channel := fieldN w.w2 24 7, nrows := nRowsOf v deep elig
    base := fieldN w.w2 0 10 }

/-- A BIND takes effect: HOME, SEAM_XFER cleared; a rebind keeps SEAM_STEP and the marks POISON, STALE and HELD (R115, R118 to R120). -/
def bindEffect (s : State) (k : Nat) (p : SeamPend) : State :=
  let old := if (seam s k).st = 0 then {} else seam s k
  let m : Seam := { bindSeam p.w with
    step := old.step, poison := old.poison, stale := old.stale, held := old.held, bound := s.seq.nextUid }
  let s := { s with seams := mset s.seams {} k m }
  complete s p.cli 0 0

/-- An eviction that a rebind waits for is over: the binding changes, or the rebind completes with BUSY (R119). A ZERO waits on. -/
def bindAfterEvict (s : State) (k : Nat) (ok : Bool) : State :=
  match (seam s k).pend.filter (·.isBind) with
  | some p =>
    if ok then bindEffect s k p
    else complete (updSeam s k fun m => { m with pend := none }) p.cli 1 0
  | none => s

/-- The transfer at the head of the queue ends (R117, R118, R464). -/
def xferEnd (s : State) (x : Xfer) : State :=
  let k := x.seam
  let s := { s with acc := { s.acc with xfers := s.acc.xfers.drop 1 } }
  let m := seam s k
  if m.closing then
    let s := passRows (updSeam s k fun m => { m with st := 1 }) k
    completeOpt (seamUnbind s k) m.closePend 0
  else if x.reload then
    let s := if x.failed then raise (updSeam s k fun m => { m with poison := true }) 0x12 k
      else updSeam (foldTo m.nrows (fun i s => rowFresh s (seamRow m m.cur i)) s) k fun m =>
        { m with poison := false, stale := false, reloads := satAdd 0xFFFF m.reloads 1 }
    reloadOver s k
  else if x.failed then
    let s := raise (updSeam s k fun m => { m with st := 4 }) 0x12 k
    bindAfterEvict (unwait s k) k false
  else
    let own := m.st == 2
    let s := updSeam s k fun m => { m with st := if own then 2 else 1, evicts := satAdd 0xFFFF m.evicts 1 }
    bindAfterEvict (passRows s k) k true

/-- A response settles a part of the transfer in progress. -/
def xferPart (s : State) (k lines : Nat) (ok : Bool) : State :=
  match s.acc.xfers with
  | x :: r =>
    if x.seam = k && x.started then
      let x := { x with left := x.left - lines, failed := x.failed || !ok }
      let s := { s with acc := { s.acc with xfers := x :: r } }
      if x.left = 0 then xferEnd s x else s
    else s
  | [] => s

/-- The transfer in progress fails at once: a timeout or a reset of the memory port (R118, R299). -/
def xferAbort (s : State) : State :=
  match s.acc.xfers with
  | x :: _ =>
    if x.started then
      let s := dropCand s fun w => match w with | .seam _ => true | _ => false
      xferEnd s { x with failed := true }
    else s
  | [] => s

/-- Lines of a row of a seam as the home holds them: entry 0 at the lowest address (R117). -/
def rowLine (l : List W32) (k : Nat) : BitVec 512 :=
  BitVec.ofNat 512 ((natsTo 16).foldl (fun a i => a + (lget l 0 (16 * k + i)).toNat <<< (32 * i)) 0)

/-- The requests of row i of a transfer: two blocks of four lines; an eviction's carry the committed row, with checks that the writer forms
(R117, R417). -/
def xferRow (k i home : Nat) (reload : Bool) (s : State) : State :=
  let d := if reload then ([], s) else seamRead s k (seam s k).cur i
  let src := fieldN (reg s 0x4400) 0 4
  eachS [0, 1] (fun h s =>
    let ls := if reload then [] else (natsTo 4).map fun q => rowLine d.1 (4 * h + q)
    pushCand s { who := .seam k, write := !reload, addr := (home + 512 * i + 256 * h) % m48, beats := 4, src := src, row := i
                 sec := 0xFF, data := ls, checks := lineChecks ls }) d.2

/-- Whether a row of the committed copy is poisoned. -/
def seamRowBad (s : State) (k : Nat) : Bool :=
  let m := seam s k
  (natsTo m.nrows).any fun i => (accMeta s (seamRow m m.cur i)).poison

/-- The transfer at the head of the queue starts, unless the port is closed (R116, R299). An eviction of a poisoned row
fails at egress (R420). -/
def xferStart (s : State) : State :=
  match s.acc.xfers with
  | x :: r =>
    if x.started || s.memp.closed then s
    else
      let k := x.seam
      let home := (fieldN (reg s 0x4408) 13 19 * 8192 + fieldN (reg s 0x440C) 0 16 * m32 + 8192 * k) % m48
      let n := (seam s k).nrows
      let s := { s with acc := { s.acc with xferSeam := k, xferDir := x.reload
                                            xfers := { x with home := home, left := 8 * n, started := true } :: r } }
      let s := foldTo n (fun i s => xferRow k i home x.reload s) s
      if !x.reload && seamRowBad s k then
        let s := dropCand s fun w => match w with | .seam _ => true | _ => false
        xferEnd (egressFail s k 2) { x with failed := true, started := true }
      else s
  | [] => s

/-- The lines of a reload's answer written to the committed copy (R117). -/
def reloadLines (s : State) (k i home addr : Nat) (ls : List (BitVec 512)) : State :=
  let off := (addr + m48 - home) % m48 / 64 - 8 * i
  foldTo ls.length (fun q s =>
    foldTo 16 (fun w s =>
      let m := seam s k
      let j := 16 * (off + q) + w
      setEntry s (seamRow m m.cur i) j (BitVec.ofNat 32 (fieldN (lget ls 0 q) (32 * w) 32) &&& seamBits m i j)) s) s

-- Dispatch (R115).

/-- Whether seam k is poisoned: its own mark, or a poisoned row of the committed copy while it holds the rows (R118, R422). -/
def seamPoisoned (s : State) (k : Nat) : Bool :=
  let m := seam s k
  m.poison || ((m.st == 2 || m.st == 4 || m.st == 5 || m.st == 6) && seamRowBad s k)

/-- Whether seam k may be dispatched. -/
def seamReady (s : State) (k : Nat) : Bool := (seam s k).st == 4 && !(seam s k).stale && !seamPoisoned s k

/-- Whether one of `n` streams of a record, none of `dead`, uses seam k (R133, R152). -/
def inStreams (seam0 n : Nat) (dead : List Nat) (k : Nat) : Bool :=
  let i := (k + 256 - seam0 % 256) % 256
  decide (i < n) && !dead.contains i

/-- V of a cell (R123). -/
def cellV (cell : Nat) : Nat := if cell % 2 = 0 then 2 else 1

/-- Whether a gate or scan record of the bench names seam k and needs another V than the seam has (R123, R154, R462). -/
def seamMisfit (s : State) (b : Bench) (k : Nat) : Bool :=
  let v := (seam s k).nvec
  b.recs.any fun r =>
    match rf r 0 26 6 with
    | 4 => inStreams (rf r 0 7 8) (zeroIs 64 (rf r 0 15 6)) [] k && v != cellV (rf r 0 21 3)
    | 5 => inStreams (rf r 0 8 8) (zeroIs 64 (rf r 0 16 6)) [] k && v != 1
    | _ => false

/-- Whether a chunk of the bench would be one of the seam's old binding: a BIND waits, or one took effect after the bench had started
(R33). -/
def oldBinding (m : Seam) (b : Bench) : Bool := m.pend.any (·.isBind) || decide (b.uid < m.bound)

/-- Whether a held dispatch triggers a reload (R116): from HOME, or while the seam's own eviction runs. -/
def triggers (m : Seam) : Bool := (m.st == 1 || m.st == 7) && !m.stale && !m.poison

/-- Whether an access of a bench to seam k takes part: its chunk is dispatched, or the access will dispatch it (R115). -/
def takesPart (s : State) (b : Bench) (k : Nat) : Bool :=
  b.disp.contains k || (!b.held.contains k && decide (mget b.skips 0 k = 0) && seamReady s k && !seamMisfit s b k
    && !oldBinding (seam s k) b)

/-- Seam k dispatched by a bench for its record (R115): in a chunk already, a SLOT_SLIP of cause 7; not ready, held, and perhaps a
reload triggered (R116). A chunk of an old binding is held, and triggers nothing (R33). A seam whose V does not fit the bench's
records halts with BAD_FORMAT and is held (R123, R154). A skipped seam of a replay is held with none of these (R235). -/
def dispatch (s : State) (b : Bench) (r : Rec) (k : Nat) : State :=
  if mget b.skips 0 k ≠ 0 then updBench s b.uid fun b => { b with held := b.held ++ [k] }
  else
    let m := seam s k
    let bad := seamMisfit s b k
    let old := oldBinding m b
    let s := if bad then badFormat s b r.pos else s
    if seamReady s k && !bad && !old then
      updBench (updSeam s k fun m => { m with st := 5, held := false, owner := b.uid + 1 }) b.uid fun b =>
        { b with disp := b.disp ++ [k] }
    else
      let s := if m.st = 5 || m.st = 6 then slip s b r 7 0 0 else s
      let s := updSeam s k fun m => { m with held := true }
      let s := if triggers m && !old then triggerReload s k else s
      updBench s b.uid fun b => { b with held := b.held ++ [k] }

/-- An access of a record to seam k: the first one of the bench dispatches it. Answers whether the seam takes part. -/
def seamAccess (s : State) (b : Bench) (r : Rec) (k : Nat) : Bool × State :=
  match benchOf s b.uid with
  | none => (false, s)
  | some b' =>
    if b'.disp.contains k then (true, s)
    else if b'.held.contains k then (false, s)
    else
      let s := dispatch s b' r k
      ((benchOf s b.uid).any (fun x => x.disp.contains k), s)

/-- Whether an unfinished record may still commit seam k: a gate or scan record whose stream of that seam is not over, a vector
record that names the seam. -/
def recNames (r : Rec) (k : Nat) : Bool :=
  !r.fin &&
    (match rf r 0 26 6 with
     | 4 => inStreams (rf r 0 7 8) (zeroIs 64 (rf r 0 15 6)) r.dead k
     | 5 => inStreams (rf r 0 8 8) (zeroIs 64 (rf r 0 16 6)) r.dead k
     | 6 => (rf r 0 16 2 % 2 == 1 && rf r 1 8 8 == k) || (rf r 0 17 1 == 1 && rf r 1 0 8 == k)
     | _ => false)

/-- The chunk of seam k ends with record `pos` unless another record of the bench may still commit it (R112 to R115). -/
def chunkMayEnd (s : State) (uid pos k : Nat) : State :=
  match benchOf s uid with
  | none => s
  | some b => if b.recs.any fun r => r.pos != pos && recNames r k then s else benchChunkEnd s uid k

/-- The writes of a record to seam k that are on their way are dropped. -/
def dropSeamWrites (s : State) (uid pos k : Nat) : State :=
  { s with acc := { s.acc with wq := s.acc.wq.filter fun w => !(w.kind == .seam k && w.uid == uid && w.pos == pos) } }

/-- Deep groups held by bound seams (R109). -/
def deepUsed (s : State) : Nat :=
  s.seams.foldl (fun a e => if e.2.st = 0 then a else a + popcount (BitVec.ofNat 8 e.2.deep) * e.2.nvec) 0

/-- The rows held for the commit of a bench's step of seam k go to the writer (R181). -/
def vstRelease (s : State) (uid k : Nat) : State :=
  { s with vec := { s.vec with vsts := s.vec.vsts.map fun v =>
      if v.uid = uid && v.seams.contains k then { v with seams := v.seams.filter (· != k), due := s.clk.slot } else v } }

/-- The rows held for a bench's step of seam k are discarded with it (R181). -/
def vstDrop (s : State) (uid k : Nat) : State :=
  { s with vec := { s.vec with vsts := s.vec.vsts.filter fun v => !(v.uid == uid && v.seams.contains k) } }

/-- A commit of a bench for a seam counted (R233). -/
def countCommit (s : State) (uid k : Nat) : State :=
  updBench s uid fun b => { b with commits := mupd b.commits 0 k (· + 1) }

end Sys2Proof.Machine
end

