-- ==== Sys2Proof/Machine/Writer.lean ====
section
/-! DEFINITION. The writer: the conversion of output rows and their places in the scratchpad, a ring, a remote window or
external memory (10_scratchpad_and_windows.md, R257, R262, R269; 11_streams_and_memory_port.md, R299). -/
namespace Sys2Proof.Machine

/-- The bytes of a row of elements of a format (R262): little-endian, two INT4 elements to a byte. -/
def packCodes (fmt : Nat) (l : List Nat) : List Byte :=
  if fmt = 1 then
    (natsTo ((l.length + 1) / 2)).map fun i => BitVec.ofNat 8 (lget l 0 (2 * i) % 16 + 16 * (lget l 0 (2 * i + 1) % 16))
  else l.flatMap fun v => bytesLE (fmtBits fmt / 8) v

/-- Element i of a row's bytes in a format (R262). -/
def elemAt (fmt : Nat) (bs : List Byte) (i : Nat) : Nat :=
  if fmt = 1 then ((lget bs 0 (i / 2)).toNat >>> (4 * (i % 2))) % 16
  else ofBytesLE ((bs.drop (fmtBits fmt / 8 * i)).take (fmtBits fmt / 8))

/-- Values converted to a format at the writer, element i drawing in lane i mod 128 (R49, R53, R55): the codes and the flags
of all but those that a wider format holds, which `wide` tells. -/
def convRow (s : State) (b : Bench) (fmt : Nat) (wide : Nat → Bool) (vs : List FVal) : List Nat × Flg × State :=
  let r := (natsTo vs.length).foldl (fun (a : List Nat × Flg × State) i =>
    let x := rnd a.2.2 siteWr (i % 128) fun q => fmtEncode fmt (benchRnd b b.crnd) b.ovfInf q (lget vs FVal.zero i)
    let x := (if wide i then { x.1 with fl := 0 } else x.1, x.2)
    (x.1.bits :: a.1, a.2.1 ||| x.1.fl, x.2)) ([], 0, s)
  (r.1.reverse, r.2.1, r.2.2)

/-- Whether a descriptor's target makes the writer wait: a ring whose next half may not be begun (R257, R261). -/
def writerBlocked (s : State) (b : Bench) (td : Nat) : Bool :=
  tdKind b td == 2 &&
    (let r := ringOf s (tdUnit b td)
     r.en && r.psrc && !r.landing && !rowBegun r r.prod && !mayBegin s (tdUnit b td))

/-- The wait of the writer: DRAIN (R214, R257). -/
def writerFreeze (s : State) (b : Bench) (td : Nat) : State := freezeSpace s (tdUnit b td)

/-- The sectors of a row's bytes, the last filled out with zeros, with fresh checks (R262, R417). -/
def rowSectors (bs : List Byte) : List Sector :=
  (natsTo ((bs.length + 31) / 32)).map fun i =>
    let d : BitVec 256 := BitVec.ofNat 256 (ofBytesLE ((bs.drop (32 * i)).take 32))
    { data := d, check := sectorCheck d }

/-- A row written to ring n at row PROD: cut or filled out to the row's size (R257). -/
def writerRing (s : State) (b : Bench) (pos td : Nat) (bs : List Byte) : State :=
  let n := tdUnit b td
  let r := ringOf s n
  if !r.en || !r.psrc || r.landing then badFormat s b pos
  else
    let s := if rowBegun r r.prod then s else beginHalf s n
    let s := slotWriteBytes s b.uid pos (rowPlace s n r.prod / 32) r.rsize (bs.take (rowBytes r))
    (produceRow s n (tdEp b td)).2

/-- A row written through a window (R269, R271, R317): through a STALE entry it is dropped and counted. -/
def writerWindow (s : State) (b : Bench) (pos td row : Nat) (bs : List Byte) : State :=
  let w := tdUnit b td % 16
  let win := mget s.wins {} w
  if win.mode = 2 && win.peer = 255 then badFormat s b pos
  else if win.stale then { s with wins := mupd s.wins {} w fun x => { x with drops := satAdd 0xFFFFFFFF x.drops 1 } }
  else
    let a := tdAddr b td row
    let off := if a < 0 then m48 else (a / 32).toNat
    let l := rowSectors bs
    match windowGate s w off l.length false with
    | some st => { s with fab := { s.fab with wfails := s.fab.wfails ++ [(w, st, 0)] } }
    | none => sendWindow s w off l.length (tdEp b td) 0 false l

/-- Sector j of a row at external address `a`, as the half of a line. -/
def memLine (l : List Sector) (a line : Nat) : BitVec 512 :=
  let at_ (x : Nat) : BitVec 256 :=
    let k := (x + m48 - a % m48) % m48 / 32
    (lget l {} k).data
  lineOf (at_ line) (at_ (line + 32))

/-- The sector enables of a request for a row of `n` sectors at `a` (R290). -/
def memEnables (a n line beats : Nat) : Nat :=
  (natsTo (2 * beats)).foldl (fun m i =>
    if (line + 32 * i + m48 - a % m48) % m48 / 32 < n then m + 2 ^ i else m) 0

/-- A write of a row to external memory: its requests, one for each block it touches (R290). -/
def memRowReqs (who : MWho) (src a : Nat) (l : List Sector) : List MReq :=
  (reqsOf (a % m48) (32 * l.length)).map fun r =>
    { who := who, write := true, addr := r.1, beats := r.2, src := src, sec := memEnables a l.length r.1 r.2
      data := (natsTo r.2).map fun i => memLine l a ((r.1 + 64 * i) % m48)
      checks := (natsTo (2 * r.2)).map fun i => (lget l {} ((r.1 + 32 * i + m48 - a % m48) % m48 / 32)).check }

/-- A row written to external memory; discarded and counted while the port is closed (R299). -/
def writerMem (s : State) (b : Bench) (td row : Nat) (bs : List Byte) : State :=
  let a := wrapN 48 (tdAddr b td row)
  if s.memp.closed then incReg s 0x01D0 0 32
  else eachS (memRowReqs (.writer (tdSrc b td)) (tdSrc b td) a (rowSectors bs)) (fun r s => pushCand s r) s

/-- Whether an output of the bench that names no stream is one of a held stream's (R115): it goes to a ring that the channel of a held seam
drains, and no seam that the bench has dispatched uses that channel (log 123). -/
def outHeld (s : State) (b : Bench) (td : Nat) : Bool :=
  let b := (benchOf s b.uid).getD b
  tdKind b td == 2 && b.held.any fun k =>
    (curKib (chan s (seam s k).channel)).any (fun x => x.op == 1 && x.ring == tdUnit b td)
      && !b.disp.any fun j => (seam s j).channel == (seam s k).channel

/-- One output row of the writer at its target (R262). The caller has seen that the writer need not wait. -/
def writerOut (s : State) (b : Bench) (pos td row : Nat) (bs : List Byte) : State :=
  match tdKind b td with
  | 1 => slotWriteBytes s b.uid pos (tdSpad s b td row / 32) ((bs.length + 31) / 32) bs
  | 2 => writerRing s b pos td bs
  | 3 => writerWindow s b pos td row bs
  | _ => writerMem s b td row bs

end Sys2Proof.Machine
end

