-- ==== Sys2Proof/Machine/Feed.lean ====
section
/-! DEFINITION. Reads through a descriptor by the row feeders, the derrick and VLD: scratchpad rows, ring rows and remote
windows, with the sector check of each (10_scratchpad_and_windows.md, R251, R256, R269; 17_integrity_and_events.md,
R419, R420). -/
namespace Sys2Proof.Machine

/-- What a read through a descriptor delivers: nothing yet, the tile having begun a freeze; nothing at all; or the row's
bytes, and whether some sector failed its check. -/
inductive Fed where
  | wait
  | nothing
  | row (bs : List Byte) (bad : Bool)
  deriving DecidableEq, Repr

/-- Consecutive sectors read and verified by consumer `cons` (R419, R420). -/
def feedSectors (s : State) (sec cons : Nat) : Nat → List Byte × Bool × State
  | 0 => ([], false, s)
  | n + 1 =>
    let r := slotRead s sec
    let ok := secGood r.1
    let s := if ok then r.2 else checkFail r.2 r.1.poison r.1.uninit cons
    let t := feedSectors s (sec + 1) cons n
    (sectorBytes r.1.data ++ t.1, !ok || t.2.1, t.2.2)

/-- A row of `n` bytes at scratchpad offset `off`. -/
def feedAt (s : State) (off n cons : Nat) : Fed × State :=
  let r := feedSectors s (off / 32) cons ((n + 31) / 32)
  (.row (r.1.take n) r.2.1, r.2.2)

/-- Column of a transposed region as a row of `n` bytes (R251, R252). -/
def feedXpose (s : State) (w : W32) (a n : Nat) (derrick : Bool) (cons : Nat) : Fed × State :=
  let r := xposeRead s w a derrick
  let l := r.1.take n
  let bad := l.any (·.2)
  (.row (l.map fun e => BitVec.ofNat 8 e.1) bad, if bad then checkFail r.2 true false cons else r.2)

/-- A row of `n` bytes of a SPAD descriptor. -/
def feedSpad (s : State) (b : Bench) (td row n : Nat) (derrick : Bool) (cons : Nat) : Fed × State :=
  let a := tdSpad s b td row
  match xposeAt s a with
  | some w => feedXpose s w a n derrick cons
  | none => feedAt s a n cons

/-- The bench notes the highest row it has read of a ring, as one more than the row, plus one (R258). -/
def noteRing (s : State) (uid n q : Nat) : State :=
  let rel := (ringOf s n).rel
  let d := sub32 (q + 1) rel
  updBench s uid fun b =>
    let old := mget b.rings 0 n
    if 2147483648 ≤ d || (old ≠ 0 && decide (d ≤ sub32 (old - 1) rel)) then b
    else { b with rings := mset b.rings 0 n ((q + 1) % m32 + 1) }

/-- Whether a replay skips reads of released rows of a ring (R235). -/
def ringSkipped (b : Bench) (r : Ring) : Bool := r.relmode == 0 && mget b.skips 0 r.seam != 0

/-- Row `row` of a RING descriptor (R256): `n` bytes, or under `strict` BAD_FORMAT if the row is shorter. -/
def feedRing (s : State) (b : Bench) (r : Rec) (td row n : Nat) (strict : Bool) (cons : Nat) : Fed × State :=
  let k := tdUnit b td
  let q := tdSeq b td row
  let g := ringOf s k
  if !g.en || (strict && decide (rowBytes g < n)) then (.nothing, badFormat s b r.pos)
  else
    let get (s : State) : Fed × State := feedAt (noteRing s b.uid k q) (rowPlace s k q) (min n (rowBytes g)) cons
    match rowState s k q with
    | .off => (.nothing, badFormat s b r.pos)
    | .notYet => (.wait, freezeHalf s k q)
    | .released => if ringSkipped b g then (.nothing, s) else get (slip s b r 2 0 0)
    | .full tag => if tag = tdEp b td then get s else get (slip s b r 1 (tdEp b td) tag)

/-- A new read of `n` sectors through import `w`, or its local answer (R269). -/
def startRemote (s : State) (w off n : Nat) : Nat × State :=
  let rd := s.fab.nextRead
  let s := { s with fab := { s.fab with nextRead := rd + 1 } }
  match windowGate s w off n true with
  | some st =>
    let s := updRead s rd fun x => { x with act := true, left := 1 }
    (rd, { s with fab := { s.fab with wfails := s.fab.wfails ++ [(w, st, rd)] } })
  | none => (rd, sendWindow s w off n 0 rd true [])

/-- The sectors of a remote read as they arrived, verified (R419). -/
def remoteSectors (s : State) (x : RRead) (off cons : Nat) : Nat → List Byte × Bool × State
  | 0 => ([], false, s)
  | n + 1 =>
    let c := mget x.got { poison := true } off
    let ok := !c.poison && sectorCheck c.data == c.check
    let s := if ok then s else checkFail s c.poison false cons
    let t := remoteSectors s x (off + 1) cons n
    (sectorBytes c.data ++ t.1, !ok || t.2.1, t.2.2)

/-- Row `row` of a WINDOW descriptor, `n` bytes: the read is sent, a LINK freeze waits for it, and it is delivered (R23,
R269, R271). The record's `m` holds the read. -/
def feedWindow (s : State) (b : Bench) (r : Rec) (td row n cons : Nat) : Fed × State :=
  let a := tdAddr b td row
  let off := if a < 0 then m48 else (a / 32).toNat
  let k := (n + 31) / 32
  let w := mget s.wins {} (tdUnit b td % 16)
  if w.mode = 2 && w.peer = 255 then (.nothing, badFormat s b r.pos)
  else if r.m = 0 then
    let x := startRemote s (tdUnit b td % 16) off k
    (.wait, freezeRemote (updRec x.2 b.uid r.pos fun r => { r with m := x.1 }) x.1)
  else
    let x := mget s.fab.reads {} r.m
    if x.left ≠ 0 then (.wait, freezeRemote s r.m)
    else
      let t := remoteSectors s x off cons k
      let s := { t.2.2 with fab := { t.2.2.fab with reads := mset t.2.2.fab.reads {} r.m {} } }
      (.row (t.1.take n) t.2.1, updRec s b.uid r.pos fun r => { r with m := 0 })

/-- Row `row` of a descriptor of kind SPAD, RING or WINDOW. -/
def feedRow (s : State) (b : Bench) (r : Rec) (td row n : Nat) (strict derrick : Bool) (cons : Nat) : Fed × State :=
  match tdKind b td with
  | 1 => feedSpad s b td row n derrick cons
  | 2 => feedRing s b r td row n strict cons
  | _ => feedWindow s b r td row n cons

end Sys2Proof.Machine
end

