-- ==== Sys2Proof/Machine/Lane.lean ====
section
/-! DEFINITION. Arithmetic in a lane of a rounding site: the generator and the flags carried from operation to operation
(02_number_formats.md, R49 to R57). -/
namespace Sys2Proof.Machine

/-- A lane at work: its generator, the flags so far, and the rounding and range rule in force (R49, R56). -/
structure LaneSt where
  g : W32
  fl : Flg := 0
  md : RMode := .rne
  oi : Bool := false
  deriving DecidableEq, Repr

/-- A computation in a lane. -/
abbrev LaneM := StateM LaneSt

/-- One rounding in a lane: it draws if it discards bits under SR (R51, R53). -/
def laneRound (f : RMode → Bool → Nat → NumR) : LaneM W32 := fun t =>
  let g := lfsrDraw t.g
  let r := f t.md t.oi (g.toNat % 65536)
  (BitVec.ofNat 32 r.bits, { t with g := if r.drew then g else t.g, fl := t.fl ||| r.fl })

/-- Flags set by a lane without a rounding. -/
def laneFlag (f : Flg) : LaneM Unit := fun t => ((), { t with fl := t.fl ||| f })

/-- binary32 addition in a lane. -/
def lAdd (a b : W32) : LaneM W32 := laneRound fun md oi q => f32Add md oi q a b
/-- binary32 subtraction in a lane. -/
def lSub (a b : W32) : LaneM W32 := laneRound fun md oi q => f32Sub md oi q a b
/-- binary32 multiplication in a lane. -/
def lMul (a b : W32) : LaneM W32 := laneRound fun md oi q => f32Mul md oi q a b
/-- Conversion of a value to binary32 in a lane (R55). -/
def lCvt32 (x : FVal) : LaneM W32 := laneRound fun md oi q => fmtEncode 7 md oi q x

/-- Run a computation in lane `l` of a site under a rounding and range rule. -/
def runLane {α : Type} (s : State) (site l : Nat) (md : RMode) (oi : Bool) (f : LaneM α) : α × Flg × State :=
  let g := genOf s site l
  let r := f ⟨g, 0, md, oi⟩
  (r.1, r.2.fl, if r.2.g = g then s else { s with gen := mset s.gen 0 (site * 128 + l) r.2.g })

/-- Run a computation in lanes 0 to `n` − 1 of a site, in order. -/
def runLanes {α : Type} (s : State) (site n : Nat) (md : RMode) (oi : Bool) (f : Nat → LaneM α) : List α × Flg × State :=
  let r := (natsTo n).foldl (fun (a : List α × Flg × State) l =>
    let x := runLane a.2.2 site l md oi (f l)
    (x.1 :: a.1, a.2.1 ||| x.2.1, x.2.2)) ([], 0, s)
  (r.1.reverse, r.2.1, r.2.2)

/-- The format code of a seam's standard entries (R109). -/
def sfmtCode (m : Seam) : Nat := if m.sfmt = 1 then 6 else 4

/-- The binary32 code of a value of a 16-bit format, which it holds exactly (R55). -/
def widen (fmt code : Nat) : W32 := BitVec.ofNat 32 (fmtEncode 7 .rne false 0 (fmtDecode fmt code)).bits

/-- The standard code of channel j of vector v in rows of standard entries (R110). -/
def stdCode (row : List W32) (v j : Nat) : Nat := fieldN (lget row 0 j) (16 * (v % 2)) 16

/-- A value converted to a format; `wide` tells that it comes from a format which the target holds exactly, so that no flag is set
(R55). -/
def fmtConv (wide : Bool) (fmt : Nat) (md : RMode) (oi : Bool) (q : Nat) (x : FVal) : NumR :=
  let r := fmtEncode fmt md oi q x
  if wide then { r with fl := 0 } else r

/-- Channel l of a feedback vector before its conversion: an integer format scales the standard value; binary32 takes a
deep channel's own value (R128). -/
def fbValue (m : Seam) (fmt std : Nat) (deep : W32) (l : Nat) : FVal :=
  if fmt = 7 && isDeep m l then f32 deep
  else
    let x := fmtDecode (sfmtCode m) std
    if fmtIsInt fmt then (mulX x (FVal.ofInt (2 ^ (fmtBits fmt - 1) - 1))).1 else x

/-- A state vector converted to the elements that feed the array (R128): `std` the standard codes and `deep` the binary32
values of its channels. Site and rounding as given. -/
def fbVector (s : State) (b : Bench) (site : Nat) (m : Seam) (fmt : Nat) (std : List Nat) (deep : List W32) :
    List Nat × Flg × State :=
  let r := runLanes s site m.width (benchRnd b b.crnd) b.ovfInf fun l =>
    laneRound fun md oi q => fmtConv (fmt == 7 && !isDeep m l) fmt md oi q (fbValue m fmt (lget std 0 l) (lget deep 0 l) l)
  let l := r.1.map BitVec.toNat ++ List.replicate (128 - m.width) 0
  let l := if fmt = 1 then (natsTo 64).map fun i => lget l 0 (2 * i) % 16 + 16 * (lget l 0 (2 * i + 1) % 16) else l
  (l, r.2.1, r.2.2)

end Sys2Proof.Machine
end

