-- ==== Sys2Proof/Machine/GateOps.lean ====
section
/-! DEFINITION. The gate pipe: gate tables, the cell equations, the slots of a step, the audit, feedback and commit
(05_recurrent_cells.md, R123 to R148, R458, R462). -/
namespace Sys2Proof.Machine

-- Tables (R129 to R131).

/-- A coefficient of a gate table: written or built in; none where its word fails its parity (R423). -/
def gateCoefAt (s : State) (tanh bank : Bool) (k c : Nat) : Option W32 :=
  let key := b2n tanh * 512 + b2n bank * 256 + 4 * k + c
  if s.gate.badTbl.contains key then none
  else some ((mget s.gate.tbl none key).getD (gateBuilt tanh k c))

/-- An operation of the tables: nearest even whatever ARND is; a NaN it meets is the table's own (R129). -/
def lRne (x : FVal × Flg) : LaneM W32 :=
  laneRound fun _ oi q => let r := arith32 .rne oi q x; { r with fl := r.fl &&& ~~~fNAN }

/-- binary32 one. -/
def f32One : W32 := 0x3F800000#32
/-- The canonical NaN of binary32 (R42). -/
def f32Nan : W32 := 0x7FC00000#32

/-- ⌊m × 2^e⌋. -/
def floorPow (m : Nat) (e : Int) : Nat := if 0 ≤ e then m <<< e.toNat else m >>> (-e).toNat

/-- clamp(p, 0.0, 1.0); a NaN stays (R129). -/
def clamp01 (p : W32) : W32 :=
  if ltX (f32 p) FVal.zero then 0 else if ltX (FVal.ofInt 1) (f32 p) then f32One else p

/-- c0 + t × (c1 + t × c2). -/
def poly2 (t c0 c1 c2 : W32) : LaneM W32 := do
  let a ← lRne (mulX (f32 t) (f32 c2))
  let a ← lRne (addX (f32 c1) (f32 a))
  let a ← lRne (mulX (f32 t) (f32 a))
  lRne (addX (f32 c0) (f32 a))

/-- Segment k of a table at t; a word that fails its parity gives NaN and INV (R423). -/
def segPoly (coef : Nat → Nat → Option W32) (k : Nat) (t : W32) : LaneM W32 :=
  match coef k 0, coef k 1, coef k 2 with
  | some c0, some c1, some c2 => do
    let p ← poly2 t c0 c1 c2
    if (f32 p).isNan then do laneFlag fINV; return f32Nan else return p
  | _, _, _ => do laneFlag (fINV ||| fPAR); return f32Nan

/-- The magnitude part of sig and tnh: 64 segments of width 2^-w, beyond them 1.0, clamped (R129). -/
def gateSeg (coef : Nat → Nat → Option W32) (w : Int) (a : W32) : LaneM W32 :=
  match f32 a with
  | .nan => do laneFlag fNAN; return f32Nan
  | .inf _ => return f32One
  | .fin _ m e =>
    let k := floorPow m (e + w)
    if 64 ≤ k then return f32One
    else do
      let t ← lRne (addX (.fin false m e) (.fin true k (-w)))
      let p ← segPoly coef k t
      return clamp01 p

/-- sig (R129). -/
def gateSig (coef : Nat → Nat → Option W32) (a : W32) : LaneM W32 := do
  let p ← gateSeg coef 2 a
  if (f32 p).isNan then return p
  else if ltX (f32 a) FVal.zero then lRne (addX (FVal.ofInt 1) (f32 p).negate)
  else return p

/-- tnh (R129). -/
def gateTnh (coef : Nat → Nat → Option W32) (a : W32) : LaneM W32 := do
  let p ← gateSeg coef 3 a
  if (f32 p).isNan then return p
  else return (putN p 31 1 (b2n (f32 a).sign))

-- The record (R123, R133, R224).

/-- P of a cell (R123). -/
def cellP (cell : Nat) : Nat := match cell with | 0 => 4 | 1 => 3 | 2 => 3 | _ => 2
/-- G_CELL. -/
def gCell (r : Rec) : Nat := rf r 0 21 3
/-- G_N. -/
def gN (r : Rec) : Nat := zeroIs 64 (rf r 0 15 6)
/-- Stream k's seam. -/
def gSeam (r : Rec) (k : Nat) : Nat := (rf r 0 7 8 + k) % 256
/-- G_STRIDE. -/
def gStride (r : Rec) : Nat := zeroIs 16 (rf r 0 3 4)
/-- G_ISSUE. -/
def gIssue (r : Rec) : Nat := rf r 1 16 16
/-- G_RWRAP. -/
def gWrap (r : Rec) : Nat := zeroIs 256 (rf r 1 2 8)
/-- Rows of the parameter block that are read (R135). -/
def gParRows (r : Rec) : Nat := if gCell r = 1 then 10 else 3 * cellP (gCell r)
/-- The i-th row of the parameter block that is read, as a row of the block. -/
def gParRow (r : Rec) (i : Nat) : Nat := if i < 3 * cellP (gCell r) then i else 12
/-- The slot of the start of stream k (R136). -/
def gDue (b : Bench) (r : Rec) (k : Nat) : Nat := b.start + gIssue r + k * gStride r
/-- Row i of the held parameter block, lane l. -/
def gPar (r : Rec) (i l : Nat) : W32 := lget (lget r.par [] i) 0 l

-- The step in lane l (R124, R125).

/-- A row's entry as the gate pipe takes it: an int32 one converted under ARND (R124). -/
def gOperand (row : Nat × List W32) (l : Nat) : LaneM W32 :=
  if row.1 = 1 then lCvt32 (FVal.ofInt (i32 (lget row.2 0 l))) else return (lget row.2 0 l)

/-- u_j and v_j of gate j in lane l (R124). -/
def gUV (r : Rec) (t : GateStep) (j l : Nat) : LaneM (W32 × W32) := do
  let x ← if rf r 2 17 1 = 1 then pure 0#32 else gOperand (lget t.xs (0, []) j) l
  let rr ← gOperand (lget t.rs (0, []) j) l
  let u ← lMul (gPar r (3 * j + 1) l) rr
  let v ← lMul (gPar r (3 * j + 2) l) x
  return (u, v)

/-- The pre-activation of a gate other than the GRU's n gate (R124). -/
def gPre (r : Rec) (t : GateStep) (j l : Nat) : LaneM W32 := do
  let (u, v) ← gUV r t j l
  let a ← lAdd u v
  lAdd a (gPar r (3 * j) l)

/-- The pre-activations of a lane; of the GRU's n gate the two parts v_n + b_n and u_n + bhn (R124). -/
def gPres (r : Rec) (t : GateStep) (l : Nat) : LaneM (List W32) := do
  let a0 ← gPre r t 0 l
  let a1 ← gPre r t 1 l
  match gCell r with
  | 0 =>
    let a2 ← gPre r t 2 l
    let a3 ← gPre r t 3 l
    return [a0, a1, a2, a3]
  | 1 =>
    let (u, v) ← gUV r t 2 l
    let vb ← lAdd v (gPar r 6 l)
    let ub ← lAdd u (gPar r 9 l)
    return [a0, a1, vb, ub]
  | 2 =>
    let a2 ← gPre r t 2 l
    return [a0, a1, a2]
  | _ => return [a0, a1]

/-- The gates of a lane from its pre-activations `a` (R124, R125); the audit's second evaluation uses them too (R148). -/
def gGates (sig tnh : W32 → LaneM W32) (r : Rec) (a : List W32) : LaneM (List W32) := do
  let a (i : Nat) : W32 := lget a 0 i
  match gCell r with
  | 0 =>
    let i ← sig (a 0)
    let f ← sig (a 1)
    let g ← tnh (a 2)
    let o ← sig (a 3)
    return [i, f, g, o]
  | 1 =>
    let rr ← sig (a 0)
    let p ← lMul rr (a 3)
    let an ← lAdd (a 2) p
    let z ← sig (a 1)
    let n ← tnh an
    return [z, n]
  | 2 =>
    let f ← sig (a 0)
    let g ← tnh (a 1)
    let o ← sig (a 2)
    return [f, g, o]
  | _ =>
    let z ← sig (a 0)
    let n ← tnh (a 1)
    return [z, n]

/-- The new recurrent vector from the gates and the previous one, `p` (R125). -/
def gRecur (r : Rec) (gs : List W32) (p : W32) : LaneM W32 := do
  let g (i : Nat) : W32 := lget gs 0 i
  match gCell r with
  | 0 =>
    let a ← lMul (g 1) p
    let b ← lMul (g 0) (g 2)
    lAdd a b
  | 1 =>
    let d ← lSub p (g 1)
    let m ← lMul (g 0) d
    lAdd (g 1) m
  | 2 =>
    let d ← lSub p (g 1)
    let m ← lMul (g 0) d
    lAdd (g 1) m
  | _ =>
    let d ← lSub (g 1) p
    let m ← lMul (g 0) d
    lAdd p m

/-- The previous value of channel l of vector v: the deep row's for a deep channel of the vector read, else the standard
entry's, widened exactly (R126). -/
def gPrev (m : Seam) (t : GateStep) (v l : Nat) : W32 :=
  if isDeep m l then lget t.deep 0 l else widen (sfmtCode m) (stdCode t.std v l)

/-- A value converted to a seam's standard format (R127). -/
def lStd (b : Bench) (m : Seam) (x : W32) : LaneM Nat := do
  let w ← laneRound fun _ oi q => fmtEncode (sfmtCode m) (benchRnd b b.crnd) oi q (f32 x)
  return w.toNat

-- The slots of a step (R136).

/-- A step of the gate pipe changed by `f`. -/
def updStep (s : State) (t : GateStep) (f : GateStep → GateStep) : State :=
  { s with gate := { s.gate with steps := s.gate.steps.map fun x =>
      if x.uid = t.uid && x.pos = t.pos && x.k = t.k then f x else x } }

/-- The step in flight of stream k of a record. -/
def stepOf (s : State) (uid pos k : Nat) : Option GateStep :=
  s.gate.steps.find? fun x => x.uid == uid && x.pos == pos && x.k == k

/-- The feedback of a step that is discarded is taken back: the entry holds the previous step's value again (R26). -/
def fbUndo (s : State) (uid pos k : Nat) : State :=
  match recOf s uid pos, stepOf s uid pos k with
  | some (b, r), some t =>
    let e := tdFb b (rf r 3 26 6) k
    let f := mget s.gate.fb {} e
    if f.has && f.g == t.g && f.uid == uid then
      { s with gate := { s.gate with fb := mset s.gate.fb {} e { has := f.oldHas, new := f.old } } }
    else s
  | _, _ => s

/-- The step of stream k becomes spoil: its writes are dropped, its chunk may end, and it does nothing more (R26, R458). -/
def gateSpoil (s : State) (uid pos k seam : Nat) : State :=
  let s := fbUndo s uid pos k
  let s := { s with gate := { s.gate with steps := s.gate.steps.filter fun x =>
    !(x.uid == uid && x.pos == pos && x.k == k) } }
  let s := updRec (noteSpoil s uid) uid pos fun r => { r with dead := r.dead ++ [k] }
  let s := vstDrop (seamSpoil (dropSeamWrites s uid pos seam) seam) uid seam
  chunkMayEnd s uid pos seam

/-- Rows read for a step, checked under R98 and for their format; a lost port makes the step spoil (R124, R458). -/
def gateRows (s : State) (b : Bench) (r : Rec) (rows : List Nat) (expect : Nat) :
    Option (List (Nat × List W32)) × State :=
  rows.foldl (fun (a : Option (List (Nat × List W32)) × State) row =>
    match a.1 with
    | none => a
    | some l =>
      let x := rowRead a.2 b r row expect
      match x.1 with
      | none => (none, x.2)
      | some (d, m) =>
        let s := if (metaSlip m expect).isNone && m.fmt ≠ 1 && m.fmt ≠ 4 then slip x.2 b r 3 0 0 else x.2
        (some (l ++ [(m.fmt, d)]), s)) (some [], s)

/-- Row i of a seam's committed view through the read port: a poisoned row taints the step (R111, R113). -/
def seamPortRead (s : State) (b : Bench) (r : Rec) (k i : Nat) : Option (List W32) × State :=
  let t := takeRead s 1
  if t.1 then
    let d := seamCommitted t.2 k i
    (some d.1, seamTaint d.2 k (accMeta d.2 (seamRow (seam d.2 k) (viewCopy d.2 k) i)).poison)
  else (none, slip s b r 4 0 0)

/-- Slot g + 2: the standard row, and the deep row of the recurrent vector. -/
def gateSeamRows (s : State) (b : Bench) (r : Rec) (t : GateStep) : State :=
  let m := seam s t.seam
  let x := seamPortRead s b r t.seam 0
  match x.1 with
  | none => gateSpoil x.2 t.uid t.pos t.k t.seam
  | some std =>
    let s := updStep x.2 t fun t => { t with std := std }
    if m.deep = 0 then s
    else
      let y := seamPortRead s b r t.seam (nStd m.nvec + (cellV (gCell r) - 1))
      match y.1 with
      | none => gateSpoil y.2 t.uid t.pos t.k t.seam
      | some d => updStep y.2 t fun t => { t with deep := d }

/-- The audit's reference row. -/
def gAudRow (b : Bench) (r : Rec) : Nat := tdAcc b (rf r 3 6 6) 0

/-- The epoch of the reference that belongs to step n of the seam. With EREL = 1 of G_AUD_TD, BEP is added, as R229 says of G_AUD_TD's
reference, though R148 names SEAM_STEP alone (DESIGN CHOICE, log 124). -/
def gAudEp (b : Bench) (r : Rec) (n : Nat) : Nat := effEp b (rf r 3 6 6) (n % 16)

/-- Slot g + 3: the audit's reference row; one that does not hold the expected reference starts the audit (R148). -/
def gateAudRead (s : State) (b : Bench) (r : Rec) (t : GateStep) : State :=
  let x := takeRead s 1
  if x.1 then
    let p := pickCopy x.2 (gAudRow b r)
    let d := accRead p.2 p.1
    let m := accMeta d.2 p.1
    if m.fmt = 4 && m.epoch = gAudEp b r (seam s t.seam).step.toNat then updStep d.2 t fun t => { t with aud := some d.1 }
    else d.2
  else updStep (slip s b r 4 0 0) t fun t => { t with audit := false }

/-- A seam row's write put on its way. -/
def pushSeam (s : State) (t : GateStep) (i : Nat) (lanes : List (Option W32)) : State :=
  pushWrite s { due := s.clk.slot, row := i, kind := .seam t.seam, uid := t.uid, pos := t.pos, lanes := lanes, md := {}, k := t.k }

/-- Lanes of a deep row: the deep channels of a vector. -/
def deepLanes (m : Seam) (v : List W32) : List (Option W32) :=
  (natsTo 128).map fun l => if l < m.width && isDeep m l then some (lget v 0 l) else none

/-- The row of the audit written, stamped one step ahead (R148). -/
def gateAudWrite (s : State) (b : Bench) (r : Rec) (t : GateStep) (ref : List W32) : State :=
  let m := seam s t.seam
  let w : AccWrite := { due := s.clk.slot, row := gAudRow b r, kind := .row, uid := t.uid, pos := t.pos
                        lanes := ref.map some, k := t.k
                        md := { fmt := 4, epoch := gAudEp b r (m.step.toNat + 1), stale := false } }
  pushWrite s w

/-- The standard codes of the recurrent vector after a resynchronisation: r′ for every channel that is not deep (R148). -/
def gateResync (s : State) (b : Bench) (m : Seam) (codes : List Nat) (ref : List W32) : List Nat × Flg × State :=
  runLanes s siteGate m.width (benchRnd b b.crnd) b.ovfInf fun l =>
    if isDeep m l then pure (lget codes 0 l) else lStd b m (lget ref 0 l)

/-- Parity failures met by lanes are reported (R423). -/
def lanePar (s : State) (fl : Flg) (mem : Nat) : State := if fl &&& fPAR = 0 then s else ramParity s mem

/-- A stage of a step in the 128 lanes of the pipe under ARND, with the flags in GP_STICKY and the parity failures that its lanes met
(R124, R125, R423). -/
def gateStage (s : State) (b : Bench) (t : GateStep) (f : Nat → LaneM W32) (put : List W32 → GateStep → GateStep) : State :=
  let x := runLanes s siteGate 128 (benchRnd b b.arnd) b.ovfInf f
  updStep (lanePar (stick x.2.2 0x5C04 x.2.1 0x1F) x.2.1 4) t (put x.1)

/-- The same for a stage that forms several values in each lane. -/
def gateStages (s : State) (b : Bench) (t : GateStep) (f : Nat → LaneM (List W32))
    (put : List (List W32) → GateStep → GateStep) : State :=
  let x := runLanes s siteGate 128 (benchRnd b b.arnd) b.ovfInf f
  updStep (lanePar (stick x.2.2 0x5C04 x.2.1 0x1F) x.2.1 4) t (put x.1)

/-- Slot g + 5, the last of the pre-activations. -/
def gatePre (s : State) (b : Bench) (r : Rec) (t : GateStep) : State :=
  gateStages s b t (gPres r t) fun l t => { t with pre := l }

/-- Slot g + 9, the last of the gate tables. -/
def gateTables (s : State) (b : Bench) (r : Rec) (t : GateStep) : State :=
  gateStages s b t (fun l => gGates (gateSig (gateCoefAt s false t.bankS)) (gateTnh (gateCoefAt s true t.bankT)) r (lget t.pre [] l))
    fun l t => { t with gs := l }

/-- Slot g + 11, the last of the recurrent vector's update, and of the audit's second evaluation (R148). -/
def gateRecur (s : State) (b : Bench) (r : Rec) (t : GateStep) : State :=
  let m := seam s t.seam
  let p (l : Nat) : W32 := gPrev m t (b2n (cellV (gCell r) == 2)) l
  let s := gateStage s b t (fun l => gRecur r (lget t.gs [] l) (p l)) fun l t => { t with c := l }
  if t.audit then
    gateStage s b t (fun l => gRecur r (lget t.gs [] l) (match t.aud with | some a => lget a 0 l | none => p l))
      fun l t => { t with ref := l }
  else s

/-- Slot g + 15, the last of tnh(c). -/
def gateTanh (s : State) (b : Bench) (r : Rec) (t : GateStep) : State :=
  if cellV (gCell r) = 2 then
    gateStage s b t (fun l => gateTnh (gateCoefAt s true t.bankT) (lget t.c 0 l)) fun l t => { t with y := l }
  else s

/-- Slot g + 16: h is formed; the deep row of the recurrent vector and the reference are written. -/
def gateForm (s : State) (b : Bench) (r : Rec) (t : GateStep) : State :=
  let m := seam s t.seam
  let s := if cellV (gCell r) = 2 then
      gateStage s b t (fun l => lMul (lget (lget t.gs [] l) 0 (if gCell r = 0 then 3 else 2)) (lget t.y 0 l)) fun l t => { t with h := l }
    else updStep s t fun t => { t with h := t.c }
  let s := if m.deep = 0 then s else pushSeam s t (nStd m.nvec + (cellV (gCell r) - 1)) (deepLanes m t.c)
  if t.audit then gateAudWrite s b r t t.ref else s

/-- Drift of channel l in units of q, by the SFMT's unit in the last place at r′ (R148): the difference rounded to nearest even, with no
flag and no draw, as the rule names no mode (DESIGN CHOICE, log 124). The manual states none where either value is no number (free
value, log 4). -/
def driftOf (s : State) (m : Seam) (std : Nat) (ref : W32) : Nat :=
  match (addX (fmtDecode (sfmtCode m) std) (f32 ref).negate).1, f32 ref, ffOf (sfmtCode m) with
  | .fin n dm de, .fin _ rm re, some f =>
    let d := arith32 .rne false 0 (.fin n dm de, 0)
    match f32 (BitVec.ofNat 32 d.bits) with
    | .fin _ a e => floorPow a (e - (if rm = 0 then f.emin else roundPoint f rm re))
    | _ => 0xFFFF
  | .inf _, _, _ => 0xFFFF
  | _, _, _ => (Config.freeWord s.free).toNat % 65536

/-- The largest drift of the channels below W and the lowest channel that has it (R148). -/
def worstDrift (s : State) (m : Seam) (codes : List Nat) (ref : List W32) : Nat × Nat :=
  (natsTo m.width).foldl (fun (a : Nat × Nat) l =>
    let d := driftOf s m (lget codes 0 l) (lget ref 0 l)
    if a.1 < d then (d, l) else a) (0, 0)

/-- A measurement of the audit kept in GP_AUDIT_MAX, counted, and STATE_DRIFT raised at the first value over the limit
(R148). -/
def gateMeasure (s : State) (t : GateStep) (codes : List Nat) : State :=
  let m := seam s t.seam
  let d := worstDrift s m codes t.ref
  let s := { s with free := s.free + 1 }
  let v := min 0xFFFF d.1
  let old := reg s 0x5C18
  let valid := bitB old 31
  let lim := regF s 0x5C00 8 8
  let before := valid && s.gate.drifted
  let above := lim ≠ 0 && decide (lim < d.1)
  let s := { s with gate := { s.gate with drifted := before || above } }
  let s := if valid then incReg s 0x5C1C 0 32 else setReg s 0x5C1C 1
  let s := if valid && decide (v ≤ fieldN old 0 16) then s
    else logReg s 0x5C18 (BitVec.ofNat 32 (2147483648 + d.2 % 128 * 16777216 + t.seam % 256 * 65536 + v))
  if above && !before then raise s 0x0B t.seam else s

/-- The standard row's lanes: h in the low half and, for a cell with two vectors, c in the high half (R110, R127). -/
def stdLanes (m : Seam) (hs cs : List Nat) : List (Option W32) :=
  (natsTo 128).map fun l =>
    if l < m.width then some (BitVec.ofNat 32 (lget hs 0 l + 65536 * lget cs 0 l)) else none

/-- The standard codes of the new vectors: h's, and c's of a cell with two vectors (R127). -/
def gateStd (s : State) (b : Bench) (r : Rec) (m : Seam) (t : GateStep) : List (Nat × Nat) × Flg × State :=
  runLanes s siteGate m.width (benchRnd b b.crnd) b.ovfInf fun l => do
    let h ← lStd b m (lget t.h 0 l)
    let c ← if cellV (gCell r) = 2 then lStd b m (lget t.c 0 l) else pure 0
    return (h, c)

/-- Slot g + 17: the new vectors are converted; the audit measures and may resynchronise; the standard row and the deep h row are written. -/
def gateWrite (s : State) (b : Bench) (r : Rec) (t : GateStep) : State :=
  let m := seam s t.seam
  let lstm := cellV (gCell r) == 2
  let z := gateStd s b r m t
  let s := stick z.2.2 0x5C04 z.2.1 0x1F
  let t := { t with hs := z.1.map (·.1), cs := z.1.map (·.2) }
  let codes := if lstm then t.cs else t.hs
  let s := if t.audit && t.aud.isSome then gateMeasure s t codes else s
  let x := if t.audit && rf r 3 18 2 == 2 then gateResync s b m codes t.ref else (codes, 0, s)
  let s := stick x.2.2 0x5C04 x.2.1 0x1F
  let t := if lstm then { t with cs := x.1 } else { t with hs := x.1 }
  let s := updStep s t fun _ => t
  let s := pushSeam s t 0 (stdLanes m t.hs t.cs)
  if lstm && m.deep ≠ 0 then pushSeam s t (nStd m.nvec) (deepLanes m t.h) else s

/-- Slot g + 23: h converted and moved to the feedback buffer entry, where it is seen from g + 24 (R128, R138). -/
def gateFeedback (s : State) (b : Bench) (r : Rec) (t : GateStep) : State :=
  let m := seam s t.seam
  let x := fbVector s b siteGate m (rf r 2 3 4) t.hs t.h
  let s := stick x.2.2 0x5C04 x.2.1 0x1F
  let e := tdFb b (rf r 3 26 6) t.k
  let f := mget s.gate.fb {} e
  let n : FbEntry := { has := true, old := f.new, oldHas := f.has, new := x.1, g := t.g, uid := t.uid
                       grow := tdAcc b (rf r 1 10 6) 0 }
  { s with gate := { s.gate with fb := mset s.gate.fb {} e n } }

/-- Slot g + 24, the first of the commit window: a step that wrote poison halts its bench and becomes spoil (R113). -/
def gateCheck (s : State) (b : Bench) (r : Rec) (t : GateStep) : State :=
  if (seam s t.seam).shadowBad then gateSpoil (reqHalt s 4 b r.pos) t.uid t.pos t.k t.seam else s

/-- What a step does in slot x (R136): a stage of several slots in the last of them (DESIGN CHOICE, log 124). -/
def gateSlot (s : State) (t : GateStep) (x : Nat) : State :=
  match recOf s t.uid t.pos with
  | none => s
  | some (b, r) =>
    let p := cellP (gCell r)
    let keep (y : Option (List (Nat × List W32)) × State) (f : List (Nat × List W32) → GateStep → GateStep) : State :=
      match y.1 with
      | some l => updStep y.2 t (f l)
      | none => gateSpoil y.2 t.uid t.pos t.k t.seam
    if x = t.g then
      if rf r 2 17 1 = 1 then s
      else keep (gateRows s b r ((natsTo p).map fun j => tdAcc b (rf r 2 22 6) (t.k * p + j))
        (effEp b (rf r 2 22 6) (rf r 2 18 4))) fun l t => { t with xs := l }
    else if x = t.g + 1 then
      keep (gateRows s b r ((natsTo p).map fun j => tdAcc b (rf r 1 10 6) ((t.k * p + j) % gWrap r))
        (effEp b (rf r 1 10 6) (rf r 2 28 4))) fun l t => { t with rs := l }
    else if x = t.g + 2 then gateSeamRows s b r t
    else if x = t.g + 3 && t.audit then gateAudRead s b r t
    else if x = t.g + 5 then gatePre s b r t
    else if x = t.g + 9 then gateTables s b r t
    else if x = t.g + 11 then gateRecur s b r t
    else if x = t.g + 15 then gateTanh s b r t
    else if x = t.g + 16 then gateForm s b r t
    else if x = t.g + 17 then gateWrite s b r t
    else if x = t.g + 23 then gateFeedback s b r t
    else if x = t.g + 24 then gateCheck s b r t
    else s

-- Parameters, starts and commits.

/-- The next row of a record's parameter block (R135); a lost read leaves the block incomplete (R458). -/
def gateParam (s : State) (b : Bench) (r : Rec) : State :=
  let x := rowRead s b r (tdAcc b (rf r 2 11 6) (gParRow r r.par.length)) (effEp b (rf r 2 11 6) (rf r 2 7 4))
  match x.1 with
  | some (d, _) => updRec x.2 b.uid r.pos fun r => { r with par := r.par ++ [d] }
  | none => updRec x.2 b.uid r.pos fun r => { r with par := r.par ++ [[]], lost := true }

/-- Stream k of a record does nothing in this bench: held or skipped (R115, R462). -/
def gateDead (s : State) (b : Bench) (r : Rec) (k : Nat) : State :=
  updRec s b.uid r.pos fun r => { r with n := k + 1, dead := if r.dead.contains k then r.dead else r.dead ++ [k] }

/-- The start of stream k (R136, R137, R462). A start that is not performed for its spacing has dispatched the chunk, and a held
stream's start does not count for the spacing (DESIGN CHOICE, log 124). -/
def gateStart (s : State) (b : Bench) (r : Rec) : State :=
  let k := r.n
  let sm := gSeam r k
  let slot := s.clk.slot
  let a := seamAccess s b r sm
  if !a.1 then gateDead a.2 b r k
  else
    let s := updRec a.2 b.uid r.pos fun r => { r with n := k + 1 }
    if s.gate.hasLast && decide (slot < s.gate.lastStart + s.gate.lastP) then
      gateSpoil (slip s b r 4 0 0) b.uid r.pos k sm
    else
      let s := { s with gate := { s.gate with hasLast := true, lastStart := slot, lastP := cellP (gCell r) } }
      if r.lost then gateSpoil s b.uid r.pos k sm
      else
        let t : GateStep := { uid := b.uid, pos := r.pos, k := k, seam := sm, g := slot, bankS := s.gate.bankSig
                              bankT := s.gate.bankTnh, audit := rf r 3 18 2 != 0 && rf r 3 12 6 == k }
        { s with gate := { s.gate with steps := s.gate.steps ++ [t] } }

/-- The values that the output row holds (R139). -/
def gateOutVals (m : Seam) (r : Rec) (t : GateStep) : List FVal :=
  let val (std : List Nat) (d : List W32) (l : Nat) : FVal :=
    if isDeep m l then f32 (lget d 0 l) else fmtDecode (sfmtCode m) (lget std 0 l)
  (natsTo m.width).map (val t.hs t.h) ++ (if rf r 1 0 2 = 2 then (natsTo m.width).map (val t.cs t.c) else [])

/-- The output row of a step handed to the writer (R27, R139). -/
def gateOutput (s : State) (b : Bench) (r : Rec) (t : GateStep) : State :=
  if rf r 1 0 2 = 0 then s
  else
    let td := rf r 3 20 6
    let x := convRow s b (tdFmt b td) (fun i => tdFmt b td == 7 && !isDeep (seam s t.seam) (i % (seam s t.seam).width))
      (gateOutVals (seam s t.seam) r t)
    writerOut (stick x.2.2 0x5C04 x.2.1 0x1F) b r.pos td t.k (packCodes (tdFmt b td) x.1)

/-- The commit of a step and the release of its output and input (R27, R112, R113, R142). -/
def gateCommitStep (s : State) (b : Bench) (r : Rec) (t : GateStep) : State :=
  let s := { s with gate := { s.gate with steps := s.gate.steps.filter fun x =>
    !(x.uid == t.uid && x.pos == t.pos && x.k == t.k) } }
  let s := gateOutput s b r t
  let s := vstRelease (countCommit (seamCommit s t.seam 1) t.uid t.seam) t.uid t.seam
  chunkMayEnd (releaseCommit s t.seam 1) t.uid t.pos t.seam

/-- Whether the output of a step must wait for the writer (R257). -/
def gateOutBlocked (s : State) (b : Bench) (r : Rec) : Bool := rf r 1 0 2 != 0 && writerBlocked s b (rf r 3 20 6)

/-- The first step in flight of a record. -/
def firstStep (s : State) (b : Bench) (r : Rec) : Option GateStep :=
  s.gate.steps.find? fun t => t.uid == b.uid && t.pos == r.pos

/-- The commit slot of a step: it waits for the writer, or commits and is over (R27, R136). -/
def gateCommitNext (s : State) (b : Bench) (r : Rec) (t : GateStep) : State :=
  if gateOutBlocked s b r then writerFreeze s b (rf r 3 20 6)
  else gateCommitStep (updRec s b.uid r.pos fun r => { r with dead := r.dead ++ [t.k] }) b r t

end Sys2Proof.Machine
end

