-- ==== Sys2Proof/Machine/ArrayOps.lean ====
section
/-! DEFINITION. The matrix array: wavefronts, planes, group sums, the accumulator's update, the derrick and the checksum
column (03_matrix_array.md, R61 to R88, R459; 04_accumulators_and_seams.md, R94 to R104). -/
namespace Sys2Proof.Machine

-- The record (R75, R94, R224).

/-- OPFMT. -/
def aFmt (r : Rec) : Nat := rf r 0 20 4
/-- A_SRC. -/
def aSrc (r : Rec) : Nat := rf r 0 10 2
/-- A_TD. -/
def aTd (r : Rec) : Nat := rf r 0 4 6
/-- A_REP. -/
def aRep (r : Rec) : Nat := zeroIs 16 (rf r 0 0 4)
/-- WAVES. -/
def aWaves (r : Rec) : Nat := zeroIs 1024 (rf r 1 6 10)
/-- WSTRIDE. -/
def aStride (r : Rec) : Nat := zeroIs 16 (rf r 1 2 4)
/-- The plane tag of wavefront n. -/
def aTag (r : Rec) (n : Nat) : Nat := rf r 2 (8 + 3 * (n % zeroIs 8 (rf r 2 5 3))) 3
/-- KROWS. -/
def aRows (r : Rec) : Nat := zeroIs 128 (rf r 4 17 7)
/-- T_RWRAP. -/
def aWrap (r : Rec) : Nat := zeroIs 1024 (rf r 5 11 10)
/-- The slot of wavefront n's entry (R75). -/
def aDue (b : Bench) (r : Rec) (n : Nat) : Nat := b.start + rf r 1 16 16 + n * aStride r

/-- Bytes of an element as the feeders take it: an INT4 element is a byte that holds two inputs (R71). -/
def elemBytes (fmt : Nat) : Nat := if fmt = 1 then 1 else fmtBits fmt / 8

/-- Element i of a row's bytes as the feeders take it. -/
def feedElem (fmt : Nat) (bs : List Byte) (i : Nat) : Nat :=
  ofBytesLE ((bs.drop (elemBytes fmt * i)).take (elemBytes fmt))

/-- Planes that a tag selects (R40, R70). -/
def planesOf (fmt tag : Nat) : List Nat :=
  match fmt with
  | 4 => [tag, tag + 1]
  | 5 => [tag, tag + 1]
  | 6 => [tag, tag + 1]
  | 7 => [tag, tag + 1, tag + 2, tag + 3]
  | _ => [tag]

-- Entry of a wavefront (R64 to R66, R225).

/-- A wavefront's operands: the elements, none where the wavefront is invalid; or a wait. -/
inductive Acts where
  | wait
  | acts (l : List (Option Nat))
  deriving DecidableEq, Repr

/-- Valid elements for rows 0 to K − 1 (R72). -/
def validActs (k : Nat) (f : Nat → Nat) : List (Option Nat) := (natsTo k).map fun i => some (f i)

/-- Whether the bench holds the stream whose ring descriptor `td` names: the ring's rows are those of the seam's steps (R115, R258). A
skipped seam of a replay is not meant: its ring is read as R235 says. -/
def ringHeldBack (s : State) (b : Bench) (td : Nat) : Bool :=
  let g := ringOf s (tdUnit b td)
  tdKind b td == 2 && g.relmode == 0 && mget b.skips 0 g.seam == 0 && ((benchOf s b.uid).getD b).held.contains g.seam

/-- Activations from a row of A_TD; none, and nothing read, where the bench holds the row's stream (R115, log 123). A failed sector makes
the wavefront invalid and halts the bench (R420). -/
def actsRow (s : State) (b : Bench) (r : Rec) (a : Nat) : Acts × State :=
  if ringHeldBack s b (aTd r) then (.acts [], s)
  else
    let x := feedRow s b r (aTd r) a (aRows r * elemBytes (aFmt r)) true false 0
    match x.1 with
    | .wait => (.wait, x.2)
    | .nothing => (.acts [], x.2)
    | .row bs bad =>
      if bad then (.acts [], reqHalt x.2 4 b r.pos)
      else (.acts (validActs (aRows r) (feedElem (aFmt r) bs)), x.2)

/-- Whether a feedback entry is the record's own: an array record of the gate record's bench with its first gate row (R138). -/
def fbOwn (b : Bench) (r : Rec) (f : FbEntry) : Bool := f.uid == b.uid && tdAcc b (rf r 4 11 6) 0 == f.grow

/-- Whether a step in flight has yet to move its feedback into entry e (R138). -/
def fbComing (s : State) (e : Nat) : Bool :=
  s.gate.steps.any fun t =>
    match recOf s t.uid t.pos with
    | some (b, r) => tdFb b (rf r 3 26 6) t.k == e && decide (s.clk.slot < t.g + 24)
    | none => false

/-- Whether the bench holds the stream whose step would move its feedback into entry e (R115, R128). -/
def fbHeld (s : State) (b : Bench) (e : Nat) : Bool :=
  let held := ((benchOf s b.uid).getD b).held
  b.recs.any fun r => r.ty == 4 && (natsTo (gN r)).any fun k => tdFb b (rf r 3 26 6) k == e && held.contains (gSeam r k)

/-- Activations from a feedback buffer entry (R138, R225); a held stream's give an invalid wavefront (R115). -/
def actsFb (s : State) (b : Bench) (r : Rec) (a : Nat) : Acts × State :=
  let e := tdFb b (aTd r) a
  let f := mget s.gate.fb {} e
  if fbHeld s b e then (.acts [], s)
  else if !f.has then (.acts [], slip s b r 2 0 0)
  else
    let early := fbComing s e || decide (s.clk.slot < f.g + (if fbOwn b r f then 24 else 26))
    (.acts (validActs (aRows r) fun i => lget f.new 0 i), if early then slip s b r 6 0 0 else s)

/-- Activations from a seam's committed standard entries, converted as feedback is (R128, R225). A seam that is held gives an
invalid wavefront (R115). -/
def actsSeam (s : State) (b : Bench) (r : Rec) (a : Nat) : Acts × State :=
  let k := (rf r 4 24 8 + a) % 256
  let d := seamAccess s b r k
  if !d.1 then (.acts [], d.2)
  else
    let x := seamCommitted d.2 k 0
    let m := seam x.2 k
    let y := if aFmt r = 7 && m.deep ≠ 0 then seamCommitted x.2 k (nStd m.nvec) else ([], x.2)
    let m := seam y.2 k
    let v := fbVector y.2 b siteArr m (aFmt r) ((natsTo m.width).map (stdCode x.1 0)) y.1
    let s := stick v.2.2 0x4010 v.2.1 0x1F
    if m.poison then (.acts [], reqHalt s 4 b r.pos)
    else (.acts (validActs (aRows r) fun i => lget v.1 0 i), s)

/-- The wavefront that has row 0 in the present slot: of those that came, that of the record that started first (R66). -/
def waveNow (s : State) : Option Wave :=
  (s.arr.waves.filter (·.entry == s.clk.slot)).foldl (fun a w =>
    match a with
    | none => some w
    | some x => if startedBefore w.uid w.pos x.uid x.pos then some w else a) none

/-- A wavefront of a record with given elements (R63, R75, R94). -/
def mkWave (s : State) (b : Bench) (r : Rec) (n : Nat) (acts : List (Option Nat)) : Wave :=
  let tag := aTag r n
  let mode := rf r 4 5 2
  { uid := b.uid, pos := r.pos, entry := s.clk.slot, benchStart := b.start, bep := b.bep, acts := acts, tag := tag
    epoch := rf r 3 (4 * tag) 4, opfmt := aFmt r, piece := rf r 0 16 4, g := 4 * 2 ^ rf r 0 14 2, arnd := rf r 0 12 2
    modeRnd := b.modeRnd, ovfInf := b.ovfInf, tfmt := rf r 4 7 4
    row := (tdAcc b (rf r 4 11 6) 0 + (n % aWrap r) * rf r 5 21 4) % 1024
    add := mode == 1 || (mode == 2 && decide (aWrap r ≤ n)), cols := zeroIs 128 (rf r 5 25 7)
    tepoch := effEp b (rf r 4 11 6) (rf r 5 7 4)
    checked := decide (aFmt r < 4) && bitB (reg s 0x4000) 0 }

/-- A wavefront joins the array (R65). -/
def pushWave (s : State) (w : Wave) : State := { s with arr := { s.arr with waves := s.arr.waves ++ [w] } }

/-- A wavefront in the array is displaced: it stays in its place with every element invalid, and its record slips (R66). -/
def displace (s : State) (w : Wave) : State :=
  let s := { s with arr := { s.arr with waves := s.arr.waves.map fun x => if x = w then { x with acts := [] } else x } }
  match recOf s w.uid w.pos with
  | some (b, r) => slip s b r 4 0 0
  | none => s

/-- The elements of wavefront n of a record. -/
def actsOf (s : State) (b : Bench) (r : Rec) (n : Nat) : Acts × State :=
  match aSrc r with
  | 0 => actsRow s b r (n / aRep r)
  | 1 => actsFb s b r (n / aRep r)
  | _ => actsSeam s b r (n / aRep r)

/-- Wavefront n of a record enters row 0 (R64 to R66): of those of one slot, the one of the record that started first is valid. -/
def waveIssue (s : State) (b : Bench) (r : Rec) : State :=
  let n := r.n
  let next (s : State) : State := updRec s b.uid r.pos fun r => { r with n := n + 1 }
  if (waveNow s).any fun w => !startedBefore b.uid r.pos w.uid w.pos then
    next (pushWave (slip s b r 4 0 0) { mkWave s b r n [] with entry := s.clk.slot })
  else
    let x := actsOf s b r n
    match x.1 with
    | .wait => x.2
    | .acts l =>
      let s := match waveNow s with
        | some w => displace x.2 w
        | none => x.2
      next (pushWave s (mkWave s b r n l))

-- The meeting of a wavefront and a plane row (R64, R79, R81).

/-- Row i of plane p. -/
def planeRow (s : State) (p i : Nat) : PlaneRow := mget s.arr.planes {} (128 * p + i)

/-- Whether a wavefront has a valid element for row i. -/
def validRow (w : Wave) (i : Nat) : Bool := (lget w.acts none i).isSome

/-- What a wavefront finds wrong with a plane row: 1 another epoch, 2 stale (R81). For a row that is both the manual does not say which
cause is logged; the model logs 2 (DESIGN CHOICE, log 121). -/
def rowSlip (w : Wave) (p : PlaneRow) : Option Nat :=
  if p.stale then some 2 else if p.stamp ≠ w.epoch then some 1 else none

/-- The check of row i at column 0, and the weights that the wavefront will multiply by (R64, R81). A sweep that writes no cell (R83)
meets no reference. For a row both mismatched, under the halt policy, and poisoned the model gives the halt the mismatch's cause
(DESIGN CHOICE, log 121). -/
def waveMeet (s : State) (w : Wave) : State :=
  let i := s.clk.slot - w.entry
  if !validRow w i then s
  else
    let ps := (planesOf w.opfmt w.tag).map fun p => planeRow s p i
    let bad := (ps.filterMap fun p => (rowSlip w p).map fun c => (c, p)).head?
    let s := { s with arr := { s.arr with
      waves := s.arr.waves.map fun x =>
        if x.entry = w.entry && x.uid = w.uid && x.pos = w.pos then
          { x with met := x.met ++ [ps], slipped := x.slipped || bad.isSome } else x
      sweeps := s.arr.sweeps.map fun x =>
        if x.slot = s.clk.slot && x.row = i && (planesOf w.opfmt w.tag).contains x.plane && x.put.any (!·.poison) then
          { x with hit := true }
        else x } }
    match benchOf s w.uid with
    | none => s
    | some b =>
      let s := match bad, recAt b w.pos with
        | some e, some r => if w.slipped then s else slip s b r e.1 w.epoch e.2.stamp
        | _, _ => s
      if ps.any (·.poison) then reqHalt s 4 b w.pos else s

/-- Every wavefront meets its row of the slot. -/
def waveMeets (s : State) : State :=
  eachS (s.arr.waves.filter fun w => decide (w.entry ≤ s.clk.slot)) (fun w s => waveMeet s w) s

/-- The end of a slot for the derrick: rows issued in it are written, sweeps that met a wavefront ask for a DERRICK cycle in
each of their 128 slots, and a load whose last checksum weight is written completes (R77, R79, R459). A row is written whole with its checksum
weight in its start slot, also where a halt or a reset then cuts its sweep short (DESIGN CHOICE, log 121). -/
def derrickSlot (s : State) : State :=
  let x := s.clk.slot
  let s := eachS s.arr.sweeps (fun w s =>
    match w.put with
    | some p => { s with arr := { s.arr with planes := mset s.arr.planes {} (128 * w.plane + w.row) p } }
    | none => s) s
  let s := { s with arr := { s.arr with sweeps := s.arr.sweeps.map fun w => { w with put := none } } }
  let s := if s.arr.sweeps.any fun w => w.hit && decide (w.slot ≤ x) && decide (x < w.slot + 128) then freezeDerrick s
    else s
  let s := eachS (s.arr.sweeps.filter fun w => w.last && decide (w.slot + 128 ≤ x)) (fun w s =>
    { s with arr := { s.arr with planeEpoch := lupd s.arr.planeEpoch w.plane fun _ => w.epoch } }) s
  { s with arr := { s.arr with sweeps := s.arr.sweeps.filter fun w => decide (x < w.slot + 128) } }

-- The derrick (R76 to R83).

/-- D_ROWS. -/
def dRows (r : Rec) : Nat := zeroIs 128 (rf r 0 8 7)
/-- D_FMT. -/
def dFmt (r : Rec) : Nat := rf r 0 0 4

/-- The checksum weight of a row under a format (R85); none for a format without one. -/
def csumWeight (fmt : Nat) (bs : List Nat) : Option Nat :=
  match fmt with
  | 0 => some (wrapN 16 (bs.foldl (fun a w => a + signedN 8 w) (0 : Int)))
  | 1 =>
    let lo := bs.foldl (fun a w => a + signedN 4 w) (0 : Int)
    let hi := bs.foldl (fun a w => a + signedN 4 (w / 16)) (0 : Int)
    some (wrapN 8 lo + 256 * wrapN 8 hi)
  | 2 => some (ffEncode fBF16 .rne true 0 fOVF (sumX (bs.map fun w => (ffDecode fE4M3 w, 0))).1).bits
  | 3 => some (ffEncode fBF16 .rne true 0 fOVF (sumX (bs.map fun w => (ffDecode fE5M2 w, 0))).1).bits
  | _ => none

/-- The plane row that 128 bytes make (R77, R85). -/
def planeOf (bs : List Nat) (epoch fmt : Nat) : PlaneRow :=
  { data := msetFrom [] 0 0 bs, stamp := epoch, stale := false, poison := false
    csum := (csumWeight fmt bs).getD 0, dfmt := if fmt < 4 then fmt else 16 }

/-- The slot of row n of a load (R77). -/
def dDue (b : Bench) (r : Rec) (n : Nat) : Nat := b.start + rf r 1 16 16 + n

/-- Whether a record that started earlier still has a row to issue in the present slot. -/
def derrickAhead (s : State) (uid pos : Nat) : Bool :=
  s.seq.benches.any fun b => b.recs.any fun r =>
    r.ty == 2 && startedBefore b.uid r.pos uid pos && !r.fin && !r.lost && decide (r.n < dRows r) && dDue b r r.n == s.clk.slot

/-- The load of another record is in the way of row 0 if it is issuing rows, or has issued one in this slot or still will (R78). Where the
load that runs belongs to the record that started later, it goes on all the same (DESIGN CHOICE, log 121). -/
def derrickBusy (s : State) (b : Bench) (r : Rec) : Bool :=
  r.n == 0 && ((s.arr.active && s.arr.ldOwner != 256 * b.uid + r.pos) || (s.arr.hasRow && s.arr.lastRowSlot == s.clk.slot)
    || derrickAhead s b.uid r.pos)

/-- The next row of a load (R77, R83): written and stamped, or, from a failed sector, marked poisoned with its weights kept. -/
def derrickRowStep (s : State) (b : Bench) (r : Rec) : State :=
  if r.lost then updRec s b.uid r.pos fun r => { r with n := dRows r }
  else if derrickBusy s b r then
    updRec (slip s b r 4 0 0) b.uid r.pos fun r => { r with n := dRows r, lost := true }
  else
    let n := r.n
    let x := feedRow s b r (rf r 0 18 6) n 128 true true 1
    match x.1 with
    | .wait => x.2
    | .nothing => updRec x.2 b.uid r.pos fun r => { r with n := n + 1 }
    | .row bs bad =>
      let s := x.2
      let p := rf r 0 15 3
      let ep := rf r 0 4 4
      let row := if bad then { planeRow s p n with poison := true, stamp := ep, stale := false }
        else planeOf (bs.map BitVec.toNat) ep (dFmt r)
      let last := n + 1 == dRows r
      let s := { s with arr := { s.arr with
        active := !last, ldPlane := p, ldNext := if last then 0 else n + 1, ldEpoch := ep, ldOwner := 256 * b.uid + r.pos
        lastRowSlot := s.clk.slot, hasRow := true
        sweeps := s.arr.sweeps ++
          [{ row := n, plane := p, slot := s.clk.slot, last := last, epoch := ep, uid := b.uid, pos := r.pos, put := some row }] } }
      updRec s b.uid r.pos fun r => { r with n := n + 1 }

-- Products and sums (R43, R44, R47, R67 to R72).

/-- Piece k of a finite magnitude of `p` significant bits, counted from its most significant 1 (R44). -/
def floatPiece (p k : Nat) (neg : Bool) (m : Nat) (e : Int) : FVal :=
  if m = 0 then .fin neg 0 0
  else
    let sh := p - 1 - Nat.log2 m
    let v := m <<< sh
    let lo := p - min p (8 * (k + 1))
    let len := (p - 8 * k) - lo
    .fin neg ((v >>> lo) % 2 ^ len) (e - sh + lo)

/-- An operand's value, or that of the piece a pass selects (R44). -/
def pieceOf (fmt k w : Nat) : FVal :=
  match fmt with
  | 5 => if k = 0 then FVal.ofInt (signedN 8 (w / 256)) else FVal.ofInt (w % 256 : Nat)
  | 6 => split 11 (ffDecode fFP16 w)
  | 7 => split 24 (ffDecode fFP32 w)
  | _ => fmtDecode fmt w
where
  /-- A float operand split; an infinity or NaN lies in piece 0. -/
  split (p : Nat) (x : FVal) : FVal :=
    match x with
    | .fin n m e => floatPiece p k n m e
    | v => if k = 0 then v else FVal.zero

/-- The weight code in column j of a row of planes (R40). -/
def weightCode (ps : List PlaneRow) (j : Nat) : Nat :=
  (natsTo ps.length).foldl (fun a i => a + (mget (lget ps {} i).data 0 j) * 256 ^ i) 0

/-- The exact product of a cell, with its flags; in dual mode the pair's sum (R43, R71). -/
def cellProduct (w : Wave) (a : Nat) (ps : List PlaneRow) (j : Nat) : FVal × Flg :=
  let c := weightCode ps j
  if w.opfmt = 1 then
    (FVal.ofInt (signedN 4 a * signedN 4 c + signedN 4 (a / 16) * signedN 4 (c / 16)), 0)
  else mulX (pieceOf w.opfmt (w.piece / 4) a) (pieceOf w.opfmt (w.piece % 4) c)

/-- A value rounded to a 24-bit significand, its exponent as it comes (R47). -/
def round24 (md : RMode) (q : Nat) (x : FVal) : FVal × Bool :=
  match x with
  | .fin n m e =>
    if m = 0 then (x, false)
    else
      let pt := (Nat.log2 m : Int) + e - 23
      let r := roundAt md q m e pt
      if pt ≤ e then (x, false) else (.fin n r.1 pt, r.2 && md == .sr)
  | v => (v, false)

/-- The rounding of a wavefront's pass (R47, R49). -/
def waveRnd (w : Wave) : RMode := rmodeOf (rmodeOf .rne w.modeRnd) w.arnd

/-- A group sum in a float format: exact for the 8-bit formats, else rounded once (R47). -/
def groupRound (w : Wave) (x : FVal × Flg) : LaneM (FVal × Flg) := fun t =>
  if w.opfmt < 4 then (x, t)
  else
    let g := lfsrDraw t.g
    let r := round24 (waveRnd w) (g.toNat % 65536) x.1
    ((r.1, x.2), { t with g := if r.2 then g else t.g })

/-- The group's products in column j: rows gG to gG + G − 1 that are valid (R67, R69). -/
def groupTerms (w : Wave) (j g : Nat) : List (FVal × Flg) :=
  (natsFrom (g * w.g) w.g).filterMap fun i =>
    match lget w.acts none i with
    | some a => some (cellProduct w a (lget w.met [] i) j)
    | none => none

/-- Group g added into the column partial of a float pass: the first group sets it, each later one is added (R47, R69). A NaN
partial meets later groups without a flag of its own. -/
def groupAdd (w : Wave) (j g : Nat) (acc : Option W32) : LaneM (Option W32) := do
  let l := groupTerms w j g
  if l.isEmpty then return acc
  else
    let x ← groupRound w (sumX l)
    match acc with
    | none => do
      let y ← laneRound fun md oi q => arith32 md oi q x
      return some y
    | some p => do
      let y ← laneRound fun md oi q => arith32 md oi q (addFlX (f32 p, 0) x)
      return some y

/-- The group that column j of a wavefront adds in slot x, if any: group g in slot entry + (g + 1)G + j (R64). -/
def groupDue (w : Wave) (x j : Nat) : Option Nat :=
  let d := x - (w.entry + j)
  if d = 0 || d % w.g ≠ 0 || 128 < d then none else some (d / w.g - 1)

/-- The column partials of a float wavefront in the present slot. -/
def waveGroups (s : State) (w : Wave) : State :=
  if w.acts.isEmpty || fmtIsInt w.opfmt then s
  else
    let r := runLanes s siteArr 128 (waveRnd w) w.ovfInf fun j =>
      match groupDue w s.clk.slot j with
      | some g => groupAdd w j g (lget w.part none j)
      | none => pure (lget w.part none j)
    let s := stick r.2.2 0x4010 r.2.1 0x1F
    { s with arr := { s.arr with waves := s.arr.waves.map fun x =>
        if x.entry = w.entry && x.uid = w.uid && x.pos = w.pos then { x with part := r.1 } else x } }

/-- The column partials of every wavefront in the present slot. -/
def wavesGroups (s : State) : State :=
  eachS (s.arr.waves.filter fun w => decide (w.entry < s.clk.slot) && decide (s.clk.slot < w.entry + 256)) (fun w s => waveGroups s w) s

/-- The column partial of an integer pass, exact (R47). -/
def intColumn (w : Wave) (j : Nat) : Int :=
  (natsTo 128).foldl (fun a i =>
    match lget w.acts none i with
    | some x =>
      (match (cellProduct w x (lget w.met [] i) j).1 with
       | .fin n m e => a + finUnits 0 n m e
       | _ => a)
    | none => a) 0

-- The checksum column (R85 to R88).

/-- Whether a wavefront is compared: every valid row carries a checksum weight of its format (R86). -/
def csumOn (w : Wave) : Bool :=
  w.checked && (natsTo 128).all fun i => !validRow w i || (lget w.met [] i).all fun p => p.dfmt == w.opfmt

/-- Sum in order of binary32 values, each addition to nearest even (R87). -/
def sumRne (oi : Bool) (l : List FVal) : FVal :=
  match l with
  | [] => FVal.zero
  | x :: r => r.foldl (fun a y => f32 (BitVec.ofNat 32 (arith32 .rne oi 0 (addX a y)).bits)) x

/-- The mismatch of an integer wavefront (R87). -/
def csumInt (w : Wave) (cols : List Int) : Bool :=
  let x := cols.foldl (· + ·) 0
  let y := (natsTo 128).foldl (fun a i =>
    match lget w.acts none i with
    | some v =>
      let c := (lget (lget w.met [] i) {} 0).csum
      if w.opfmt = 0 then a + signedN 8 v * signedN 16 c
      else a + signedN 4 v * (c % 256 : Nat) + signedN 4 (v / 16) * (c / 256 : Nat)
    | none => a) (0 : Int)
  if w.opfmt = 0 then x != y else x % 256 != y % 256

/-- The mismatch of an 8-bit float wavefront; none where X, Y or M is infinite or NaN (R87). The manual does not say in which order Y is
summed, nor whether |X − Y| and the tolerance are rounded, nor when ARRAY_CSUM_TOL is sampled: the model adds by rising row, compares exactly, and
reads the register with the comparison, in slot s + 256 (DESIGN CHOICE, log 121). -/
def csumFloat (s : State) (w : Wave) (cols : List W32) : Bool :=
  let p := cols.map f32
  let t := (natsTo 128).filterMap fun i =>
    (lget w.acts none i).map fun v => (fmtDecode w.opfmt v, ffDecode fBF16 (lget (lget w.met [] i) {} 0).csum)
  let y := t.map fun e => (mulX e.1 e.2).1
  let xs := sumRne w.ovfInf p
  let ys := sumRne w.ovfInf y
  let m := sumRne w.ovfInf [sumRne w.ovfInf (p.map FVal.abs), sumRne w.ovfInf (y.map FVal.abs)]
  match (addX xs ys.negate).1.abs, m with
  | .fin _ dm de, .fin _ mm me =>
    let tol := regF s 0x4004 0 5
    let flo := signedN 8 (regF s 0x4004 8 8)
    ltX (addX (.fin false mm (me - tol)) (.fin false 1 flo)).1 (.fin false dm de)
  | _, _ => false

-- The accumulator's update (R94 to R104).

/-- The R92 code of a row of a total: its first or, in a pair, its second row. -/
def fmtOfTotal (tfmt : Nat) (second : Bool) : Nat :=
  match tfmt with
  | 7 => 4
  | 8 => 1
  | 9 => if second then 3 else 2
  | _ => if second then 6 else 5

/-- Whether a total is a pair of rows. -/
def isPair (tfmt : Nat) : Bool := tfmt == 9 || tfmt == 10

/-- An int64 from its two words. -/
def int64Of (lo hi : W32) : Int := signedN 64 (lo.toNat + hi.toNat * m32)

/-- The two words of an int64. -/
def int64Words (i : Int) : W32 × W32 :=
  let n := wrapN 64 i
  (BitVec.ofNat 32 n, BitVec.ofNat 32 (n / m32))

/-- One add of a compensated pair (R103). -/
def addComp (oi : Bool) (s0 e0 x : W32) : (W32 × W32) × Flg :=
  let ad (a b : W32) : NumR := f32Add .rne oi 0 a b
  let sb (a b : W32) : NumR := f32Sub .rne oi 0 a b
  let w (r : NumR) : W32 := BitVec.ofNat 32 r.bits
  let t := ad s0 x
  let z := sb (w t) s0
  let r1 := sb s0 (w (sb (w t) (w z)))
  let r2 := sb x (w z)
  let r := ad (w r1) (w r2)
  let v := ad e0 (w r)
  let s2 := ad (w t) (w v)
  let z2 := sb (w s2) (w t)
  let e2 := ad (w (sb (w t) (w (sb (w s2) (w z2))))) (w (sb (w v) (w z2)))
  let wild (r : NumR) : Bool :=
    r.fl &&& fOVF != 0 || (match f32 (w r) with | .fin _ _ _ => false | _ => true)
  if wild t then ((w t, 0), t.fl)
  else if wild s2 then ((w s2, 0), t.fl ||| s2.fl)
  else ((w s2, w e2), t.fl ||| v.fl ||| s2.fl)

/-- A column partial on its way into a total: an integer, scaled for INT16 pieces (R102), or a binary32 code. -/
inductive Part where
  | int (i : Int)
  | flt (w : W32)
  deriving DecidableEq, Repr

/-- An entry of a total after an update: its words, and flags. -/
structure Upd where
  lo : W32
  hi : W32 := 0
  fl : Flg := 0
  deriving DecidableEq, Repr

/-- Overwrite of an entry (R95). -/
def overwriteEntry (tfmt : Nat) (p : Part) : Upd :=
  match p with
  | .int i =>
    if tfmt = 9 then let w := int64Words i; { lo := w.1, hi := w.2 }
    else let r := sat32 i; { lo := r.1, fl := r.2 }
  | .flt w => { lo := w }

/-- Add into an entry of an integer or compensated total (R95, R99, R103). -/
def addEntry (tfmt : Nat) (oi : Bool) (lo hi : W32) (p : Part) : Upd :=
  match p with
  | .int i =>
    if tfmt = 9 then
      let r := satInt 64 (int64Of lo hi + i)
      let w := int64Words r.1
      { lo := w.1, hi := w.2, fl := flagIf r.2 fSAT }
    else let r := sat32 (i32 lo + i); { lo := r.1, fl := r.2 }
  | .flt w => let r := addComp oi lo hi w; { lo := r.1.1, hi := r.1.2, fl := r.2 }

/-- Flags of accumulator adds: ACC_STICKY, and ACC_SAT at its first transition (R101). -/
def accStick (s : State) (fl : Flg) : State :=
  let first := fl &&& fSAT != 0 && !bitB (reg s 0x4404) 5
  let s := stick s 0x4404 fl 0x3F
  if first then raise s 0x09 0 else s

/-- LONGSUM, raised at its first transition (R104). -/
def accLong (s : State) : State :=
  let first := !bitB (reg s 0x4404) 6
  let s := orReg s 0x4404 0x40
  if first then raise s 0x0A 0 else s

/-- What adding into a row with this metadata meets (R95): nothing, or the SLOT_SLIP cause under which it is an overwrite. -/
def addSlip (tfmt : Nat) (second : Bool) (m : Meta) : Option Nat :=
  if m.stale || m.fmt = 0 then some 2 else if m.fmt ≠ fmtOfTotal tfmt second then some 3 else none

/-- Metadata after an overwrite (R95). -/
def metaOver (w : Wave) (second sat : Bool) : Meta :=
  { fmt := fmtOfTotal w.tfmt second, epoch := w.tepoch, stale := false, sat := sat }

/-- Metadata after an add (R95, R104), and whether the row's bound is passed. -/
def metaAdd (w : Wave) (m : Meta) (sat : Bool) : Meta × Bool :=
  let n := min 0xFFFFFF (m.passes + 1)
  let long := (w.tfmt == 7 && n == 65536) || (w.tfmt == 10 && m.passes == 0xFFFFFF)
  ({ m with epoch := w.tepoch, passes := n, sat := m.sat || sat, long := m.long || long }, long)

/-- The update put on its way (R96): made, with its flags and roundings, at the end of slot s + 259. `lo` and `hi` are the words of the
total's rows, and `add` the partials of a binary32 add. -/
def pushUpdate (s : State) (w : Wave) (lo hi add : List W32) (fl : Flg) (long : Bool) (m1 m2 : Meta) : State :=
  let x : AccWrite := { due := max s.clk.slot (w.entry + 259), row := w.row, kind := .arr, uid := w.uid, pos := w.pos
                        lanes := lo.map some, md := m1, add := add, rnd := waveRnd w, oi := w.ovfInf, fl := fl, long := long }
  let s := pushWrite s x
  if isPair w.tfmt then
    pushWrite s { x with row := (w.row + 1) % 1024, lanes := hi.map some, md := m2, fl := 0, long := false }
  else s

/-- The flags of all entries. -/
def updFlags (l : List Upd) : Flg := l.foldl (fun a u => a ||| u.fl) 0

/-- A wavefront's partials overwrite its target (R95). -/
def waveOver (s : State) (w : Wave) (ps : List Part) : State :=
  let ups := ps.map (overwriteEntry w.tfmt)
  let fl := updFlags ups
  let sat := fl &&& fSAT != 0
  pushUpdate s w (ups.map (·.lo)) (ups.map (·.hi)) [] fl false (metaOver w false sat) (metaOver w true sat)

/-- A column partial as the binary32 word that an add takes. -/
def partWord (p : Part) : W32 := match p with | .flt w => w | .int _ => 0

/-- A wavefront's partials are added into its target (R95). A binary32 add rounds under ARND in the write port's lanes when it is
made (R96). -/
def waveAdd (s : State) (w : Wave) (ps : List Part) (lo hi : List W32) (m1 m2 : Meta) : State :=
  if w.tfmt = 7 then
    let a := metaAdd w m1 false
    pushUpdate s w (lo.take ps.length) [] (ps.map partWord) 0 a.2 a.1 a.1
  else
    let l := (natsTo ps.length).map fun j => addEntry w.tfmt w.ovfInf (lget lo 0 j) (lget hi 0 j) (lget ps (.int 0) j)
    let fl := updFlags l
    let a := metaAdd w m1 (fl &&& fSAT != 0)
    pushUpdate s w (l.map (·.lo)) (l.map (·.hi)) [] fl a.2 a.1 (metaAdd w m2 (fl &&& fSAT != 0)).1

/-- A binary32 add rounded in the write port's lanes (R96): the words of the row, the flags, and the generators. -/
def settleAdd (s : State) (w : AccWrite) : AccWrite × State :=
  if w.add.isEmpty then (w, s)
  else
    let r := runLanes s siteAcc w.add.length w.rnd w.oi fun j => lAdd ((lget w.lanes none j).getD 0) (lget w.add 0 j)
    ({ w with lanes := r.1.map some, add := [], fl := w.fl ||| r.2.1 }, r.2.2)

/-- An update that waits for an earlier one of its row takes that one's words (R96). -/
def followAdd (x w : AccWrite) : AccWrite :=
  if w.kind == .arr && w.row = x.row && !w.add.isEmpty then
    { w with lanes := (natsTo w.lanes.length).map fun j => (lget x.lanes none j).or (lget w.lanes none j) }
  else w

/-- An update of the array is made (R96): roundings, saturation, flags and metadata. -/
def applyArr (s : State) (w : AccWrite) : State :=
  let x := settleAdd s w
  let s := accStick x.2 x.1.fl
  let s := if x.1.long then accLong s else s
  applyWrite { s with acc := { s.acc with wq := s.acc.wq.map (followAdd x.1) } } x.1

/-- The writes whose slot has come are made; answers those that lost their port or row (R97). Updates of one slot are made in
order, each seeing the one before. -/
def accSlotEnd (s : State) : List AccWrite × State :=
  let now (w : AccWrite) : Bool := decide (w.due ≤ s.clk.slot)
  let rows := (s.acc.wq.filter fun w => now w && w.kind == .arr).map (·.row)
  let s := rows.foldl (fun s _ =>
    match s.acc.wq.find? fun w => now w && w.kind == .arr with
    | some w => applyArr { s with acc := { s.acc with wq := s.acc.wq.erase w } } w
    | none => s) s
  let due := s.acc.wq.filter now
  let s := { s with acc := { s.acc with wq := s.acc.wq.filter fun w => !now w } }
  portWrites s rows [] [] 0 (due.foldl wrtInsert [])

/-- A valid wavefront's results at the write port (R93, R95). An add onto a row that is both mismatched or STALE and poisoned overwrites it with a
slip, and does not halt (DESIGN CHOICE, log 121). -/
def waveWrite (s : State) (b : Bench) (r : Rec) (w : Wave) (ps : List Part) : State :=
  let row2 := (w.row + 1) % 1024
  if rowSeam s w.row || (isPair w.tfmt && rowSeam s row2) then reqHalt (raise s 0x06 (recArg b r.pos)) 3 b r.pos
  else if !w.add then waveOver s w ps
  else
    let a := arrRow s w.row
    let c := if isPair w.tfmt then arrRow a.2.2 row2 else ([], a.2.1, a.2.2)
    let s := c.2.2
    let bad := match addSlip w.tfmt false a.2.1 with
      | some x => some x
      | none => if isPair w.tfmt then addSlip w.tfmt true c.2.1 else none
    match bad with
    | some x => waveOver (slip s b r x 0 0) w ps
    | none =>
      if a.2.1.poison || c.2.1.poison then reqHalt s 4 b r.pos
      else waveAdd s w ps a.1 c.1 a.2.1 c.2.1

/-- The scale of an INT16 piece pass (R102). -/
def pieceScale (w : Wave) : Int :=
  if w.opfmt = 5 then 2 ^ (8 * ((1 - w.piece / 4 % 2) + (1 - w.piece % 2))) else 1

/-- The oldest wavefront in the array leaves it at the write port (R73, R88, R95). ARRAY_CSUM_LOG.SLOT is to show a bench slot count; the
model counts from the start of the bench that issued the wavefront (DESIGN CHOICE, log 121). -/
def wavePort (s : State) (w : Wave) : State :=
  let s := { s with arr := { s.arr with waves := s.arr.waves.drop 1 } }
  match recOf s w.uid w.pos with
  | none => s
  | some (b, r) =>
    if w.acts.isEmpty then s
    else
      let isInt := fmtIsInt w.opfmt
      let ints := if isInt then (natsTo 128).map (intColumn w) else []
      let cols := if isInt then [] else (natsTo 128).map fun j => (lget w.part none j).getD 0
      let mis := csumOn w && (if isInt then csumInt w ints else csumFloat s w cols)
      let s := if csumOn w then
        { s with arr := { s.arr with csums := s.arr.csums ++
            [⟨w.uid, w.pos, w.entry + 264, mis, w.tag, w.epoch, w.opfmt, (w.entry + 256 - w.benchStart) % 65536⟩] } } else s
      let ps : List Part := if isInt then ints.map fun i => .int (i * pieceScale w) else cols.map .flt
      waveWrite s b r w (ps.take w.cols)

/-- The checksum comparison that is due (R88). -/
def csumStep (s : State) (c : CsumDue) : State :=
  let s := { s with arr := { s.arr with csums := s.arr.csums.drop 1 } }
  if !c.mismatch then s
  else
    let s := incReg (raise s 0x08 0) 0x400C 0 32
    let s := if bitB (reg s 0x4008) 31 then s
      else setReg s 0x4008 (BitVec.ofNat 32 (2147483648 + c.tag * 16777216 + c.epoch * 1048576 + c.opfmt * 65536 + c.slot))
    if !bitB (reg s 0x4000) 1 then s
    else
      match benchOf s c.uid with
      | some b => reqHalt s 5 b c.pos
      | none => reqHaltSeq s 5

end Sys2Proof.Machine
end

