-- ==== Sys2Proof/Machine/DrainOps.lean ====
section
/-! DEFINITION. Drains of totals and row statistics (04_accumulators_and_seams.md, R105 to R108, R460). -/
namespace Sys2Proof.Machine

/-- DR_ROWS. -/
def drRows (r : Rec) : Nat := zeroIs 64 (rf r 0 12 6)
/-- DR_COLS. -/
def drCols (r : Rec) : Nat := zeroIs 128 (rf r 0 5 7)
/-- DR_TD. -/
def drTd (r : Rec) : Nat := rf r 0 18 6
/-- DR_DEST. -/
def drDest (r : Rec) : Nat := rf r 1 14 2
/-- DR_STAT. -/
def drStat (r : Rec) : Bool := rf r 0 0 1 == 1
/-- DR_S_TD. -/
def drStd (r : Rec) : Nat := rf r 1 8 6
/-- DR_O_TD. -/
def drOtd (r : Rec) : Nat := rf r 1 1 6
/-- The slot of the read of total k (R108). -/
def drDue (b : Bench) (r : Rec) (k : Nat) : Nat := b.start + rf r 1 16 16 + k

/-- Row k of the drain's first row on, modulo the memory. -/
def drRow (b : Bench) (r : Rec) (k : Nat) : Nat := tdAcc b (drTd r) k

/-- The rows that a drain reads (R105). -/
def drDrained (b : Bench) (r : Rec) (pair : Bool) : List Nat :=
  (natsTo (if pair then 2 * drRows r else drRows r)).map (drRow b r)

/-- Whether the first read finds the drain malformed (R105, R106). -/
def drBad (b : Bench) (r : Rec) (fmt : Nat) : Bool :=
  let pair := fmt == 2 || fmt == 5
  let rows := drDrained b r pair
  let st := tdAcc b (drStd r) 0
  (drStat r && rows.contains st) || (pair && drRow b r 0 % 2 == 1) || fmt == 3 || fmt == 6
    || (drDest r == 2 && (natsTo (drRows r)).any fun k =>
      let t := tdAcc b (drOtd r) k
      rows.contains t || (drStat r && t == st))

/-- A drained total: how its entries are to be taken (R106). A single row that holds one word of an int64 pair has no stated
value (free value, log 4). -/
inductive Total where
  | i32 (l : List W32)
  | i64 (lo hi : List W32)
  | f32 (l : List W32)
  deriving DecidableEq, Repr

/-- A total from its rows and the first row's FMT (R106). A single row of FMT 6 is taken as binary32 bits, and a row of FMT 1 within a drain of
pairs as an int64 pair (DESIGN CHOICE, log 122). -/
def totalOf (s : State) (pair : Bool) (fmt : Nat) (lo hi : List W32) : Total :=
  if pair then (if fmt = 1 || fmt = 2 || fmt = 3 then .i64 lo hi else .f32 lo)
  else if fmt = 1 then .i32 lo
  else if fmt = 2 || fmt = 3 then .f32 (lo.map fun _ => Config.freeWord s.free)
  else .f32 lo

/-- The exact value of entry j of a total (R106). -/
def totalVal (t : Total) (j : Nat) : FVal :=
  match t with
  | .i32 l => FVal.ofInt (i32 (lget l 0 j))
  | .i64 lo hi => FVal.ofInt (int64Of (lget lo 0 j) (lget hi 0 j))
  | .f32 l => Sys2Proof.Machine.f32 (lget l 0 j)

/-- Entry j as a register or a statistic takes it: int32 as it is, int64 to nearest even in binary32 (R106, R107). -/
def totalWord (t : Total) (j : Nat) : W32 :=
  match t with
  | .i32 l => lget l 0 j
  | .f32 l => lget l 0 j
  | .i64 _ _ => BitVec.ofNat 32 (fmtEncode 7 .rne false 0 (totalVal t j)).bits

-- Statistics (R107).

/-- The larger of two binary32 values, +0 above −0. -/
def f32Max2 (a b : W32) : W32 :=
  let x := f32 a
  let y := f32 b
  if x.isZero && y.isZero then (if x.sign then b else a)
  else if ltX x y then b else a

/-- The maximum of binary32 entries; a NaN entry makes it the canonical NaN and sets NAN_IN. -/
def maxF (l : List W32) : W32 × Flg :=
  if l.any fun w => (f32 w).isNan then (f32Nan, fNAN)
  else
    match l with
    | [] => (0, 0)
    | x :: r => (r.foldl f32Max2 x, 0)

/-- One level of the tree: neighbours added, one without a partner passed up. -/
def treeLevel (oi : Bool) : List W32 → List W32 × Flg
  | [] => ([], 0)
  | [x] => ([x], 0)
  | x :: y :: r =>
    let a := f32Add .rne oi 0 x y
    let t := treeLevel oi r
    (BitVec.ofNat 32 a.bits :: t.1, a.fl ||| t.2)

/-- The balanced tree of 7 levels (R107). -/
def treeSum (oi : Bool) (l : List W32) : W32 × Flg :=
  let r := (natsTo 7).foldl (fun (a : List W32 × Flg) _ =>
    let t := treeLevel oi a.1
    (t.1, a.2 ||| t.2)) (l, 0)
  (lget r.1 0 0, r.2)

/-- The maximum and the sum of a total's first `n` entries, with the flags (R107). -/
def totalStats (oi : Bool) (t : Total) (n : Nat) : W32 × W32 × Flg :=
  match t with
  | .i32 l =>
    let v := (l.take n).map i32
    let m := match v with | [] => 0 | x :: r => r.foldl max x
    let sm := sat32 (v.foldl (· + ·) 0)
    (BitVec.ofInt 32 m, sm.1, sm.2)
  | _ =>
    let v := (natsTo n).map (totalWord t)
    let m := maxF v
    let sm := treeSum oi v
    (m.1, sm.1, m.2 ||| sm.2)

/-- The statistics of total k on their way to the statistics row (R107, R108). -/
def drStats (s : State) (b : Bench) (r : Rec) (k : Nat) (t : Total) : State :=
  let x := totalStats b.ovfInf t (drCols r)
  let lanes := (natsTo 128).map fun j =>
    if j = 2 * k then some x.1 else if j = 2 * k + 1 then some x.2.1
    else if 2 * drRows r ≤ j then some 0 else none
  let w : AccWrite := { due := s.clk.slot + 8, row := tdAcc b (drStd r) 0, kind := .row, uid := b.uid, pos := r.pos
                        lanes := lanes
                        md := { fmt := 7, epoch := effEp b (drStd r) (rf r 0 1 4), stale := false } }
  pushWrite (accStick s x.2.2) w

-- Delivery (R106).

/-- A total handed to the writer, which suppresses the outputs of a held stream (R115). -/
def drToWriter (s : State) (b : Bench) (r : Rec) (k : Nat) (t : Total) : State :=
  if outHeld s b (drOtd r) then s
  else
    let fmt := tdFmt b (drOtd r)
    let x := convRow s b fmt (fun _ => false) ((natsTo (drCols r)).map (totalVal t))
    writerOut (accStick x.2.2 x.2.1) b r.pos (drOtd r) k (packCodes fmt x.1)

/-- A total written into a vector register at the end of its slot: over the recipe results that reach it in that slot, before
those of the next (R106). -/
def drToVec (s : State) (b : Bench) (r : Rec) (k : Nat) (t : Total) : State :=
  let lanes := (natsTo (drCols r)).map fun j => some (totalWord t j)
  { s with vec := { s.vec with
      res := s.vec.res ++ [{ due := s.clk.slot + 1, ord := 0, dst := .v (drOtd r + k), lanes := lanes
                             uid := b.uid, pos := r.pos }] } }

/-- A total written as binary32 into an accumulator row in the next slot. -/
def drToAcc (s : State) (b : Bench) (r : Rec) (k : Nat) (t : Total) : State :=
  let x := runLanes s siteAcc (drCols r) (benchRnd b b.arnd) b.ovfInf fun j =>
    match t with
    | .f32 l => pure (lget l 0 j)
    | _ => lCvt32 (totalVal t j)
  let w : AccWrite := { due := s.clk.slot + 1, row := tdAcc b (drOtd r) k, kind := .row, uid := b.uid, pos := r.pos
                        lanes := x.1.map some
                        md := { fmt := 4, epoch := effEp b (drOtd r) (rf r 0 1 4), stale := false } }
  pushWrite (accStick x.2.2 x.2.1) w

/-- Total k delivered and summarised (R106, R107). -/
def drDeliver (s : State) (b : Bench) (r : Rec) (k : Nat) (t : Total) : State :=
  let s := match drDest r with
    | 0 => drToWriter s b r k t
    | 1 => drToVec s b r k t
    | 2 => drToAcc s b r k t
    | _ => s
  if drStat r then drStats s b r k t else s

/-- DR_FREE: a drained row is unwritten again; so is a row whose SEAM bit is 1, for which the rule makes no exception (DEDUCED,
log 122). -/
def drFree (s : State) (r : Rec) (row : Nat) : State :=
  if rf r 1 7 1 = 1 then setMeta s row { accMeta s row with fmt := 0, passes := 0 } else s

/-- The read of total k with its ports (R97, R105, R460). -/
def drTotal (s : State) (b : Bench) (r : Rec) (k : Nat) (pair : Bool) : State :=
  let t := takeRead s (if pair then 2 else 1)
  if !t.1 then slip s b r 4 0 0
  else
    let expect := effEp b (drTd r) (rf r 0 1 4)
    let p := pickCopy t.2 (drRow b r (if pair then 2 * k else k))
    let d := accRead p.2 p.1
    let m := accMeta d.2 p.1
    let s := metaCheck d.2 b r m expect
    let q := if pair then pickCopy s (drRow b r (2 * k + 1)) else (p.1, s)
    let e := if pair then accRead q.2 q.1 else ([], q.2)
    let n := accMeta e.2 q.1
    let s := if pair then metaCheck e.2 b r n expect else e.2
    let s := if m.poison || n.poison then s
      else drDeliver { s with free := s.free + 1 } b r k (totalOf s pair m.fmt d.1 e.1)
    let s := drFree s r p.1
    if pair then drFree s r q.1 else s

/-- The drain's next read (R105, R108). -/
def drainStep (s : State) (b : Bench) (r : Rec) : State :=
  let k := r.n
  let fmt := (accMeta s (drRow b r 0)).fmt
  let pair := if k = 0 then fmt == 2 || fmt == 5 else r.pair
  if k = 0 && drBad b r fmt then updRec (badFormat s b r.pos) b.uid r.pos fun r => { r with n := drRows r, lost := true }
  else if drDest r = 0 && writerBlocked s b (drOtd r) then writerFreeze s b (drOtd r)
  else updRec (drTotal s b r k pair) b.uid r.pos fun r => { r with n := k + 1, pair := pair }

end Sys2Proof.Machine
end

