-- ==== Sys2Proof/Machine/SfuOps.lean ====
section
/-! DEFINITION. The special function unit: table slots, segment tables, micro-programs, row functions, requests and their
delivery's flags (08_special_functions_and_statistics.md, R193 to R209). -/
namespace Sys2Proof.Machine

-- Words of the table slots (R196, R201).

/-- Header, LO, CLO, CHI, CPRE, CPOST and EPS of a built-in slot (R201). Words that the manual does not state there hold
0, and CPRE and CPOST 1.0, where no function reads them (log 15). -/
def sfuBuiltHead (slot : Nat) : List W32 :=
  let one := f32One
  match slot with
  | 0 => [0x64060000, 0, 0, 0, one, one, 0]
  | 1 => [0x64060000, 0, 0, 0, 0x3FB8AA3B, one, 0]
  | 2 => [0x68070000, 0, 0, 0, one, one, 0]
  | 3 => [0x68070040, 0, 0, 0, one, 0x3F317218, 0]
  | 4 => [0x70070000, 0, 0, 0, one, one, 0]
  | 5 => [0x6C070000, 0, 0, 0, one, one, 0]
  | 6 => [0x6C070080, 0, 0, 0, one, one, 0]
  | 7 => [0x6098FD00, 0xC1800000, 0, 0, one, one, 0]
  | 8 => [0x6307FD00, 0, 0, one, one, one, 0]
  | 9 => [0x6107FC00, 0, 0, one, one, one, 0]
  | 10 => [0x6098FC00, 0xC1000000, 0, 0, one, one, 0]
  | 11 => [0x6098FD00, 0xC1800000, 0, 0, one, one, 0]
  | 12 => [0xC0000000, 0, 0, 0, one, one, 0]
  | 13 => [0xC0000002, 0, 0, 0, one, one, 0x35800000]
  | 14 => [0xC0000003, 0, 0, 0, one, one, 0x35800000]
  | _ => [0xC0000001, 0, 0, 0, one, one, 0]

/-- The slot whose coefficients a built-in slot has: 1 those of 0, 3 of 2, 6 of 5 (R201). -/
def sfuCoefSlot (slot : Nat) : Nat :=
  match slot with
  | 1 => 0
  | 3 => 2
  | 6 => 5
  | n => n

/-- The coefficient c0 that the Exact column of R201 fixes: the value at the start of a segment at which the table is exact. -/
def sfuExact (slot w : Nat) : Option W32 :=
  match slot, w with
  | 0, 0 => some f32One
  | 2, 0 => some 0
  | 4, 0 => some f32One
  | 5, 0 => some f32One
  | 8, 0 => some 0x3F000000
  | 9, 0 => some 0
  | 10, 384 => some 0
  | 11, 384 => some 0
  | _, _ => none

/-- Word w of a slot's built-in contents (R201): a coefficient is the one at which the table is exact, or any finite value. -/
def sfuBuilt (slot w : Nat) : W32 :=
  if w < 768 then (sfuExact (sfuCoefSlot slot) w).getD (finite32 (Config.sfuCoef (sfuCoefSlot slot) w))
  else lget (sfuBuiltHead slot) 0 (w - 768)

/-- The place of a word of a slot's bank. -/
def sfuKey (slot bank w : Nat) : Nat := (2 * slot + bank) * 1024 + w
/-- The active bank of a slot. -/
def sfuBank (s : State) (slot : Nat) : Nat := b2n (s.sfu.bank.testBit slot)
/-- Word w of a bank of a slot, as it is stored. -/
def sfuStored (s : State) (slot bank w : Nat) : W32 := (mget s.sfu.tbl none (sfuKey slot bank w)).getD (sfuBuilt slot w)
/-- Word w of a slot's active bank as an evaluation reads it: none where it fails its parity (R423). -/
def sfuWord (s : State) (slot w : Nat) : Option W32 :=
  let k := sfuKey slot (sfuBank s slot) w
  if s.sfu.badTbl.contains k then none else some (sfuStored s slot (sfuBank s slot) w)

-- Headers (R197, R199).

/-- KIND of a header. -/
def hKind (h : W32) : Nat := fieldN h 30 2
/-- QUAD. -/
def hQuad (h : W32) : Bool := bitB h 29
/-- RED. -/
def hRed (h : W32) : Nat := fieldN h 26 3
/-- SYM. -/
def hSym (h : W32) : Nat := fieldN h 24 2
/-- NSEGL. -/
def hSegl (h : W32) : Nat := fieldN h 16 4
/-- WEXP. -/
def hWexp (h : W32) : Int := signedN 8 (fieldN h 8 8)
/-- POST. -/
def hPost (h : W32) : Nat := fieldN h 6 2
/-- SEL. -/
def hSel (h : W32) : Nat := fieldN h 0 5

/-- Whether a slot with this header is off (R199, R206). -/
def hOff (s : State) (h : W32) : Bool :=
  let common := bitB h 5
  match hKind h with
  | 0 => true
  | 1 => common || decide (4 < hRed h) || fieldN h 22 2 == 3 || fieldN h 20 2 == 3 || decide (8 < hSegl h) || hPost h == 3
      || hSel h != 0 || (hSym h != 0 && hRed h != 0)
  | 2 => common || fieldN h 6 24 != 0 || !hasUcode s
  | _ => common || decide (4 < hRed h) || fieldN h 22 2 == 3 || fieldN h 20 2 == 3 || decide (8 < hSegl h) || hPost h == 3
      || decide (3 < hSel h) || (hSym h != 0 && hRed h != 0)

-- Segment tables (R198, R200).

/-- A value written as binary32 without an operation. -/
def exact32 (x : FVal) : W32 := BitVec.ofNat 32 (ffEncode fFP32 .rne true 0 0 x).bits

/-- The canonical NaN of a domain error: INV. -/
def lInvalid : LaneM W32 := do laneFlag fINV; return f32Nan

/-- The largest finite value of a sign, or the infinity under OVF_INF, with OVF (R200). -/
def lHuge (neg : Bool) : LaneM W32 := fun t =>
  (BitVec.ofNat 32 (b2n neg <<< 31 ||| (if t.oi then 0x7F800000 else 0x7F7FFFFF)), { t with fl := t.fl ||| fOVF })

/-- The polynomial of segment k at t (R198); a word that fails its parity gives NaN and INV (R423). -/
def sfuPoly (w : Nat → Option W32) (quad : Bool) (k : Nat) (t : W32) : LaneM W32 :=
  match w (3 * k), w (3 * k + 1), (if quad then w (3 * k + 2) else some 0) with
  | some c0, some c1, some c2 =>
    if quad then poly2 t c0 c1 c2
    else do
      let a ← lRne (mulX (f32 t) (f32 c1))
      lRne (addX (f32 c0) (f32 a))
  | _, _, _ => do laneFlag (fINV ||| fPAR); return f32Nan

/-- A finite magnitude as M × 2^e with M of L + 1 bits, L at least 1. -/
def normal1 (m : Nat) (e : Int) : Nat × Nat × Int :=
  let l := Nat.log2 m
  (2 * m, l + 1, e - 1)

/-- The value scaled by 2^e, one rounding. -/
def lScale (p : W32) (e : Int) : LaneM W32 :=
  match f32 p with
  | .fin n m x => lRne (.fin n m (x + e), 0)
  | v => lRne (v, 0)

/-- Reduction EXP2. -/
def sfuExp2 (w : Nat → Option W32) (quad : Bool) (n : Nat) (a : W32) : LaneM W32 :=
  match f32 a with
  | .nan => pure f32Nan
  | .inf false => pure a
  | .inf true => pure 0
  | .fin neg m x =>
    if m = 0 then (match w 0 with | some c => pure c | none => do laneFlag (fINV ||| fPAR); return f32Nan)
    else if !ltX (.fin neg m x) (FVal.ofInt 128) then lHuge false
    else if ltX (.fin neg m x) (FVal.ofInt (-150)) then do laneFlag fUNF; return 0
    else
      let pt := min x 0
      let v := finUnits pt neg m x
      let one : Int := 2 ^ (-pt).toNat
      let e := v / one
      let f := (v % one).toNat
      let k := f * n / 2 ^ (-pt).toNat
      let t := (f * n - k * 2 ^ (-pt).toNat : Nat)
      do
        let t ← lRne (.fin false t (pt - Nat.log2 n), 0)
        let p ← sfuPoly w quad k t
        lScale p e

/-- Reduction LOG2. -/
def sfuLog2 (w : Nat → Option W32) (quad : Bool) (n : Nat) (a : W32) : LaneM W32 :=
  match f32 a with
  | .nan => pure f32Nan
  | .inf false => pure a
  | .inf true => lInvalid
  | .fin neg m x =>
    if m = 0 then lHuge true
    else if neg then lInvalid
    else
      let l := Nat.log2 m
      let r := m - 2 ^ l
      let k := r * n / 2 ^ l
      do
        let t ← lRne (.fin false (r * n - k * 2 ^ l) (-(l : Int) - Nat.log2 n), 0)
        let p ← sfuPoly w quad k t
        lRne (addX (FVal.ofInt (l + x)) (f32 p))

/-- Reduction RSQRT. -/
def sfuRsqrt (w : Nat → Option W32) (quad : Bool) (n : Nat) (a : W32) : LaneM W32 :=
  match f32 a with
  | .nan => pure f32Nan
  | .inf false => pure 0
  | .inf true => lInvalid
  | .fin neg m x =>
    if m = 0 then lHuge false
    else if neg then lInvalid
    else
      let (m, l, x) := normal1 m x
      let r := m - 2 ^ l
      let even := ((l : Int) + x) % 2 == 0
      let u := if even then l else l - 1
      let d := if even then 2 else 4
      let k := r * n / (d * 2 ^ u)
      do
        let t ← lRne (.fin false (r * n - d * k * 2 ^ u) (-(u : Int) - Nat.log2 n), 0)
        let p ← sfuPoly w quad (if even then k else n / 2 + k) t
        lScale p (-(((u : Int) + x) / 2))

/-- Reduction RECIP. -/
def sfuRecip (w : Nat → Option W32) (quad : Bool) (n : Nat) (a : W32) : LaneM W32 :=
  match f32 a with
  | .nan => pure f32Nan
  | .inf neg => pure (exact32 (.fin neg 0 0))
  | .fin neg m x =>
    if m = 0 then lHuge neg
    else
      let l := Nat.log2 m
      let r := m - 2 ^ l
      let k := r * n / 2 ^ l
      do
        let t ← lRne (.fin false (r * n - k * 2 ^ l) (-(l : Int) - Nat.log2 n), 0)
        let p ← sfuPoly w quad k t
        let p ← lScale p (-((l : Int) + x))
        if (f32 p).isNan then return p else return (putN p 31 1 (b2n neg))

/-- The symmetry of a table applied to its result (R198); `x` is the operand after CPRE. -/
def symApply (sym : Nat) (x p : W32) : LaneM W32 :=
  match sym with
  | 1 => pure (if (f32 p).isNan then p else putN p 31 1 (b2n (f32 x).sign))
  | 3 => if ltX (f32 x) FVal.zero then lRne (addX (FVal.ofInt 1) (f32 p).negate) else pure p
  | _ => pure p

/-- A header word of a slot, or NaN's failure. -/
def lWord (w : Option W32) (f : W32 → LaneM W32) : LaneM W32 :=
  match w with
  | some v => f v
  | none => do laneFlag (fINV ||| fPAR); return f32Nan

/-- The result at an edge of the domain: a constant, the input, or +0. -/
def sfuEdge (code : Nat) (c : Option W32) (sym : Nat) (x : W32) : LaneM W32 :=
  match code with
  | 0 => lWord c fun v => symApply sym x v
  | 1 => symApply sym x x
  | _ => symApply sym x 0

/-- POST of a result (R198). -/
def sfuPost (w : Nat → Option W32) (h xin p : W32) : LaneM W32 :=
  match hPost h with
  | 1 => lWord (w 773) fun c => lRne (mulX (f32 p) (f32 c))
  | 2 => lRne (mulX (f32 p) (f32 xin))
  | _ => pure p

/-- Reduction NONE: the segments from LO of width 2^WEXP (R198). The index stays below N where rounding would pass it
(log 16). -/
def sfuNone (w : Nat → Option W32) (h : W32) (n : Nat) (xin x a : W32) : LaneM W32 :=
  let sym := hSym h
  lWord (if sym = 0 then w 769 else some 0) fun lo =>
  if (f32 a).isNan then pure f32Nan
  else do
    let wd : FVal := .fin false 1 (hWexp h)
    let top ← lRne (addX (f32 lo) (mulX (FVal.ofInt n) wd).1)
    if ltX (f32 a) (f32 lo) || f32 a == .inf true then sfuEdge (fieldN h 22 2) (w 770) sym x
    else if !ltX (f32 a) (f32 top) then sfuEdge (fieldN h 20 2) (w 771) sym x
    else
      let d ← lRne (addX (f32 a) (f32 lo).negate)
      let k : Nat := match f32 d with
        | .fin _ m e => min (n - 1) (floorPow m (e - hWexp h))
        | _ => 0
      let at_ ← lRne (addX (f32 lo) (mulX (FVal.ofInt k) wd).1)
      let t ← lRne (addX (f32 a) (f32 at_).negate)
      let p ← sfuPoly w (hQuad h) k t
      let p ← symApply sym x p
      sfuPost w h xin p

/-- A segment-table slot with header h applied to the operand `xin` (R198, R200). -/
def sfuSegment (w : Nat → Option W32) (h xin : W32) : LaneM W32 :=
  let v := f32 xin
  if hPost h = 2 && (v.isZero || (match v with | .inf _ => true | _ => false)) then pure xin
  else lWord (w 772) fun cpre => do
    let x ← if cpre = f32One then pure xin else lRne (mulX v (f32 cpre))
    let a := if hSym h = 0 then x else putN x 31 1 0
    let n := 2 ^ hSegl h
    match hRed h with
    | 0 => sfuNone w h n xin x a
    | 1 => do sfuPost w h xin (← sfuExp2 w (hQuad h) n a)
    | 2 => do sfuPost w h xin (← sfuLog2 w (hQuad h) n a)
    | 3 => do sfuPost w h xin (← sfuRsqrt w (hQuad h) n a)
    | _ => do sfuPost w h xin (← sfuRecip w (hQuad h) n a)

-- Micro-programs (R203, R204).

/-- Bit 7 of a lane's word inside the model: a microcode word failed its parity (R423). -/
def fUPAR : Flg := 128

/-- Step word i of program p; none where it fails its parity. -/
def ucWord (s : State) (p i : Nat) : Option W32 :=
  if s.sfu.badUc.contains (16 * p + i) then none else some (mget s.sfu.uc 0 (16 * p + i))

/-- An operand of a step. -/
def ucOperand (rs : List W32) (x ca cb : W32) (code : Nat) : W32 :=
  match code with
  | 4 => x
  | 5 => ca
  | 6 => cb
  | 7 => 0
  | n => lget rs 0 n

/-- The smaller or larger of two binary32 values, as R107 orders them; a NaN gives the canonical NaN. -/
def minMax32 (mx : Bool) (a b : W32) : W32 :=
  if (f32 a).isNan || (f32 b).isNan then f32Nan
  else if mx then f32Max2 a b
  else
    let m := f32Max2 a b
    if m = a then b else a

/-- One step's result; `tbls` counts the TBL steps reached before it (R204). -/
def ucStep (s : State) (wd : W32) (tbls : Nat) (a b c : W32) : LaneM W32 :=
  match fieldN wd 28 4 with
  | 1 => lRne (addX (f32 a) (f32 b))
  | 2 => lRne (addX (f32 a) (f32 b).negate)
  | 3 => lRne (mulX (f32 a) (f32 b))
  | 4 => lRne (fmaX (f32 a) (f32 b) (f32 c))
  | 5 => pure (minMax32 false a b)
  | 6 => pure (minMax32 true a b)
  | 7 => pure (if (f32 a).isNan then f32Nan else putN a 31 1 0)
  | 8 =>
    let slot := fieldN wd 13 4
    if 2 ≤ tbls then lInvalid
    else lWord (sfuWord s slot 768) fun h =>
      if hKind h ≠ 1 then lInvalid
      else if hOff s h then lInvalid
      else sfuSegment (sfuWord s slot) h a
  | _ => lInvalid

/-- The steps of a program from step i on. -/
def ucRun (s : State) (p : Nat) (x ca cb : W32) : Nat → Nat → Nat → List W32 → LaneM W32
  | 0, _, _, rs => pure (lget rs 0 0)
  | fuel + 1, i, tbls, rs =>
    match ucWord s p i with
    | none => do laneFlag (fINV ||| fUPAR); return f32Nan
    | some wd =>
      if fieldN wd 28 4 = 0 then pure (lget rs 0 0)
      else do
        let o (lo : Nat) : W32 := ucOperand rs x ca cb (fieldN wd lo 3)
        let d ← ucStep s wd tbls (o 23) (o 20) (o 17)
        ucRun s p x ca cb fuel (i + 1) (tbls + b2n (fieldN wd 28 4 == 8)) (lupd rs (fieldN wd 26 2) fun _ => d)

/-- A micro-program slot applied to the operand of a lane. -/
def sfuMicro (s : State) (w : Nat → Option W32) (h x : W32) : LaneM W32 :=
  lWord (w 772) fun ca => lWord (w 773) fun cb => ucRun s (hSel h) x ca cb 16 0 0 [0, 0, 0, 0]

/-- A lane's evaluation: its value and the flags of R195. -/
def sfuLane (oi : Bool) (x : W32) (f : LaneM W32) : W32 × Flg :=
  let r := f { g := 1, oi := oi }
  let nanIn := (f32 x).isNan
  let v := r.1
  let isn := (f32 v).isNan
  (if isn then f32Nan else v, (r.2.fl &&& 0xC7) ||| flagIf nanIn fNAN ||| flagIf (isn && !nanIn) fINV)

-- Row functions (R206 to R208).

/-- One level of the tree over lanes, some of which take no part: neighbours added, one without a partner passed up. -/
def treeOpt (oi : Bool) : List (Option W32) → List (Option W32) × Flg
  | [] => ([], 0)
  | [x] => ([x], 0)
  | x :: y :: r =>
    let t := treeOpt oi r
    match x, y with
    | some a, some b =>
      let c := f32Add .rne oi 0 a b
      (some (BitVec.ofNat 32 c.bits) :: t.1, c.fl ||| t.2)
    | some a, none => (some a :: t.1, t.2)
    | none, y => (y :: t.1, t.2)

/-- The 7-level tree over the lanes that take part (R107): +0 if there is none. -/
def treeLanes (oi : Bool) (l : List (Option W32)) : W32 × Flg :=
  let r := (natsTo 7).foldl (fun (a : List (Option W32) × Flg) _ =>
    let t := treeOpt oi a.1
    (t.1, a.2 ||| t.2)) (l, 0)
  ((lget r.1 none 0).getD 0, r.2)

/-- A value divided by a positive integer: the quotient with a bit that stands for what is left. -/
def divN (x : FVal) (n : Nat) : FVal :=
  match x with
  | .fin neg m e =>
    let q := (m <<< 64) / n
    let r := (m <<< 64) % n
    if m = 0 then x else .fin neg (2 * q + (if r = 0 then 0 else 1)) (e - 65)
  | v => v

/-- The tree's sum as a lane operation. -/
def lTree (l : List (Option W32)) : LaneM W32 := fun t =>
  let r := treeLanes t.oi l
  (r.1, { t with fl := t.fl ||| (r.2 &&& ~~~fNAN) })

/-- An operation on every lane that takes part. -/
def lLanes (l : List (Option W32)) (f : W32 → LaneM W32) : LaneM (List (Option W32)) :=
  l.mapM fun x =>
    match x with
    | some v => do return some (← f v)
    | none => pure none

/-- ⌊√n⌋ + r for n below 4^k, built bit by bit from r. -/
def sqrtBits (n : Nat) : Nat → Nat → Nat
  | 0, r => r
  | k + 1, r => let x := r + 2 ^ k; sqrtBits n k (if x * x ≤ n then x else r)

/-- A word close to 1 / √(m × 2^e), m with at most 24 bits: its root is taken to 36 bits and rounded once. -/
def rsqrtNear (m : Nat) (e : Int) : W32 :=
  let x : Nat × Int := if e % 2 = 0 then (m, e) else (2 * m, e - 1)
  exact32 (.fin false (sqrtBits (2 ^ 96 / x.1) 49 0) (-48 - x.2 / 2))

/-- Whether lo ≤ r² × v × 2^44 ≤ hi, for a word r and v = m × 2^e. -/
def rsqrtBetween (lo hi m : Nat) (e : Int) (r : W32) : Bool :=
  match f32 r with
  | .fin false n x =>
    let p := n * n * m
    let y := 2 * x + e + 44
    if 0 ≤ y then decide (lo ≤ p <<< y.toNat) && decide (p <<< y.toNat ≤ hi)
    else decide (lo <<< (-y).toNat ≤ p) && decide (p ≤ hi <<< (-y).toNat)
  | _ => false

/-- The rsqrt of a positive value m × 2^e: any word within 2^-22 of it, and the exact one at 4^n (R201, R207). -/
def boundedRsqrt (v : W32) (m : Nat) (e : Int) : W32 :=
  let r := rsqrtNear m e
  if !rsqrtBetween (2 ^ 44) (2 ^ 44) m e r && rsqrtBetween ((2 ^ 22 - 1) ^ 2) ((2 ^ 22 + 1) ^ 2) m e (Config.fixedRsqrt v) then
    Config.fixedRsqrt v
  else r

/-- The unit's own rsqrt (R207): +0 gives the largest finite value and OVF. -/
def fixedRsqrt (v : W32) : LaneM W32 :=
  match f32 v with
  | .nan => pure f32Nan
  | .inf false => pure 0
  | .inf true => lInvalid
  | .fin neg m e => if m = 0 then lHuge false else if neg then lInvalid else pure (boundedRsqrt v m e)

/-- The variance of a row and whether it was clamped (R207). -/
def rowVar (xs : List (Option W32)) (p : W32) (n : Nat) : LaneM (W32 × Bool) := do
  let d ← lLanes xs fun x => if eqX (f32 x) (f32 p) then pure 0 else lRne (addX (f32 x) (f32 p).negate)
  let s1 ← lTree d
  let sq ← lLanes d fun x => lRne (mulX (f32 x) (f32 x))
  let s2 ← lTree sq
  let q ← lRne (divN (f32 s1) n, 0)
  let pr ← lRne (mulX (f32 s1) (f32 q))
  let df ← lRne (addX (f32 s2) (f32 pr).negate)
  let v ← lRne (divN (f32 df) n, 0)
  return (if ltX (f32 v) FVal.zero then (0, true) else (v, false))

/-- A row function's statistic over the acting lanes, and whether a variance was clamped (R206, R207). -/
def rowStat (sel : Nat) (eps : W32) (xs : List (Option W32)) (p : W32) (n : Nat) : LaneM (W32 × Bool) := do
  match sel with
  | 0 =>
    let d ← lLanes xs fun x => if eqX (f32 x) (f32 p) then pure 0 else lRne (addX (f32 x) (f32 p).negate)
    let s1 ← lTree d
    let q ← lRne (divN (f32 s1) n, 0)
    return (← lRne (addX (f32 p) (f32 q)), false)
  | 1 => rowVar xs p n
  | 2 =>
    let v ← rowVar xs p n
    let e ← lRne (addX (f32 v.1) (f32 eps))
    return (← fixedRsqrt e, v.2)
  | _ =>
    let sq ← lLanes xs fun x => lRne (mulX (f32 x) (f32 x))
    let s0 ← lTree sq
    let q ← lRne (divN (f32 s0) n, 0)
    let e ← lRne (addX (f32 q) (f32 eps))
    return (← fixedRsqrt e, false)

/-- A row function of the acting lanes: the statistic in each, its flags, and whether it clamped (R208). -/
def sfuRow (w : Nat → Option W32) (h : W32) (oi : Bool) (xs : List (Option W32)) : List (Option W32) × List Flg × Bool :=
  let act := xs.filterMap id
  match act with
  | [] => (xs, xs.map fun _ => 0, false)
  | p :: _ =>
    let all (v : W32) (fl : Flg) (c : Bool) : List (Option W32) × List Flg × Bool :=
      (xs.map fun x => x.map fun _ => v, xs.map fun x => if x.isSome then fl else 0, c)
    if act.any fun x => (f32 x).isNan then all f32Nan fNAN false
    else if hSel h ≠ 0 && act.any fun x => (match f32 x with | .inf _ => true | _ => false) then all f32Nan fINV false
    else
      match w 774 with
      | none => all f32Nan (fINV ||| fPAR) false
      | some eps =>
        let r := rowStat (hSel h) eps xs p act.length { g := 1, oi := oi }
        let isn := (f32 r.1.1).isNan
        all (if isn then f32Nan else r.1.1) ((r.2.fl &&& 0xC7) ||| flagIf isn fINV) r.1.2

-- Requests (R193 to R195).

/-- The results of a request, formed with the banks of the present slot: lanes, flags, whether the slot is off, whether a
variance was clamped (R194, R199, R202). -/
def sfuEval (s : State) (slot : Nat) (vec oi : Bool) (xs : List (Option W32)) :
    List (Option W32) × List Flg × Bool × Bool :=
  let nan (fl : Flg) : List (Option W32) × List Flg :=
    (xs.map fun x => x.map fun _ => f32Nan,
     xs.map fun x => match x with | some v => fl ||| flagIf (f32 v).isNan fNAN | none => 0)
  match sfuWord s slot 768 with
  | none => let r := nan (fINV ||| fPAR); (r.1, r.2, false, false)
  | some h =>
    let w := sfuWord s slot
    if hOff s h then let r := nan fINV; (r.1, r.2, true, false)
    else if hKind h = 3 then
      (if vec then let r := sfuRow w h oi xs; (r.1, r.2.1, false, r.2.2)
       else let r := nan fINV; (r.1, r.2, false, false))
    else
      let f (x : W32) : LaneM W32 := if hKind h = 1 then sfuSegment w h x else sfuMicro s w h x
      let l := xs.map fun x =>
        match x with
        | some v => let r := sfuLane oi v (f v); (some r.1, r.2)
        | none => (none, 0)
      (l.map (·.1), l.map (·.2), false, false)

/-- The outcome of a request: accepted; accepted in place of the request of a record that started later; or not
performed. -/
inductive SfuAns where
  | ok
  | took (q : SfuReq)
  | lost
  deriving DecidableEq, Repr

/-- A request put to the unit in the present slot (R189, R193): of two in one slot the one of the record that started
earlier is performed. -/
def sfuAsk (s : State) (b : Bench) (pos : Nat) (who : SfuWho) (slot : Nat) (vec : Bool) (xs : List (Option W32))
    (row : Nat := 0) : SfuAns × State :=
  let due := s.clk.slot + 12
  let old := s.sfu.reqs.find? fun q => q.due == due
  let put (s : State) : State :=
    let r := sfuEval s slot vec b.ovfInf xs
    { s with
      sfu := { s.sfu with reqs := s.sfu.reqs.filter (fun q => q.due != due) ++
        [{ who := who, uid := b.uid, pos := pos, due := due, ord := s.vec.ord + 1, row := row, lanes := r.1, fls := r.2.1
           off := r.2.2.1, clamp := r.2.2.2 }] }
      vec := { s.vec with ord := s.vec.ord + 1 } }
  match old with
  | none => (.ok, put s)
  | some q => if startedBefore q.uid q.pos b.uid pos then (.lost, s) else (.took q, put s)

/-- All the flags of a request. -/
def sfuFlags (q : SfuReq) : Flg := q.fls.foldl (· ||| ·) 0

/-- The status that a delivered request leaves: SFU_STICKY, the count of clamps, and the failures of parity (R195, R199,
R207, R423). `off` is the requester's own sticky register. -/
def sfuStatus (s : State) (q : SfuReq) (off : Nat) : State :=
  let fl := sfuFlags q
  let s := stick (stick s 0x5004 fl 0x17) off fl 0x17
  let s := if q.off then orReg s 0x5004 0x40 else s
  let s := if q.clamp then incReg s 0x501C 0 32 else s
  let s := lanePar s fl 3
  if fl &&& fUPAR = 0 then s else ramParity s 5

/-- The request that is due first, taken from the unit. -/
def sfuTake (s : State) : Option (SfuReq × State) :=
  match s.sfu.reqs with
  | [] => none
  | x :: r =>
    let q := r.foldl (fun a e => if e.due < a.due then e else a) x
    some (q, { s with sfu := { s.sfu with reqs := s.sfu.reqs.filter (· != q) } })

end Sys2Proof.Machine
end

