-- ==== Sys2Proof/Machine/ScanOps.lean ====
section
/-! DEFINITION. The scan stage: records, parameters, dispatch, the slots of a chunk, the prefix network, traces and the
commit (06_scan_and_state_space.md, R151 to R165). -/
namespace Sys2Proof.Machine

-- The record (R152, R224).

/-- S_MODE. -/
def sMode (r : Rec) : Nat := rf r 0 22 2
/-- S_N. -/
def sN (r : Rec) : Nat := zeroIs 64 (rf r 0 16 6)
/-- Stream k's seam. -/
def sSeam (r : Rec) (k : Nat) : Nat := (rf r 0 8 8 + k) % 256
/-- S_LEN. -/
def sLen (r : Rec) : Nat := zeroIs 64 (rf r 0 2 6)
/-- S_OUT. -/
def sOut (r : Rec) : Nat := rf r 0 0 2
/-- S_ISSUE. -/
def sIssue (r : Rec) : Nat := rf r 1 16 16
/-- S_STRIDE. -/
def sStride (r : Rec) : Nat := zeroIs 512 (rf r 1 7 9)
/-- S_OWRAP. -/
def sWrap (r : Rec) : Nat := zeroIs 1024 (rf r 3 22 10)
/-- The kind of trace j. -/
def sKind (r : Rec) (j : Nat) : Nat := rf r 3 (10 + 2 * (j % 4)) 2
/-- Rows of the parameter block that are read (R153). -/
def sParRows (r : Rec) : Nat := if sMode r = 2 then 6 else 5
/-- The slots between two rows of a chunk, R of R156, for E traces. -/
def scanR (r : Rec) (e : Nat) : Nat :=
  if sMode r = 2 then (if e ≤ 2 then 2 else 4) else max (max 1 e) (if sOut r = 3 then 2 else 1)
/-- The slots from a row's read to the step's entry, D of R156. -/
def scanD (r : Rec) : Nat := if sMode r = 2 then 31 else 3
/-- Row i of the held parameter block, lane l. -/
def sPar (r : Rec) (i l : Nat) : W32 := lget (lget r.par [] i) 0 l
/-- The slot of the dispatch of stream k. -/
def sDue (b : Bench) (r : Rec) (k : Nat) : Nat := b.start + sIssue r + k * sStride r

-- Chunks.

/-- Whether a chunk is stream k's of a record. -/
def isChunk (uid pos k : Nat) (c : ScanChunk) : Bool := c.uid == uid && c.pos == pos && c.k == k
/-- The chunk in flight of stream k of a record. -/
def chunkOf (s : State) (uid pos k : Nat) : Option ScanChunk := s.scan.chunks.find? (isChunk uid pos k)
/-- A chunk changed by `f`. -/
def updChunk (s : State) (c : ScanChunk) (f : ScanChunk → ScanChunk) : State :=
  { s with scan := { s.scan with chunks := s.scan.chunks.map fun x => if isChunk c.uid c.pos c.k x then f x else x } }
/-- Step t of a chunk changed by `f`. -/
def updScanStep (s : State) (c : ScanChunk) (t : Nat) (f : ScanStep → ScanStep) : State :=
  updChunk s c fun x => { x with steps := lupd x.steps t f }
/-- The set-up of a record changed by `f`. -/
def updSetup (s : State) (uid pos : Nat) (f : ScanSetup → ScanSetup) : State :=
  { s with scan := { s.scan with setups := s.scan.setups.map fun x => if x.uid = uid && x.pos = pos then f x else x } }
/-- The set-up of a record. -/
def setupOf (s : State) (uid pos : Nat) : ScanSetup :=
  (s.scan.setups.find? fun x => x.uid == uid && x.pos == pos).getD { uid := uid, pos := pos, req := 0 }
/-- The slot in which the network takes step t of a chunk; 0 before its row is read. -/
def entryOf (r : Rec) (c : ScanChunk) (t : Nat) : Nat :=
  match c.steps[t]? with
  | some x => x.r + scanD r
  | none => 0

/-- The chunk of stream k becomes spoil: its writes are dropped, it is counted, and the seam's chunk may end (R26, R160). -/
def scanSpoil (s : State) (uid pos k seam : Nat) : State :=
  let s := { s with scan := { s.scan with chunks := s.scan.chunks.filter fun c => !isChunk uid pos k c } }
  let s := { s with acc := { s.acc with wq := s.acc.wq.filter fun w => !(w.uid == uid && w.pos == pos && w.k == k) } }
  let s := updRec (incReg (noteSpoil s uid) 0x4F0C 0 32) uid pos fun r => { r with dead := r.dead ++ [k] }
  chunkMayEnd (vstDrop (seamSpoil s seam) uid seam) uid pos seam

/-- The chunk of stream k is lost to an earlier record: SLOT_SLIP of cause 4, and spoil (R160). -/
def scanLost (s : State) (uid pos k : Nat) : State :=
  match recOf s uid pos, chunkOf s uid pos k with
  | some (b, r), some c => scanSpoil (slip s b r 4 0 0) uid pos k c.seam
  | _, _ => s

/-- A request of the special function unit that lost its slot to an earlier record's (R160, R189). A set-up that is lost
takes every chunk of its record with it. -/
def sfuLoser (s : State) (q : SfuReq) : State :=
  match q.who with
  | .scanSoft k _ => scanLost s q.uid q.pos k
  | .scanExp k _ => scanLost s q.uid q.pos k
  | _ =>
    match recOf s q.uid q.pos with
    | some (b, r) =>
      let s := slip s b r 4 0 0
      (match q.who with
       | .scanSetup => updRec s q.uid q.pos fun r => { r with lost := true }
       | _ => s)
    | none => s

/-- A request of the scan stage; a lost one answers false (R160, R194). -/
def scanAsk (s : State) (b : Bench) (r : Rec) (who : SfuWho) (slot : Nat) (xs : List (Option W32)) : Bool × State :=
  let a := sfuAsk s b r.pos who slot false xs
  match a.1 with
  | .ok => (true, a.2)
  | .took q => (true, sfuLoser a.2 q)
  | .lost => (false, a.2)

-- Arithmetic (R151, R155, R163).

/-- binary32 fused multiply-add in a lane. -/
def lFma (a b c : W32) : LaneM W32 := laneRound fun md oi q => f32Fma md oi q a b c

/-- Lanes of the scan stage at work under the bench's ARND, with the flags in SCAN_STICKY. -/
def scanLanes {α : Type} (s : State) (b : Bench) (n : Nat) (f : Nat → LaneM α) : List α × State :=
  let x := runLanes s siteScan n (benchRnd b b.arnd) b.ovfInf f
  (x.1, stick x.2.2 0x4F00 x.2.1 0x1F)

/-- The products of a set-up: pB × pA of mode 1 and β of modes 0 and 1 (R151, R153), in all 128 lanes (DEDUCED, log 17). -/
def scanProds (s : State) (b : Bench) (r : Rec) : State :=
  if sMode r = 2 then s
  else
    let p := if sMode r = 1 then scanLanes s b 128 fun l => lMul (sPar r 1 l) (sPar r 0 l) else ([], s)
    let x := scanLanes p.2 b 128 fun l => lMul (sPar r 1 l) (sPar r 2 l)
    updSetup x.2 b.uid r.pos fun u => { u with prod := p.1, beta := x.1 }

/-- ln 2 (R163). -/
def ln2 : W32 := 0x3F317218#32

/-- Whether a trace of some stream of a record is of a kind (R163). -/
def kindUsed (s : State) (r : Rec) (kind : Nat) : Bool :=
  (natsTo 4).any fun j => sKind r j == kind && (natsTo (sN r)).any fun k => decide (j < (seam s (sSeam r k)).nelig)

/-- A factor of mode 1's traces: (a × p) × LN2 (R163). -/
def scanFactor (s : State) (b : Bench) (r : Rec) (i : Nat) : List W32 × State :=
  let u := setupOf s b.uid r.pos
  scanLanes s b 128 fun l => do
    let g ← lMul (lget u.a 0 l) (sPar r i l)
    lMul g ln2

/-- The factors of mode 1's traces, of the kinds that the record's traces have (R163). -/
def scanFactors (s : State) (b : Bench) (r : Rec) : State :=
  if sMode r ≠ 1 then s
  else
    let x := if kindUsed s r 0 then scanFactor s b r 1 else ([], s)
    let y := if kindUsed x.2 r 2 then scanFactor x.2 b r 0 else ([], x.2)
    updSetup y.2 b.uid r.pos fun u => { u with g := x.1, g2 := y.1 }

/-- A pair through the six levels of the network: as each level received it and as it left (R155). `old ℓ d` is the pair of the
step d before as level ℓ received it. -/
def netLevels (t : Nat) (old : Nat → Nat → W32 × W32) (p : W32 × W32) : LaneM (List (W32 × W32)) := do
  let r ← (natsTo 6).foldlM (fun (a : List (W32 × W32)) lv => do
    let cur := lget a (0, 0) lv
    let d := 2 ^ lv
    if d ≤ t then
      let o := old lv d
      let x ← lMul o.1 cur.1
      let y ← lFma cur.1 o.2 cur.2
      return (a ++ [(x, y)])
    else return (a ++ [cur])) [p]
  return r

/-- The pair of lane l at level ℓ among stored ones. -/
def pairAt (lv : List (List (W32 × W32))) (l level : Nat) : W32 × W32 := lget (lget lv [] l) (0, 0) level

/-- Step t enters the network (R151, R155). -/
def scanEnter (s : State) (b : Bench) (r : Rec) (c : ScanChunk) (t : Nat) (st : ScanStep) : State :=
  let w := (seam s c.seam).width
  let setup := setupOf s b.uid r.pos
  let a (l : Nat) : W32 := match sMode r with | 0 => sPar r 0 l | 1 => lget setup.a 0 l | _ => lget st.a 0 l
  let x := scanLanes s b w fun l => do
    let xt ← gOperand st.x l
    let xp ← lMul (sPar r 2 l) xt
    let u ← if sMode r = 2 then lMul (lget st.dlt 0 l) xp else lMul (lget setup.beta 0 l) xt
    let lv ← netLevels t (fun level d => pairAt (lget c.steps st (t - d)).lv l level) (a l, u)
    return (xp, lv)
  updScanStep x.2 c t fun st => { st with xp := x.1.map (·.1), lv := x.1.map (·.2), a := (natsTo w).map a }

/-- A row of output put on its way (R152). -/
def scanRow (s : State) (b : Bench) (r : Rec) (c : ScanChunk) (w i off : Nat) (v : List W32) : State :=
  let td := rf r 2 2 6
  let row := tdAcc b td ((if sOut r = 3 then 2 * (i % sWrap r) else i % sWrap r) + off)
  let x : AccWrite :=
    { due := s.clk.slot, row := row, kind := .row, uid := c.uid, pos := c.pos, k := c.k
      lanes := (natsTo 128).map fun l => some (if l < w then lget v 0 l else 0)
      md := { fmt := 4, epoch := effEp b td (rf r 3 18 4), stale := false } }
  pushWrite s x

/-- A row of the seam put on its way. -/
def scanSeamRow (s : State) (c : ScanChunk) (i : Nat) (lanes : List (Option W32)) : State :=
  pushWrite s { due := s.clk.slot, row := i, kind := .seam c.seam, uid := c.uid, pos := c.pos, lanes := lanes, md := {}, k := c.k }

/-- The row of eligibility trace j within a copy (R110). -/
def eligRow (m : Seam) (j : Nat) : Nat := nStd m.nvec + (if m.deep = 0 then 0 else m.nvec) + j

/-- A seam row read for a chunk; a lost port makes it spoil (R160). -/
def scanSeamRead (s : State) (b : Bench) (r : Rec) (c : ScanChunk) (i : Nat) (f : List W32 → ScanChunk → ScanChunk) : State :=
  let x := seamPortRead s b r c.seam i
  match x.1 with
  | some d => updChunk x.2 c (f d)
  | none => scanSpoil x.2 c.uid c.pos c.k c.seam

/-- The carry read from the committed view: a deep channel's binary32 value, else the standard entry (R126, R162). -/
def scanCarry (s : State) (b : Bench) (r : Rec) (c : ScanChunk) : State :=
  let m := seam s c.seam
  let s := scanSeamRead s b r c 0 fun d x => { x with carry := (natsTo m.width).map fun l => widen (sfmtCode m) (stdCode d 0 l) }
  if m.deep = 0 || (chunkOf s c.uid c.pos c.k).isNone then s
  else scanSeamRead s b r c (nStd m.nvec) fun d x =>
    { x with carry := (natsTo m.width).map fun l => if isDeep m l then lget d 0 l else lget x.carry 0 l }

/-- h_t is ready; the last one's deep row is written (R155, R157). -/
def scanState (s : State) (b : Bench) (r : Rec) (c : ScanChunk) (t : Nat) (st : ScanStep) : State :=
  let m := seam s c.seam
  let x := scanLanes s b m.width fun l =>
    let p := pairAt st.lv l 6
    lFma p.1 (lget c.carry 0 l) p.2
  let s := updScanStep x.2 c t fun st => { st with h := x.1 }
  let s := if sOut r = 1 then scanRow s b r c m.width (c.k * sLen r + t) 0 x.1 else s
  if t + 1 = sLen r && m.deep ≠ 0 then scanSeamRow s c (nStd m.nvec) (deepLanes m x.1) else s

/-- The standard row of the state, converted under CRND (R127, R157). -/
def scanStd (s : State) (b : Bench) (c : ScanChunk) (st : ScanStep) : State :=
  let m := seam s c.seam
  let x := scanLanes s b m.width fun l => lStd b m (lget st.h 0 l)
  scanSeamRow x.2 c 0 (stdLanes m x.1 [])

/-- y_t formed and written (R151, R157). -/
def scanOut (s : State) (b : Bench) (r : Rec) (c : ScanChunk) (t : Nat) (st : ScanStep) : State :=
  if sOut r < 2 then s
  else
    let w := (seam s c.seam).width
    let x := scanLanes s b w fun l => do
      let p ← lMul (sPar r 4 l) (lget st.xp 0 l)
      lFma (sPar r 3 l) (lget st.h 0 l) p
    scanRow x.2 b r c w (c.k * sLen r + t) 0 x.1

/-- The input v_t of trace j in lane l (R163). -/
def traceInput (r : Rec) (u : ScanSetup) (st : ScanStep) (hprev : W32) (j l : Nat) : LaneM W32 := do
  match sKind r j, sMode r with
  | 1, _ => return lget st.xp 0 l
  | 2, _ => lFma (lget u.g2 0 l) hprev (lget st.xp 0 l)
  | _, 0 => lMul f32One hprev
  | _, 1 => lMul (lget u.g 0 l) hprev
  | _, _ =>
    let g ← lMul (lget st.a 0 l) (lget st.dlt 0 l)
    let g ← lMul g ln2
    lMul g hprev

/-- Trace j of step t enters the network (R157, R163). -/
def traceEnter (s : State) (b : Bench) (r : Rec) (c : ScanChunk) (t j : Nat) (st : ScanStep) : State :=
  let w := (seam s c.seam).width
  let u := setupOf s b.uid r.pos
  let x := scanLanes s b w fun l => do
    let hp := if t = 0 then lget c.carry 0 l else lget (lget c.steps st (t - 1)).h 0 l
    let v ← traceInput r u st hp j l
    netLevels t (fun level d => pairAt (mget (lget c.steps st (t - d)).tlv [] j) l level) (lget st.a 0 l, v)
  updScanStep x.2 c t fun st => { st with tlv := mset st.tlv [] j x.1 }

/-- Trace j of step t is ready; the last one's eligibility row is written (R157). -/
def traceReady (s : State) (b : Bench) (r : Rec) (c : ScanChunk) (t j : Nat) (st : ScanStep) : State :=
  let m := seam s c.seam
  let x := scanLanes s b m.width fun l =>
    let p := pairAt (mget st.tlv [] j) l 6
    lFma p.1 (lget (mget c.carryT [] j) 0 l) p.2
  let s := updScanStep x.2 c t fun st => { st with tr := mset st.tr [] j x.1 }
  let s := if sOut r = 3 && j = 0 then scanRow s b r c m.width (c.k * sLen r + t) 1 x.1 else s
  if t + 1 = sLen r then
    scanSeamRow s c (eligRow m j) ((natsTo 128).map fun l => if l < m.width then some (lget x.1 0 l) else none)
  else s

-- The slots of a chunk (R156, R157).

/-- Acting lanes of a chunk's requests: those below W (log 17). -/
def scanAct (v : List W32) : List (Option W32) := v.map some ++ List.replicate (128 - v.length) none

/-- The softplus request of step t (R151, R156). -/
def scanSoft (s : State) (b : Bench) (r : Rec) (c : ScanChunk) (t : Nat) (st : ScanStep) : State :=
  let x := scanLanes s b (seam s c.seam).width fun l => do
    let dr ← gOperand st.d l
    lFma (sPar r 5 l) dr (sPar r 1 l)
  let a := scanAsk x.2 b r (.scanSoft c.k t) 7 (scanAct x.1)
  if a.1 then a.2 else scanLost a.2 c.uid c.pos c.k

/-- The exp2 request of step t. -/
def scanExp (s : State) (b : Bench) (r : Rec) (c : ScanChunk) (t : Nat) (st : ScanStep) : State :=
  let x := scanLanes s b (seam s c.seam).width fun l => lMul (lget st.dlt 0 l) (sPar r 0 l)
  let a := scanAsk x.2 b r (.scanExp c.k t) 0 (scanAct x.1)
  if a.1 then a.2 else scanLost a.2 c.uid c.pos c.k

/-- What step t of a chunk does in slot x, but for its entry. -/
def scanStepSlot (s : State) (b : Bench) (r : Rec) (c : ScanChunk) (t x : Nat) (st : ScanStep) : State :=
  let e := st.r + scanD r
  if sMode r = 2 && x = st.r + 4 then scanSoft s b r c t st
  else if sMode r = 2 && x = st.r + 19 then scanExp s b r c t st
  else if x = e + 21 then scanState s b r c t st
  else
    let s := if x = e + 22 && t + 1 = sLen r then scanStd s b c st else s
    let s := if x = e + 24 then scanOut s b r c t st else s
    let s := foldTo c.e (fun j s => if x = e + 24 + j then
      (match chunkOf s c.uid c.pos c.k with | some c => traceEnter s b r c t j st | none => s) else s) s
    foldTo c.e (fun j s => if x = e + 45 + j then
      (match chunkOf s c.uid c.pos c.k with | some c => traceReady s b r c t j (lget c.steps st t) | none => s) else s) s

/-- The last slot that concerns a step read in slot r0. -/
def stepLast (r : Rec) (r0 e : Nat) : Nat := r0 + scanD r + 46 + e

/-- What a chunk does in slot x: the carries, its steps, and the check of its commit window (R113, R157). `busy` tells that an
earlier record's step enters the network in this slot (R160); answers whether one of this chunk does. -/
def scanChunkSlot (s : State) (b : Bench) (r : Rec) (c : ScanChunk) (x : Nat) (busy : Bool) : Bool × State :=
  let enter := c.steps.findIdx? fun st => st.r + scanD r == x
  match enter with
  | some t =>
    if busy then (true, scanLost s c.uid c.pos c.k)
    else (true, rest (scanEnter s b r c t (lget c.steps { r := 0 } t)))
  | none => (busy, rest s)
where
  /-- A further action of the chunk, if it is still in flight. -/
  again (s : State) (f : ScanChunk → State → State) : State :=
    match chunkOf s c.uid c.pos c.k with
    | some c => f c s
    | none => s
  /-- The carries, the steps in flight, and the commit window's check. -/
  rest (s : State) : State :=
    let e0 := entryOf r c 0
    let s := if !c.steps.isEmpty && x == e0 + 17 then again s (fun c s => scanCarry s b r c) else s
    let s := foldTo c.e (fun j s => if !c.steps.isEmpty && x == e0 + 41 + j then
      again s (fun c s =>
        let m := seam s c.seam
        scanSeamRead s b r c (eligRow m j) fun d y => { y with carryT := mset y.carryT [] j (d.take m.width) }) else s) s
    let s := (natsTo c.steps.length).foldl (fun s t =>
      again s (fun c s =>
        match c.steps[t]? with
        | some st => if x ≤ stepLast r st.r c.e && st.r + scanD r != x then scanStepSlot s b r c t x st else s
        | none => s)) s
    if c.steps.length = sLen r && x + 1 = entryOf r c (sLen r - 1) + (if c.e = 0 then 24 else 46 + c.e) then
      again s (fun c s => if (seam s c.seam).shadowBad then scanSpoil (reqHalt s 4 b r.pos) c.uid c.pos c.k c.seam else s)
    else s

/-- Chunks in the order in which their records started. -/
def chunkInsert (l : List ScanChunk) (c : ScanChunk) : List ScanChunk :=
  match l with
  | [] => [c]
  | x :: r => if startedBefore c.uid c.pos x.uid x.pos then c :: x :: r else x :: chunkInsert r c

/-- What a set-up does in slot x (R151, R153): the products by S_ISSUE − 17, mode 1's exp2 request in S_ISSUE − 16, and the trace factors in
S_ISSUE − 1, the last slot in which they are ready by S_ISSUE (DESIGN CHOICE, log 125). -/
def scanSetup (s : State) (b : Bench) (r : Rec) (u : ScanSetup) (x : Nat) : State :=
  if x + 1 = u.req then scanProds s b r
  else if x = u.req && sMode r = 1 then
    let a := scanAsk s b r .scanSetup 0 (scanAct u.prod)
    if a.1 then a.2 else updRec (slip a.2 b r 4 0 0) b.uid r.pos fun r => { r with lost := true }
  else if x = u.req + 15 then scanFactors s b r
  else s

/-- The set-ups in slot x; that of a record which has lost a parameter does nothing. -/
def scanSetups (s : State) (x : Nat) : State :=
  eachS s.scan.setups (fun u s =>
    match recOf s u.uid u.pos with
    | none => s
    | some (b, r) => if r.lost then s else scanSetup s b r u x) s

/-- The scan stage in slot x. -/
def scanSlots (s : State) (x : Nat) : State :=
  let s := scanSetups s x
  ((s.scan.chunks.foldl chunkInsert []).foldl (fun (a : Bool × State) c =>
    match recOf a.2 c.uid c.pos, chunkOf a.2 c.uid c.pos c.k with
    | some (b, r), some c => scanChunkSlot a.2 b r c x a.1
    | _, _ => a) (false, s)).2

-- Events.

/-- The next row of a record's parameter block (R153); with the last one the set-up is scheduled. -/
def scanParam (s : State) (b : Bench) (r : Rec) : State :=
  let n := r.par.length
  let x := rowRead s b r (tdAcc b (rf r 2 12 6) n) (effEp b (rf r 2 12 6) (rf r 2 8 4))
  let s := match x.1 with
    | some (d, _) => updRec x.2 b.uid r.pos fun r => { r with par := r.par ++ [d] }
    | none => updRec x.2 b.uid r.pos fun r => { r with par := r.par ++ [[]], lost := true }
  if n = 4 then
    { s with scan := { s.scan with setups := s.scan.setups ++ [{ uid := b.uid, pos := r.pos, req := s.clk.slot + 4 }] } }
  else s

/-- The dispatch of the next stream's chunk (R115, R154, R165). -/
def scanDispatch (s : State) (b : Bench) (r : Rec) : State :=
  let k := r.n
  let sm := sSeam r k
  let a := seamAccess s b r sm
  if !a.1 then gateDead a.2 b r k
  else
    let s := updRec a.2 b.uid r.pos fun r => { r with n := k + 1 }
    let c : ScanChunk := { uid := b.uid, pos := r.pos, k := k, seam := sm, s := s.clk.slot, e := (seam s sm).nelig }
    let s := { s with scan := { s.scan with
      chunks := s.scan.chunks ++ [c], lastSeam := sm, lastUid := b.uid, lastPos := r.pos, lastK := k, lastNext := 0 } }
    if r.lost then scanSpoil s b.uid r.pos k sm else s

/-- The chunk of a record whose next row is to be read. -/
def scanNextRead (s : State) (b : Bench) (r : Rec) : Option ScanChunk :=
  s.scan.chunks.find? fun c => c.uid == b.uid && c.pos == r.pos && decide (c.steps.length < sLen r)

/-- The next row of a chunk read, with its format rule (R124, R152, R157). -/
def scanRead (s : State) (b : Bench) (r : Rec) (c : ScanChunk) : State :=
  let t := c.steps.length
  let i := c.k * sLen r + t
  let x := gateRows s b r [tdAcc b (rf r 1 1 6) i] (effEp b (rf r 1 1 6) (rf r 2 28 4))
  let y := if sMode r = 2 && x.1.isSome then
      gateRows x.2 b r [tdAcc b (rf r 2 22 6) i] (effEp b (rf r 2 22 6) (rf r 2 18 4))
    else (x.1, x.2)
  match x.1, y.1 with
  | some p, some d =>
    let st : ScanStep := { r := s.clk.slot, x := lget p (0, []) 0, d := lget d (0, []) 0 }
    let s := updChunk y.2 c fun c => { c with steps := c.steps ++ [st] }
    if isChunk s.scan.lastUid s.scan.lastPos s.scan.lastK c then { s with scan := { s.scan with lastNext := t + 1 } } else s
  | _, _ => scanSpoil y.2 c.uid c.pos c.k c.seam

/-- The commit slot of a chunk whose rows have all been read (R157). -/
def scanCommitDue (r : Rec) (c : ScanChunk) : Nat := entryOf r c (sLen r - 1) + (if c.e = 0 then 24 else 46 + c.e)

/-- The first chunk in flight of a record. -/
def firstChunk (s : State) (b : Bench) (r : Rec) : Option ScanChunk :=
  s.scan.chunks.find? fun c => c.uid == b.uid && c.pos == r.pos

/-- y of the last step of a chunk without traces is written in the commit slot (R157). -/
def scanLastOut (s : State) (b : Bench) (r : Rec) (c : ScanChunk) : State :=
  match c.steps.getLast? with
  | some st => if c.e = 0 && decide (s.clk.slot ≤ scanCommitDue r c) then scanOut s b r c (sLen r - 1) st else s
  | none => s

/-- The commit of a chunk: its C steps at once, with what it writes in that slot (R157, R158, R142). -/
def scanCommitStep (s : State) (b : Bench) (r : Rec) (c : ScanChunk) : State :=
  let s := scanLastOut s b r c
  let s := { s with scan := { s.scan with chunks := s.scan.chunks.filter fun x => !isChunk c.uid c.pos c.k x } }
  let s := updRec s b.uid r.pos fun r => { r with dead := r.dead ++ [c.k] }
  let s := vstRelease (countCommit (seamCommit s c.seam (sLen r)) c.uid c.seam) c.uid c.seam
  chunkMayEnd (incReg (releaseCommit s c.seam (sLen r)) 0x4F08 0 32) c.uid c.pos c.seam

/-- A result of the special function unit for the scan stage. -/
def scanDeliver (s : State) (q : SfuReq) : State :=
  let v := (q.lanes.map fun x => x.getD 0)
  match q.who with
  | .scanSetup => updSetup s q.uid q.pos fun u => { u with a := v }
  | .scanSoft k t =>
    match chunkOf s q.uid q.pos k with
    | some c => updScanStep s c t fun st => { st with dlt := v }
    | none => s
  | .scanExp k t =>
    match chunkOf s q.uid q.pos k with
    | some c => updScanStep s c t fun st => { st with a := v }
    | none => s
  | .vec _ => s

end Sys2Proof.Machine
end

