-- ==== Sys2Proof/Machine/Ports.lean ====
section
/-! DEFINITION. The read ports of the accumulator memory in a slot: what each record still reads in it, and the slots of the gate pipe and
the scan stage in that order (04_accumulators_and_seams.md, R97; 05_recurrent_cells.md, R137, R458; 06_scan_and_state_space.md,
R160). -/
namespace Sys2Proof.Machine

/-- A condition as a count. -/
def portsIf (c : Bool) (n : Nat) : Nat := if c then n else 0

/-- The read ports that a step of the gate pipe takes in slot x (R136). -/
def gatePorts (s : State) (x : Nat) (t : GateStep) : Nat :=
  match recOf s t.uid t.pos with
  | none => 0
  | some (_, r) =>
    portsIf (x == t.g && rf r 2 17 1 != 1) (cellP (gCell r)) + portsIf (x == t.g + 1) (cellP (gCell r))
      + portsIf (x == t.g + 2) (if (seam s t.seam).deep = 0 then 1 else 2) + portsIf (x == t.g + 3 && t.audit) 1

/-- The read ports that a scan chunk takes in slot x for its carries (R157). -/
def chunkPorts (s : State) (x : Nat) (c : ScanChunk) : Nat :=
  match recOf s c.uid c.pos with
  | none => 0
  | some (_, r) =>
    let e0 := entryOf r c 0
    if c.steps.isEmpty then 0
    else portsIf (x == e0 + 17) (if (seam s c.seam).deep = 0 then 1 else 2)
      + portsIf (decide (e0 + 41 ≤ x) && decide (x < e0 + 41 + c.e)) 1

/-- Whether a start of the gate pipe that is due in slot x will be performed, and read its projection rows in it (R136, R137). -/
def gateStarts (s : State) (x : Nat) (b : Bench) (r : Rec) : Bool :=
  decide (r.n < gN r) && r.par.length == gParRows r && x == gDue b r r.n && rf r 2 17 1 != 1 && !r.lost
    && takesPart s b (gSeam r r.n) && !(s.gate.hasLast && decide (x < s.gate.lastStart + s.gate.lastP))

/-- Whether a scan chunk will be dispatched in slot x, and read its first row in it (R157). -/
def scanStarts (s : State) (x : Nat) (b : Bench) (r : Rec) : Bool :=
  decide (r.n < sN r) && r.par.length == sParRows r && x == sDue b r r.n && !r.lost && takesPart s b (sSeam r r.n)

/-- The read ports that a record takes in slot x for a total, a parameter row, a start of the gate pipe or a row of a scan chunk that has
not come yet (R108, R135, R136, R153, R156). -/
def recPorts (s : State) (x : Nat) (b : Bench) (r : Rec) : Nat :=
  if r.fin then 0
  else
    match r.ty with
    | 3 =>
      let fmt := (accMeta s (drRow b r 0)).fmt
      portsIf (decide (r.n < drRows r) && x == drDue b r r.n) (if (if r.n = 0 then fmt == 2 || fmt == 5 else r.pair) then 2 else 1)
    | 4 =>
      portsIf (decide (r.par.length < gParRows r) && x == b.start + gIssue r - 13 + r.par.length) 1
        + portsIf (gateStarts s x b r) (cellP (gCell r))
    | 5 =>
      portsIf (decide (r.par.length < sParRows r) && x == b.start + sIssue r - 24 + r.par.length) 1
        + portsIf ((scanNextRead s b r).any (fun c => x == c.s + scanR r c.e * c.steps.length) || scanStarts s x b r)
            (if sMode r = 2 then 2 else 1)
    | _ => 0

/-- The sum of a count over a list. -/
def countBy {α : Type} (l : List α) (f : α → Nat) : Nat := l.foldl (fun a x => a + f x) 0

/-- The read ports that scan chunks of records which started before a record take at the end of the present slot. -/
def chunksAhead (s : State) (uid pos : Nat) : Nat :=
  countBy (s.scan.chunks.filter fun c => startedBefore c.uid c.pos uid pos) (chunkPorts s s.clk.slot)

/-- The read ports that stages of records which started before a record still take in the present slot. -/
def stagesAhead (s : State) (uid pos : Nat) : Nat :=
  chunksAhead s uid pos
    + countBy (s.gate.steps.filter fun t => startedBefore t.uid t.pos uid pos) (gatePorts s s.clk.slot)
    + countBy s.seq.benches fun b =>
        countBy (b.recs.filter fun r => startedBefore b.uid r.pos uid pos) (recPorts s s.clk.slot b)

/-- Steps of the gate pipe in the order in which their records started. -/
def stepInsert (l : List GateStep) (t : GateStep) : List GateStep :=
  match l with
  | [] => [t]
  | x :: r => if startedBefore t.uid t.pos x.uid x.pos then t :: x :: r else x :: stepInsert r t

/-- Every step of the gate pipe in flight does what it does in slot x; a scan chunk of a record that started earlier keeps its ports. -/
def gateSlots (s : State) (x : Nat) : State :=
  eachS ((s.gate.steps.foldl stepInsert []).map fun t => (t.uid, t.pos, t.k)) (fun i s =>
    match stepOf s i.1 i.2.1 i.2.2 with
    | some t => gateSlot (setAhead s (chunksAhead s t.uid t.pos)) t x
    | none => s) s

/-- The gate pipe and the scan stage in slot x. -/
def stageSlots (s : State) (x : Nat) : State := scanSlots (setAhead (gateSlots s x) 0) x

end Sys2Proof.Machine
end

