-- ==== Sys2Proof/Machine/VecOps.lean ====
section
/-! DEFINITION. The vector engine: registers, operands, results on their way, issue, loops, seams and the writer, and the
check of a recipe (07_vector_engine.md, R168 to R190). -/
namespace Sys2Proof.Machine

-- The record (R171).

/-- V_RCP. -/
def vRcp (r : Rec) : Nat := rf r 0 18 6
/-- V_ISSUE. -/
def vIssueOff (r : Rec) : Nat := rf r 1 16 16
/-- The descriptor of base k. -/
def vBase (r : Rec) (k : Nat) : Nat := rf r 2 (26 - 6 * (k % 4)) 6
/-- The effective epoch of base k. -/
def vEp (b : Bench) (r : Rec) (k : Nat) : Nat := effEp b (vBase r k) (rf r 0 (4 * (k % 4)) 4)
/-- The seam of a select. -/
def vSeam (r : Rec) (sel : Nat) : Nat := if sel = 0 then rf r 1 8 8 else rf r 1 0 8
/-- The seams of the selects in use. -/
def vSeams (r : Rec) : List Nat := ([0, 1].filter fun i => rf r 0 (16 + i) 1 == 1).map (vSeam r)

/-- Bits [lo + len - 1 : lo] of an instruction. -/
def vF (w : W64) (lo len : Nat) : Nat := fieldN w lo len

-- Registers and results on their way (R168, R174).

/-- Register r as its 128 lanes. -/
def vReg (s : State) (r : Nat) : List W32 := (natsTo 128).map fun l => mget s.vec.v 0 (128 * r + l)
/-- Mask r. -/
def vMaskReg (s : State) (r : Nat) : BitVec 128 := lget s.vec.m 0 r

/-- A mask with the bits of its lanes replaced. -/
def putMask (m : BitVec 128) (l : List (Option W32)) : BitVec 128 :=
  (natsTo l.length).foldl (fun m i =>
    match lget l none i with
    | some v => if v = 0 then m &&& ~~~(1#128 <<< i) else m ||| (1#128 <<< i)
    | none => m) m

/-- A result put into its register. -/
def applyRes (s : State) (x : VRes) : State :=
  match x.dst with
  | .v r => (natsTo x.lanes.length).foldl (fun s l =>
      match lget x.lanes none l with
      | some v => { s with vec := { s.vec with v := mset s.vec.v 0 (128 * r + l) v } }
      | none => s) s
  | .m r => { s with vec := { s.vec with m := lupd s.vec.m r fun m => putMask m x.lanes } }
  | .k r =>
    match lget x.lanes none 0 with
    | some v => { s with vec := { s.vec with k := lupd s.vec.k r fun _ => v.toNat } }
    | none => s

/-- Results by their slot, and of one slot by the order of issue (R174). -/
def resInsert (l : List VRes) (x : VRes) : List VRes :=
  match l with
  | [] => [x]
  | y :: r => if x.due < y.due || (x.due == y.due && decide (x.ord < y.ord)) then x :: y :: r else y :: resInsert r x

/-- The results whose slot has come reach their registers. -/
def applyDue (s : State) : State :=
  let due := s.vec.res.filter fun x => decide (x.due ≤ s.clk.slot)
  let s := { s with vec := { s.vec with res := s.vec.res.filter fun x => !decide (x.due ≤ s.clk.slot) } }
  eachS (due.foldl resInsert []) (fun x s => applyRes s x) s

/-- A result on its way to a register, `lam` slots after the present one. -/
def pushRes (s : State) (b : Bench) (r : Rec) (lam : Nat) (d : VDst) (lanes : List (Option W32)) : State :=
  { s with vec := { s.vec with
      res := s.vec.res ++ [⟨s.clk.slot + lam, s.vec.ord + 1, d, lanes, b.uid, r.pos⟩], ord := s.vec.ord + 1 } }

/-- Flags of lanes ORed into the lanes' own copies and VEC_STICKY (R187). -/
def vFlags (s : State) (fls : List Flg) : State :=
  (natsTo fls.length).foldl (fun s l =>
    let f := lget fls 0 l &&& 0x3F
    if f = 0 then s
    else
      let s := { s with vec := { s.vec with
        flags := mset s.vec.flags 0 l ((BitVec.ofNat 8 (mget s.vec.flags 0 l) ||| f).toNat) } }
      stick s 0x4804 f 0x3F) s

-- Lanes (R170).

/-- Whether lane l acts. -/
def vActs (s : State) (w : W64) (l : Nat) : Bool :=
  decide (l < s.vec.vl) && (vF w 57 1 == 0 || (vMaskReg s (vF w 54 3)).getLsbD l)

/-- A computation in every acting lane under ARND: the lanes' values and flags. -/
def vLanes (s : State) (b : Bench) (w : W64) (f : Nat → LaneM W32) : List (Option W32) × List Flg × State :=
  let r := (natsTo 128).foldl (fun (a : List (Option W32) × List Flg × State) l =>
    if vActs s w l then
      let x := runLane a.2.2 siteVec l (benchRnd b b.arnd) b.ovfInf (f l)
      (some x.1 :: a.1, x.2.1 :: a.2.1, x.2.2)
    else (none :: a.1, 0 :: a.2.1, a.2.2)) ([], [], s)
  (r.1.reverse, r.2.1.reverse, r.2.2)

-- Operands (R177 to R180).

/-- The accumulator row of an operand: base, offset and loop indices. -/
def vRow (s : State) (b : Bench) (r : Rec) (op : Nat) : Nat :=
  tdAcc b (vBase r (op / 64 % 4))
    (op % 16 + (op / 32 % 2) * lget s.vec.li 0 0 + (op / 16 % 2) * lget s.vec.li 0 1)

/-- A row of a seam as an operand reads it: held or past the copy, zeros; a lost port reads nothing (R179, R180). -/
def vSeamRead (s : State) (b : Bench) (r : Rec) (op : Nat) : Option (List W32) × State :=
  let k := vSeam r (op / 128 % 2)
  let i := op % 16
  let zeros := List.replicate 128 (0 : W32)
  let a := seamAccess s b r k
  let m := seam a.2 k
  if !a.1 || m.nrows ≤ i then (some zeros, a.2)
  else
    let t := takeRead a.2 1
    if !t.1 then (none, slip a.2 b r 4 0 0)
    else
      let d := if op / 64 % 2 = 0 then seamCommitted t.2 k i else seamCurrent t.2 k i
      let c := if op / 64 % 2 = 0 then viewCopy d.2 k else m.cur
      let s := seamTaint d.2 k (accMeta d.2 (seamRow m c i)).poison
      match op / 16 % 4 with
      | 0 => (some d.1, s)
      | 1 => (some (d.1.map fun v => widen (sfmtCode m) (fieldN v 0 16)), s)
      | _ => (some (d.1.map fun v => widen (sfmtCode m) (fieldN v 16 16)), s)

/-- A source operand's 128 lanes; none where its access was lost (R175, R177, R178). -/
def vSrc (s : State) (b : Bench) (r : Rec) (w : W64) (op : Nat) : Option (List W32) × State :=
  match op / 256 with
  | 0 => (some (vReg s (op % 32)), s)
  | 1 =>
    let x := rowRead s b r (vRow s b r op) (vEp b r (op / 64 % 4))
    (x.1.map (·.1), x.2)
  | 2 => vSeamRead s b r op
  | _ =>
    let imm := vF w 0 14
    (some ((natsTo 128).map fun l =>
      match op % 256 with
      | 0 => BitVec.ofInt 32 (signedN 14 imm)
      | 1 => BitVec.ofNat 32 (imm <<< 18)
      | _ => BitVec.ofNat 32 l), s)

/-- The standard half that a write of deep row d changes with it, for the deep channels it changes (R179). -/
def vMirror (s : State) (b : Bench) (m : Seam) (i : Nat) (lanes : List (Option W32)) :
    List (Nat × W32 × List (Option W32)) × List Flg × State :=
  if m.deep = 0 || i < nStd m.nvec || nStd m.nvec + m.nvec ≤ i then ([], [], s)
  else
    let d := i - nStd m.nvec
    let x := (natsTo lanes.length).foldl (fun (a : List (Option W32) × List Flg × State) l =>
      match lget lanes none l with
      | some v =>
        if isDeep m l then
          let y := runLane a.2.2 siteVec l (benchRnd b b.crnd) b.ovfInf (lStd b m v)
          (some (BitVec.ofNat 32 (y.1 <<< (16 * (d % 2)))) :: a.1, y.2.1 :: a.2.1, y.2.2)
        else (none :: a.1, 0 :: a.2.1, a.2.2)
      | none => (none :: a.1, 0 :: a.2.1, a.2.2)) ([], [], s)
    ([(d / 2, BitVec.ofNat 32 (0xFFFF <<< (16 * (d % 2))), x.1.reverse)], x.2.1.reverse, x.2.2)

/-- Values converted for a standard half, of the channels that lie in no deep group (R179). -/
def vHalf (s : State) (b : Bench) (m : Seam) (hi : Bool) (lanes : List (Option W32)) :
    List (Option W32) × List Flg × State :=
  let x := (natsTo lanes.length).foldl (fun (a : List (Option W32) × List Flg × State) l =>
    match lget lanes none l with
    | some v =>
      if isDeep m l then (none :: a.1, 0 :: a.2.1, a.2.2)
      else
        let y := runLane a.2.2 siteVec l (benchRnd b b.crnd) b.ovfInf (lStd b m v)
        (some (BitVec.ofNat 32 (y.1 <<< (if hi then 16 else 0))) :: a.1, y.2.1 :: a.2.1, y.2.2)
    | none => (none :: a.1, 0 :: a.2.1, a.2.2)) ([], [], s)
  (x.1.reverse, x.2.1.reverse, x.2.2)

/-- Whether a write changes entry j of row i whole: not a standard entry of a channel in a deep group, nor an entry of a deep row outside
the deep groups (R110, R179). -/
def vWhole (m : Seam) (i j : Nat) : Bool := if i < nStd m.nvec then !isDeep m j else seamBits m i j != 0

/-- A write of a seam row on its way; dropped for a held seam (R180); past the copy it takes its port and writes nothing (R175, R179). A half
that holds no vector, and an entry of a deep row outside the deep groups, stay 0 (R110). -/
def vSeamWrite (s : State) (b : Bench) (r : Rec) (lam op ord : Nat) (lanes : List (Option W32)) : State :=
  let k := vSeam r (op / 128 % 2)
  let i := op % 16
  let a := seamAccess s b r k
  let m := seam a.2 k
  let w : AccWrite := { due := a.2.clk.slot + lam, row := i, kind := .seam k, uid := b.uid, pos := r.pos, lanes := lanes, md := {}
                        ord := ord, mask := seamBits m i 0, void := lanes.all Option.isNone }
  if !a.1 then a.2
  else if m.nrows ≤ i then pushWrite a.2 { w with void := true }
  else
    match op / 16 % 4 with
    | 0 =>
      let x := vMirror a.2 b m i lanes
      pushWrite (vFlags x.2.2 x.2.1)
        { w with lanes := lanes.mapIdx fun j v => if vWhole m i j then v else none, also := x.1
                 mask := if i < nStd m.nvec then seamBits m i 0 else 0xFFFFFFFF }
    | p =>
      let x := vHalf a.2 b m (p == 2) lanes
      let mask : W32 := if p = 2 then 0xFFFF0000 else 0x0000FFFF
      pushWrite (vFlags x.2.2 x.2.1)
        { w with lanes := x.1.mapIdx fun j v => if seamBits m i j = 0 then none else v, mask := if i < nStd m.nvec then mask &&& seamBits m i 0 else mask }

/-- FMT that an instruction stamps: 1 for an int32 one, 4 for a binary32 one; for one that is neither the manual states none
(free value, log 18). -/
def vFmt (s : State) (fmt : Option Nat) : Nat :=
  match fmt with
  | some f => f
  | none => if Config.freeCopy s.free then 1 else 4

/-- A result sent to its destination operand, which names accumulator row `row`, in issue order `ord` (R174, R178, R179). One in which no
lane acts takes its write port all the same (R175). -/
def vDstAt (s : State) (b : Bench) (r : Rec) (lam : Nat) (fmt : Option Nat) (op row ord : Nat) (lanes : List (Option W32))
    (sat : Bool) : State :=
  match op / 256 with
  | 0 => pushRes s b r lam (.v (op % 32)) lanes
  | 1 =>
    let w : AccWrite :=
      { due := s.clk.slot + lam, row := row, ord := ord, void := lanes.all Option.isNone, kind := .row, uid := b.uid, pos := r.pos, lanes := lanes
        md := { fmt := vFmt s fmt, epoch := vEp b r (op / 64 % 4), stale := false, sat := sat } }
    pushWrite (if fmt.isNone then { s with free := s.free + 1 } else s) w
  | 2 => vSeamWrite s b r lam op ord lanes
  | _ => s

/-- A result of the instruction that issues, sent to its destination operand. -/
def vDst (s : State) (b : Bench) (r : Rec) (lam : Nat) (fmt : Option Nat) (op : Nat) (lanes : List (Option W32))
    (sat : Bool) : State :=
  let o := s.vec.ord + 1
  vDstAt (if op / 256 = 0 then s else { s with vec := { s.vec with ord := o } }) b r lam fmt op (vRow s b r op) o lanes sat

/-- Whether some lane's flags hold SAT. -/
def anySat (fls : List Flg) : Bool := fls.any fun f => f &&& fSAT != 0

/-- A result with its flags. -/
def vResult (s : State) (b : Bench) (r : Rec) (lam : Nat) (fmt : Option Nat) (w : W64) (lanes : List (Option W32))
    (fls : List Flg) : State :=
  vDst (vFlags s fls) b r lam fmt (vF w 44 10) lanes (anySat fls)

-- Instructions of format R.

/-- The effect of an instruction: the bench, the record, the instruction. -/
abbrev VFn := State → Bench → Rec → W64 → State

/-- The first `n` source operands; none where an access was lost. -/
def vSrcs (s : State) (b : Bench) (r : Rec) (w : W64) (n : Nat) : Option (List (List W32)) × State :=
  ((natsTo n).foldl (fun (a : Option (List (List W32)) × State) i =>
    match a.1 with
    | none => a
    | some l =>
      let x := vSrc a.2 b r w (vF w (34 - 10 * i) 10)
      (x.1.map fun v => l ++ [v], x.2)) (some [], s))

/-- A lane-wise instruction of `n` data sources (R170, R182). -/
def vOp (lam : Nat) (fmt : Option Nat) (n : Nat) (f : Bench → W64 → W32 → W32 → W32 → LaneM W32) : VFn :=
  fun s b r w =>
    let x := vSrcs s b r w n
    match x.1 with
    | none => x.2
    | some l =>
      let v (i lane : Nat) : W32 := lget (lget l [] i) 0 lane
      let y := vLanes x.2 b w fun k => f b w (v 0 k) (v 1 k) (v 2 k)
      vResult y.2.2 b r lam fmt w y.1 y.2.1

/-- An integer result, saturated (R101). -/
def lSat (i : Int) : LaneM W32 := do
  let r := sat32 i
  laneFlag r.2
  return r.1

/-- An int32 instruction. -/
def vInt (lam : Nat) (f : Int → Int → Int) : VFn := vOp lam (some 1) 2 fun _ _ a b _ => lSat (f (i32 a) (i32 b))
/-- A bitwise instruction. -/
def vBits (f : W32 → W32 → W32) : VFn := vOp 2 none 2 fun _ _ a b _ => pure (f a b)

/-- VMIN and VMAX. -/
def vMinMax (mx : Bool) : VFn := vOp 2 (some 4) 2 fun _ _ a b _ => do
  laneFlag (flagIf ((f32 a).isNan || (f32 b).isNan) fNAN)
  return minMax32 mx a b

/-- VABS and VNEG. -/
def vSign (f : W32 → W32) : VFn := vOp 2 (some 4) 1 fun _ _ a _ _ =>
  if (f32 a).isNan then do laneFlag fNAN; return f32Nan else return f a

/-- VSRA: rounded under CRND at bit 0. -/
def vShiftRight : VFn := vOp 2 (some 1) 1 fun b w a _ _ =>
  laneRound fun _ _ q =>
    let x := i32 a
    let r := intEncode 32 (benchRnd b b.crnd) q (.fin (decide (x < 0)) x.natAbs (-(vF w 0 5 : Int)))
    { r with fl := 0 }

/-- VCVTFI. -/
def vToInt : VFn := vOp 2 (some 1) 1 fun b _ a _ _ =>
  laneRound fun _ _ q => intEncode 32 (benchRnd b b.crnd) q (f32 a)

/-- VCVTIF. -/
def vToFloat : VFn := vOp 2 (some 4) 1 fun _ _ a _ _ => lCvt32 (FVal.ofInt (i32 a))

/-- VRND: rounded to the format IMM[3:0] and kept as binary32. -/
def vRound : VFn := vOp 2 (some 4) 1 fun b w a _ _ => do
  let c ← laneRound fun _ oi q => fmtEncode (vF w 0 4) (benchRnd b b.crnd) oi q (f32 a)
  return widen (vF w 0 4) c.toNat

/-- The mask that an operand names. -/
def vMaskOp (s : State) (op : Nat) : BitVec 128 := vMaskReg s (op % 8)

/-- VSEL. -/
def vSelect : VFn := fun s b r w =>
  let m := vMaskOp s (vF w 14 10)
  let x := vSrcs s b r w 2
  match x.1 with
  | none => x.2
  | some l =>
    let y := vLanes x.2 b w fun k => pure (lget (lget l [] (if m.getLsbD k then 0 else 1)) 0 k)
    vResult y.2.2 b r 2 none w y.1 y.2.1

/-- Whether a comparison code holds: EQ, NE, LT, LE, GT, GE. -/
def ccHolds (cc : Nat) (lt eq gt : Bool) : Bool :=
  match cc with
  | 0 => eq
  | 1 => !eq
  | 2 => lt
  | 3 => lt || eq
  | 4 => gt
  | _ => gt || eq

/-- A comparison into a mask. -/
def vCompare (f : Nat → W32 → W32 → Bool × Flg) : VFn := fun s b r w =>
  let x := vSrcs s b r w 2
  match x.1 with
  | none => x.2
  | some l =>
    let y := vLanes x.2 b w fun k => do
      let c := f (vF w 0 3) (lget (lget l [] 0) 0 k) (lget (lget l [] 1) 0 k)
      laneFlag c.2
      return BitVec.ofNat 32 (b2n c.1)
    pushRes (vFlags y.2.2 y.2.1) b r 2 (.m (vF w 44 10 % 8)) y.1

/-- The comparison of VCMPI. -/
def cmpInt (cc : Nat) (a b : W32) : Bool × Flg :=
  (ccHolds cc (decide (i32 a < i32 b)) (decide (a = b)) (decide (i32 b < i32 a)), 0)

/-- The comparison of VCMPF: with a NaN 0, except that NE gives 1. -/
def cmpFloat (cc : Nat) (a b : W32) : Bool × Flg :=
  if (f32 a).isNan || (f32 b).isNan then (cc == 1, fNAN)
  else (ccHolds cc (ltX (f32 a) (f32 b)) (eqX (f32 a) (f32 b)) (ltX (f32 b) (f32 a)), 0)

/-- The lanes of a mask result. -/
def maskLanes (s : State) (w : W64) (m : BitVec 128) : List (Option W32) :=
  (natsTo 128).map fun l => if vActs s w l then some (BitVec.ofNat 32 (b2n (m.getLsbD l))) else none

/-- Mask logic. -/
def vMaskLogic (f : BitVec 128 → BitVec 128 → BitVec 128) : VFn := fun s b r w =>
  pushRes s b r 1 (.m (vF w 44 10 % 8)) (maskLanes s w (f (vMaskOp s (vF w 34 10)) (vMaskOp s (vF w 24 10))))

/-- Set bits of a mask among the acting lanes. -/
def maskCount (s : State) (w : W64) (m : BitVec 128) : Nat :=
  ((natsTo 128).filter fun l => vActs s w l && m.getLsbD l).length

/-- MCNT. -/
def vCount : VFn := fun s b r w =>
  pushRes s b r 1 (.k (vF w 44 10 % 4)) [some (BitVec.ofNat 32 (maskCount s w (vMaskOp s (vF w 34 10))))]

/-- MFLG. -/
def vFlagMask : VFn := fun s b r w =>
  let m : BitVec 128 := (natsTo 128).foldl (fun m l =>
    if (mget s.vec.flags 0 l).testBit (vF w 0 3) then m ||| (1#128 <<< l) else m) 0
  pushRes s b r 1 (.m (vF w 44 10 % 8)) (maskLanes s w m)

/-- MFCLR. -/
def vFlagClear : VFn := fun s _ _ w =>
  (natsTo 128).foldl (fun s' l =>
    if vActs s w l then { s' with vec := { s'.vec with flags := mset s'.vec.flags 0 l 0 } } else s') s

/-- The lanes below VL whose mask bit is 1, rising (R184, R185). -/
def takenLanes (s : State) (m : BitVec 128) : List Nat := (natsTo 128).filter fun l => decide (l < s.vec.vl) && m.getLsbD l

/-- VCPRS (R184). -/
def vCompress : VFn := fun s b r w =>
  let kn := vF w 14 10 % 4
  let k0 := lget s.vec.k 0 kn
  let ls := takenLanes s (vMaskOp s (vF w 24 10))
  let x := vSrcs s b r w 1
  match x.1 with
  | none => x.2
  | some l =>
    let lanes := (natsTo 128).map fun j =>
      if k0 ≤ j && j < k0 + ls.length then some (lget (lget l [] 0) 0 (lget ls 0 (j - k0))) else none
    let drop := k0 + ls.length - 128
    let s := if drop = 0 then x.2 else orReg (addReg x.2 0x4824 0 32 drop) 0x4804 0x40
    let s := vDst s b r 3 none (vF w 44 10) lanes false
    pushRes s b r 3 (.k kn) [some (BitVec.ofNat 32 (min 128 (k0 + ls.length)))]

/-- VEXPD (R185). -/
def vExpand : VFn := fun s b r w =>
  let ls := takenLanes s (vMaskOp s (vF w 24 10))
  let x := vSrcs s b r w 1
  match x.1 with
  | none => x.2
  | some l =>
    let lanes := (natsTo 128).map fun j =>
      match ls.findIdx? (· == j) with
      | some c => some (lget (lget l [] 0) 0 c)
      | none => none
    vDst x.2 b r 3 none (vF w 44 10) lanes false

/-- A reduction of the acting lanes (R186). -/
def vReduce (fmt : Nat) (f : Bool → List (Option W32) → W32 × Flg) : VFn := fun s b r w =>
  let x := vSrcs s b r w 1
  match x.1 with
  | none => x.2
  | some l =>
    let act := (natsTo 128).map fun k => if vActs s w k then some (lget (lget l [] 0) 0 k) else none
    let v := f b.ovfInf act
    vResult x.2 b r 8 (some fmt) w (act.map fun a => a.map fun _ => v.1) (act.map fun a => if a.isSome then v.2 else 0)

/-- The integers of the acting lanes. -/
def actInts (l : List (Option W32)) : List Int := (l.filterMap id).map i32
/-- VRSUMI: exact, saturated once. -/
def redSumI (_ : Bool) (l : List (Option W32)) : W32 × Flg := sat32 ((actInts l).foldl (· + ·) 0)
/-- VRMAXI. -/
def redMaxI (_ : Bool) (l : List (Option W32)) : W32 × Flg :=
  (BitVec.ofInt 32 (match actInts l with | [] => 0 | x :: r => r.foldl max x), 0)
/-- VRMAXF. -/
def redMaxF (_ : Bool) (l : List (Option W32)) : W32 × Flg := maxF (l.filterMap id)

/-- VSFU: a request in the issue slot (R189, R193). -/
def vSfu : VFn := fun s b r w =>
  let x := vSrcs s b r w 1
  match x.1 with
  | none => x.2
  | some l =>
    let act := (natsTo 128).map fun k => if vActs s w k then some (lget (lget l [] 0) 0 k) else none
    let a := sfuAsk x.2 b r.pos (.vec (vF w 44 10)) (vF w 0 4) true act (vRow x.2 b r (vF w 44 10))
    match a.1 with
    | .ok => a.2
    | .took q => sfuLoser a.2 q
    | .lost => slip a.2 b r 4 0 0

/-- A result of the special function unit delivered to its requester (R193, R195). -/
def sfuDeliver (s : State) (q : SfuReq) : State :=
  match q.who with
  | .vec dst =>
    let s := vFlags (sfuStatus s q 0x4804) (q.fls.map fun f => f &&& 0x17)
    if dst / 256 = 0 then
      { s with vec := { s.vec with res := s.vec.res ++ [⟨q.due, q.ord, .v (dst % 32), q.lanes, q.uid, q.pos⟩] } }
    else
      match recOf s q.uid q.pos with
      | some (b, r) => vDstAt s b r 0 (some 4) dst q.row q.ord q.lanes false
      | none => s
  | _ => scanDeliver (sfuStatus s q 0x4F00) q

/-- Every request whose slot has come delivered, and every result that is due put into its register. `fuel` bounds the
requests in flight. -/
def vecFlush (fuel : Nat) (s : State) : State :=
  match fuel with
  | 0 => applyDue s
  | f + 1 =>
    match sfuTake s with
    | some (q, t) => if q.due ≤ s.clk.slot then vecFlush f (sfuDeliver t q) else applyDue s
    | none => applyDue s

-- Loads and stores (R188).

/-- The row that a VLD or VST names. -/
def vTdRow (s : State) (w : W64) : Nat :=
  vF w 22 10 + vF w 33 1 * lget s.vec.li 0 0 + vF w 32 1 * lget s.vec.li 0 1

/-- A loaded element as a lane holds it: an integer sign-extended, a float widened exactly; +0 past the row's bytes. -/
def vldLane (fmt : Nat) (bs : List Byte) (l : Nat) : W32 :=
  let n := fmtBits fmt / 8
  if bs.length < n * (l + 1) then 0
  else if fmtIsInt fmt then BitVec.ofInt 32 (signedN (fmtBits fmt) (elemAt fmt bs l))
  else widen fmt (elemAt fmt bs l)

/-- Whether a VLD names a descriptor that it may not (R226, R251). -/
def vldBad (s : State) (b : Bench) (td row : Nat) : Bool :=
  let k := tdKind b td
  k == 0 || decide (3 < k) || (k == 1 && (xposeAt s (tdSpad s b td row)).isSome)

/-- The words of a descriptor that fail their parity as an instruction reads it (R423). -/
def vTdFails (b : Bench) (td : Nat) : List Nat := b.badTd.filter fun x => x / 8 == td

/-- VLD: answers whether it has issued, or waits for its data (R188). With VL = 0 it reads nothing and takes its write port all the same
(R175). -/
def vLoad (s : State) (b : Bench) (r : Rec) (w : W64) : Bool × State :=
  let td := vF w 38 6
  let fmt := vF w 34 4
  let row := vTdRow s w
  if !(vTdFails b td).isEmpty then (true, ramParities s 1 (vTdFails b td))
  else if vldBad s b td row then (true, badFormat s b r.pos)
  else if s.vec.vl = 0 then (true, vDst s b r 2 none (vF w 44 10) (List.replicate 128 none) false)
  else
    let x := feedRow s b r td row (s.vec.vl * (fmtBits fmt / 8)) false false 2
    match x.1 with
    | .wait => (false, x.2)
    | .nothing => (true, x.2)
    | .row bs bad =>
      if bad then (true, reqHalt x.2 4 b r.pos)
      else
        let lanes := (natsTo 128).map fun l => if l < s.vec.vl then some (vldLane fmt bs l) else none
        (true, vDst x.2 b r 2 (some (if fmtIsInt fmt then 1 else 4)) (vF w 44 10) lanes false)

/-- Whether a request of the special function unit is a record's and its result is bound for seam k. -/
def sfuToSeam (uid : Nat) (r : Rec) (k : Nat) (q : SfuReq) : Bool :=
  q.uid == uid && q.pos == r.pos &&
    match q.who with
    | .vec dst => dst / 256 == 2 && vSeam r (dst / 128 % 2) == k
    | _ => false

/-- Whether a vector record has writes to seam k on their way. -/
def vOnWay (s : State) (uid : Nat) (r : Rec) (k : Nat) : Bool :=
  (s.acc.wq.any fun w => w.kind == .seam k && w.uid == uid && w.pos == r.pos && !w.void) || s.sfu.reqs.any (sfuToSeam uid r k)

/-- Seams of the record with writes of the step in progress, made or on their way (R181). -/
def vOpenSeams (s : State) (b : Bench) (r : Rec) : List Nat :=
  (vSeams r).filter fun k =>
    (match benchOf s b.uid with | some b => b.disp.contains k | none => false) &&
      ((seam s k).shadow != [] || (s.acc.wq.any fun x => x.kind == .seam k && !x.void) || s.sfu.reqs.any (sfuToSeam b.uid r k))

/-- Whether a seam of the record is held: its outputs are suppressed (R115, log 19). -/
def vHeldSeam (s : State) (b : Bench) (r : Rec) : Bool :=
  match benchOf s b.uid with
  | some b => (vSeams r).any fun k => b.held.contains k
  | none => false

/-- The lanes of a VST converted by the writer, with the flags of each. -/
def vstCodes (s : State) (b : Bench) (fmt n : Nat) (l : List W32) : List Nat × List Flg × State :=
  let x := (natsTo n).foldl (fun (a : List Nat × List Flg × State) i =>
    let v := lget l 0 i
    let y := rnd a.2.2 siteWr i fun q =>
      fmtEncode fmt (benchRnd b b.crnd) b.ovfInf q (if fmtIsInt fmt then FVal.ofInt (i32 v) else f32 v)
    (y.1.bits :: a.1, y.1.fl :: a.2.1, y.2)) ([], [], s)
  (x.1.reverse, x.2.1.reverse, x.2.2)

/-- The format by whose size a VST places its elements: the descriptor's (R262). A code that is wider than that is cut to its low bits, a
narrower one filled out with zeros; under a code that names no format the instruction's own places them (DESIGN CHOICE, log 126). -/
def vstPlace (b : Bench) (td fmt : Nat) : Nat := if tdFmt b td ≤ 10 then tdFmt b td else fmt

/-- VST: its row goes to the writer in the next slot, or waits for the commits of its open seams (R181, R188). -/
def vStore : VFn := fun s b r w =>
  let td := vF w 38 6
  let fmt := vF w 34 4
  let k := tdKind b td
  if !(vTdFails b td).isEmpty then ramParities s 1 (vTdFails b td)
  else if k = 0 || 4 < k then badFormat s b r.pos
  else
    let x := vSrc s b r w (vF w 44 10)
    match x.1 with
    | none => x.2
    | some l =>
      if vHeldSeam x.2 b r || s.vec.vl = 0 then x.2
      else
        let y := vstCodes x.2 b fmt s.vec.vl l
        let s := vFlags y.2.2 y.2.1
        let v : HeldVst := { seams := vOpenSeams s b r, td := td, row := vTdRow s w, bytes := packCodes (vstPlace b td fmt) y.1
                             uid := b.uid, pos := r.pos, due := s.clk.slot + 1 }
        { s with vec := { s.vec with vsts := s.vec.vsts ++ [v] } }

/-- The rows whose slot has come handed to the writer, in order; one that must wait freezes the tile (R257), and an output of a held stream is
suppressed (R115). `fuel` bounds the rows. -/
def vstDrain (fuel : Nat) (s : State) : State :=
  match fuel with
  | 0 => s
  | f + 1 =>
    match s.vec.vsts.find? fun v => v.seams.isEmpty && decide (v.due ≤ s.clk.slot) with
    | none => s
    | some v =>
      match benchOf s v.uid with
      | none => vstDrain f { s with vec := { s.vec with vsts := s.vec.vsts.erase v } }
      | some b =>
        if outHeld s b v.td then vstDrain f { s with vec := { s.vec with vsts := s.vec.vsts.erase v } }
        else if writerBlocked s b v.td then writerFreeze s b v.td
        else vstDrain f (writerOut { s with vec := { s.vec with vsts := s.vec.vsts.erase v } } b v.pos v.td v.row v.bytes)

-- Commits (R181).

/-- VCOMMIT: a held or skipped seam commits nothing; a skip counts it (R180, R235). -/
def vCommit : VFn := fun s b r w =>
  let k := vSeam r (vF w 48 1)
  let skip := mget b.skips 0 k
  if skip ≠ 0 then
    updBench s b.uid fun b =>
      { b with skips := mset b.skips 0 k (skip - 1), held := if skip = 1 then b.held.filter (· != k) else b.held }
  else
    let a := seamAccess s b r k
    if a.1 then { a.2 with vec := { a.2.vec with commits := a.2.vec.commits ++ [⟨s.clk.slot + 1, b.uid, r.pos, k⟩] } }
    else a.2

/-- The first slot of a commit window: a step that wrote poison halts its bench and is discarded (R113). -/
def vCommitCheck (s : State) (c : VCommit) : State :=
  if (seam s c.seam).shadowBad then
    let s := match benchOf s c.uid with | some b => reqHalt s 4 b c.pos | none => s
    vstDrop (seamSpoil { noteSpoil s c.uid with vec := { s.vec with commits := s.vec.commits.erase c } } c.seam) c.uid c.seam
  else s

/-- The commit of a step of the vector engine, and the release of its outputs (R112, R181). -/
def vCommitDo (s : State) (c : VCommit) : State :=
  let s := { s with vec := { s.vec with commits := s.vec.commits.erase c } }
  vstRelease (releaseCommit (countCommit (seamCommit s c.seam 1) c.uid c.seam) c.seam 1) c.uid c.seam

/-- Whether a vector record has uncommitted writes to seam k, made or on their way. -/
def vUncommitted (s : State) (uid : Nat) (r : Rec) (k : Nat) : Bool :=
  (seam s k).wrBy.any (fun e => e.2 == r.pos + 1) || vOnWay s uid r k

/-- The requests of the special function unit whose results a recipe sends to seam k come to nothing but their flags. -/
def dropSfuWrites (s : State) (uid : Nat) (r : Rec) (k : Nat) : State :=
  let drop (q : SfuReq) : SfuReq := if sfuToSeam uid r k q then { q with who := .vec 0, lanes := q.lanes.map fun _ => none } else q
  { s with sfu := { s.sfu with reqs := s.sfu.reqs.map drop } }

/-- The seams of a recipe that has ended: what it wrote and no commit took is spoil, and their chunks may end (R180). -/
def vChunkEnd (s : State) (b : Bench) (r : Rec) : State :=
  eachS (vSeams r) (fun k s =>
    let left := vUncommitted s b.uid r k
    let s := dropSfuWrites s b.uid r k
    if (benchOf s b.uid).any fun b => b.disp.contains k then
      let s := if left then vstDrop (seamForget (dropSeamWrites s b.uid r.pos k) k r.pos) b.uid k else s
      chunkMayEnd s b.uid r.pos k
    else s) s

/-- The end of a slot for the vector engine's commits and chunks. -/
def vecSlotEnd (s : State) : State :=
  let x := s.clk.slot
  let s := eachS (s.vec.commits.filter fun c => c.due == x + 1) (fun c s => vCommitCheck s c) s
  let s := eachS (s.vec.commits.filter fun c => decide (c.due ≤ x)) (fun c s => vCommitDo s c) s
  let s := eachS s.vec.ending (fun e s =>
    match recOf s e.1 e.2 with
    | some (b, r) => vChunkEnd s b r
    | none => s) s
  vstDrain 256 { s with vec := { s.vec with ending := [] } }

-- Issue (R173, R183).

/-- The loop indices of the loops in progress: the outer one's is LI0. -/
def loopIdx (l : List VLoop) : List Nat := [(l[0]?.map (·.i)).getD 0, (l[1]?.map (·.i)).getD 0]

/-- The next address after one at `pc`, leaving and repeating loops: the loops, innermost last, and the address. -/
def loopNext (fuel : Nat) (l : List VLoop) (pc : Nat) : List VLoop × Nat :=
  match fuel with
  | 0 => (l, pc)
  | f + 1 =>
    match l.getLast? with
    | none => (l, pc)
    | some x =>
      if pc = x.first + x.body then
        (if x.i + 1 < x.count then (l.dropLast ++ [{ x with i := x.i + 1 }], x.first)
         else loopNext f l.dropLast pc)
      else (l, pc)

/-- The engine goes on at address `pc` in the next slot. -/
def vAdvance (s : State) (run : Running) (loops : List VLoop) (pc : Nat) : State :=
  let n := loopNext 3 loops pc
  { s with vec := { s.vec with
      run := some { run with pc := n.2 % 512, loops := n.1, next := s.clk.slot + 1 }
      li := loopIdx n.1, lastPc := run.pc, lastEntry := run.entry } }

/-- The instruction that the recipe issues next. -/
def vWord (s : State) (run : Running) : W64 := mget s.vec.recipe 0 run.pc

/-- Whether a word of the instruction fails its parity (R423). -/
def vWordBad (s : State) (run : Running) : Bool := s.vec.badRcp.contains run.pc

/-- The tile as the next instruction of a recipe finds it: results due are in place, and records that started earlier keep the read ports
that they still take in the present slot (R97). -/
def vTurn (s : State) (b : Bench) (r : Rec) : State :=
  let t := vecFlush 16 s
  setAhead t (stagesAhead t b.uid r.pos)

/-- The issue of an instruction that reads and writes as `f` says; `f` answers whether it has issued. -/
def vIssueWith (s : State) (run : Running) (f : State → Bench → Rec → W64 → Bool × State) : State :=
  let w := vWord s run
  if vWordBad s run then vAdvance (ramParity s 2) run run.loops (run.pc + 1)
  else
    match recOf s run.uid run.pos with
    | none => { s with vec := { s.vec with run := none } }
    | some (b, r) =>
      let x := f (vTurn s b r) b r w
      if x.1 then vAdvance x.2 run run.loops (run.pc + 1) else x.2

/-- LOOP (R183). -/
def vLoopStart (s : State) (run : Running) (r : Rec) (w : W64) : State :=
  let src := vF w 46 2
  let count := if src = 0 then vF w 48 10 else if src = 1 then rf r 3 22 10 else rf r 3 12 10
  let body := vF w 37 9
  if count = 0 then vAdvance s run run.loops (run.pc + 1 + body)
  else vAdvance s run (run.loops ++ [⟨run.pc + 1, body, count, 0⟩]) (run.pc + 1)

/-- The END of a recipe (R173, R180). -/
def vFinish (s : State) (run : Running) : State :=
  let s := incReg s 0x4820 0 32
  let s := updRec s run.uid run.pos fun r => { r with n := 1 }
  { s with vec := { s.vec with
      run := none, endSlot := s.clk.slot, hasEnd := true, lastEntry := run.entry, lastPc := run.pc
      li := [0, 0], ending := s.vec.ending ++ [(run.uid, run.pos)] } }

/-- The slot of a recipe's first instruction. -/
def vDue (b : Bench) (r : Rec) : Nat := b.start + vIssueOff r

/-- The start of a recipe: not before the END slot of the one that runs has passed (R173). -/
def vStart (s : State) (b : Bench) (r : Rec) : State :=
  if s.vec.run.isSome || (s.vec.hasEnd && decide (s.clk.slot ≤ s.vec.endSlot)) then
    updRec (slip s b r 5 0 0) b.uid r.pos fun r => { r with n := 1 }
  else
    let e := mget s.vec.dir {} (vRcp r)
    let s := updRec s b.uid r.pos fun r => { r with slipped := true }
    { s with vec := { s.vec with
        run := some ⟨b.uid, r.pos, vRcp r, e.start, s.clk.slot, []⟩
        vl := 128, k := [0, 0, 0, 0], li := [0, 0], flags := [], lastEntry := vRcp r } }

-- The check of a recipe (R182, R183, R190).

/-- How an opcode uses its operands: classes of DST, S1, S2, S3 (0 unused, 1 data destination, 2 data source, 3 mask, 4 K), the
low bits of IMM it reads, and whether it may be predicated. -/
structure VSig where
  d : Nat
  s1 : Nat := 0
  s2 : Nat := 0
  s3 : Nat := 0
  imm : Nat := 0
  me : Bool := true
  deriving DecidableEq, Repr

/-- The format-R opcodes (R182). -/
def vSigs : List (Nat × VSig) :=
  [(0x01, { d := 0, me := false }),
   (0x0A, { d := 1, s1 := 2 }),
   (0x0B, { d := 1, s1 := 2, s2 := 2, s3 := 3 }),
   (0x10, { d := 1, s1 := 2, s2 := 2 }),
   (0x11, { d := 1, s1 := 2, s2 := 2 }),
   (0x12, { d := 1, s1 := 2, s2 := 2 }),
   (0x13, { d := 1, s1 := 2, s2 := 2 }),
   (0x14, { d := 1, s1 := 2, s2 := 2 }),
   (0x15, { d := 1, s1 := 2, imm := 5 }),
   (0x16, { d := 1, s1 := 2, imm := 5 }),
   (0x17, { d := 1, s1 := 2, s2 := 2 }),
   (0x18, { d := 1, s1 := 2, s2 := 2 }),
   (0x19, { d := 1, s1 := 2, s2 := 2 }),
   (0x20, { d := 1, s1 := 2, s2 := 2 }),
   (0x21, { d := 1, s1 := 2, s2 := 2 }),
   (0x22, { d := 1, s1 := 2, s2 := 2 }),
   (0x23, { d := 1, s1 := 2, s2 := 2, s3 := 2 }),
   (0x24, { d := 1, s1 := 2, s2 := 2 }),
   (0x25, { d := 1, s1 := 2, s2 := 2 }),
   (0x26, { d := 1, s1 := 2 }),
   (0x27, { d := 1, s1 := 2 }),
   (0x28, { d := 1, s1 := 2 }),
   (0x29, { d := 1, s1 := 2 }),
   (0x2A, { d := 1, s1 := 2, imm := 4 }),
   (0x2B, { d := 1, s1 := 2 }),
   (0x30, { d := 3, s1 := 2, s2 := 2, imm := 3 }),
   (0x31, { d := 3, s1 := 2, s2 := 2, imm := 3 }),
   (0x32, { d := 3, s1 := 3, s2 := 3 }),
   (0x33, { d := 3, s1 := 3, s2 := 3 }),
   (0x34, { d := 3, s1 := 3, s2 := 3 }),
   (0x35, { d := 3, s1 := 3 }),
   (0x36, { d := 4, s1 := 3 }),
   (0x37, { d := 3, imm := 3 }),
   (0x38, { d := 0 }),
   (0x3A, { d := 1, s1 := 2, s2 := 3, s3 := 4, me := false }),
   (0x3B, { d := 1, s1 := 2, s2 := 3, me := false }),
   (0x3C, { d := 1, s1 := 2 }),
   (0x3D, { d := 1, s1 := 2 }),
   (0x3E, { d := 1, s1 := 2 }),
   (0x3F, { d := 1, s1 := 2, imm := 4 })]

/-- The format-R signature of an opcode. -/
def vSig (op : Nat) : Option VSig := (vSigs.find? fun e => e.1 == op).map (·.2)

/-- Whether a 10-bit operand is well formed for its class (R177). -/
def operandOk (cls op : Nat) : Bool :=
  let reg := op / 256 == 0
  match cls with
  | 0 => op == 0
  | 3 => reg && op / 64 % 4 == 1 && decide (op % 64 < 8)
  | 4 => reg && op / 64 % 4 == 2 && decide (op % 64 < 4)
  | c =>
    match op / 256 with
    | 0 => op / 64 % 4 == 0 && decide (op % 64 < 32)
    | 1 => true
    | 2 => op / 16 % 4 != 3
    | _ => c == 2 && decide (op % 256 < 3)

/-- Whether an operand is an accumulator or seam row. -/
def isRow (op : Nat) : Bool := op / 256 == 1 || op / 256 == 2

/-- Whether an operand takes its value from IMM. -/
def usesImm (cls op : Nat) : Bool := cls == 2 && op / 256 == 3 && decide (op % 256 < 2)

/-- Whether the codes that an opcode takes from IMM are assigned (R182). -/
def immCodeOk (op imm : Nat) : Bool :=
  match op with
  | 0x2A => [2, 3, 4, 6].contains (imm % 16)
  | 0x30 => decide (imm % 8 < 6)
  | 0x31 => decide (imm % 8 < 6)
  | 0x37 => decide (imm % 8 < 6)
  | _ => true

/-- The reason for which an instruction of format R fails, if any (R190). -/
def checkR (w : W64) (g : VSig) : Option Nat :=
  let d := vF w 44 10
  let a := vF w 34 10
  let b := vF w 24 10
  let c := vF w 14 10
  let imm := vF w 0 14
  let all := usesImm g.s1 a || usesImm g.s2 b || usesImm g.s3 c
  if !(operandOk g.d d && operandOk g.s1 a && operandOk g.s2 b && operandOk g.s3 c) then some 2
  else if !g.me && vF w 54 4 != 0 then some 2
  else if vF w 57 1 = 0 && vF w 54 3 != 0 then some 2
  else if !all && imm ≥ 2 ^ g.imm then some 2
  else if !immCodeOk (vF w 58 6) imm then some 2
  else if 2 < ([a, b, c].filter isRow).length then some 3
  else none

/-- The reason for which an instruction of formats L and M fails, if any. -/
def checkLM (w : W64) : Option Nat :=
  let bad (b : Bool) : Option Nat := if b then some 2 else none
  match vF w 58 6 with
  | 0x00 => bad (vF w 0 58 != 0)
  | 0x02 => bad (vF w 0 37 != 0 || vF w 46 2 == 3 || vF w 37 9 == 0 || (vF w 46 2 != 0 && vF w 48 10 != 0))
  | 0x03 => bad (vF w 0 46 != 0 || vF w 46 2 == 1 || vF w 46 2 == 2 || (vF w 46 2 == 3 && decide (3 < vF w 48 10)))
  | 0x04 => bad (vF w 0 48 != 0 || decide (1 < vF w 48 10))
  | 0x08 => bad (vF w 54 4 != 0 || vF w 0 22 != 0 || !operandOk 1 (vF w 44 10) || vF w 34 4 == 1 || decide (8 < vF w 34 4))
  | 0x09 => bad (vF w 54 4 != 0 || vF w 0 22 != 0 || !operandOk 2 (vF w 44 10) || vF w 34 4 == 1 || decide (8 < vF w 34 4))
  | _ => some 1

/-- The reason for which one instruction fails the check. -/
def checkInstr (w : W64) : Option Nat :=
  match vSig (vF w 58 6) with
  | some g => checkR w g
  | none => checkLM w

/-- The loops open at an address: the addresses after their bodies, innermost first. A loop fails if it nests deeper than two
or its body passes its outer body or the recipe (R183). -/
def checkLoops (words : Nat → W64) (stop : Nat) : Nat → Nat → List Nat → Option Nat
  | 0, _, _ => none
  | n + 1, a, open_ =>
    let open_ := open_.filter fun e => decide (a < e)
    let w := words a
    if vF w 58 6 = 2 then
      let e := a + 1 + vF w 37 9
      if 2 ≤ open_.length || decide (stop < e) || open_.any fun o => decide (o < e) then some a
      else checkLoops words stop n (a + 1) (e :: open_)
    else checkLoops words stop n (a + 1) open_

/-- The outcome of a recipe's check: nothing, or the reason and the address of the failure (R190). Of several the model takes LEN 0, then
passing address 511, reported at 511, then the first by address, then a last instruction that is not END; of those of one instruction the
first that `checkInstr` names (DESIGN CHOICE, log 132). -/
def checkRecipe (s : State) (e : RcpEntry) : Option (Nat × Nat) :=
  let wd (a : Nat) : W64 := mget s.vec.recipe 0 a
  if e.len = 0 then some (6, e.start)
  else if 512 < e.start + e.len then some (5, 511)
  else
    let one := (natsFrom e.start e.len).findSome? fun a => (checkInstr (wd a)).map fun r => (r, a)
    let lp := (checkLoops wd (e.start + e.len) e.len e.start []).map fun a => (4, a)
    let last := e.start + e.len - 1
    let fin : Option (Nat × Nat) := if vF (wd last) 58 6 ≠ 0 then some (6, last) else none
    match one, lp with
    | some x, some y => some (if y.2 < x.2 then y else x)
    | some x, none => some x
    | none, some y => some y
    | none, none => fin

/-- The rows that the next instruction of the recipe reads in the present slot, for a record that started later (R97, R175). -/
def vecAhead (s : State) (uid pos : Nat) : Nat :=
  match s.vec.run with
  | none => 0
  | some run =>
    match recOf s run.uid run.pos with
    | none => 0
    | some (b, r) =>
      let w := vWord s run
      let row (o : Nat) : Bool := o / 256 == 1 || (o / 256 == 2 && !b.held.contains (vSeam r (o / 128 % 2))
        && decide (o % 16 < (seam s (vSeam r (o / 128 % 2))).nrows))
      let ops := match vSig (vF w 58 6) with
        | some g => [(g.s1, vF w 34 10), (g.s2, vF w 24 10), (g.s3, vF w 14 10)]
        | none => if vF w 58 6 = 9 then [(2, vF w 44 10)] else []
      portsIf (startedBefore run.uid run.pos uid pos && run.next == s.clk.slot) (ops.filter fun e => e.1 == 2 && row e.2).length

/-- The descriptors that a recipe's loads and stores name (R188). -/
def recipeTds (s : State) (e : RcpEntry) : List Nat :=
  (natsFrom e.start e.len).filterMap fun a =>
    let w := mget s.vec.recipe 0 a
    if vF w 58 6 == 8 || vF w 58 6 == 9 then some (vF w 38 6) else none

/-- The selects that a recipe's instructions name, and those it commits (R172). -/
def recipeSels (s : State) (e : RcpEntry) (commit : Bool) : List Nat :=
  [0, 1].filter fun sel =>
    (natsFrom e.start e.len).any fun a =>
      let w := mget s.vec.recipe 0 a
      let op := vF w 58 6
      let named (o : Nat) : Bool := o / 256 == 2 && o / 128 % 2 == sel
      if commit then op == 4 && vF w 48 1 == sel
      else
        match vSig op with
        | some g => (g.d == 1 && named (vF w 44 10)) || (g.s1 == 2 && named (vF w 34 10))
            || (g.s2 == 2 && named (vF w 24 10)) || (g.s3 == 2 && named (vF w 14 10))
        | none => ((op == 8 || op == 9) && named (vF w 44 10)) || (op == 4 && vF w 48 1 == sel)

end Sys2Proof.Machine
end

