-- ==== Sys2Proof/Machine/StageOps.lean ====
section
/-! DEFINITION. The checks that a bench meets when it is staged, and the check of a program (R39, R44, R67, R70, R94, R106,
R133, R139, R154, R172, R221, R223, R224, R226, R251). -/
namespace Sys2Proof.Machine

/-- The reserved bits of a record's words (R224). -/
def recReserved (r : Rec) : Bool :=
  let z (w lo len : Nat) : Bool := rf r w lo len != 0
  z 0 24 1 ||
    (match r.ty with
     | 1 => z 1 0 2 || z 2 0 5 || z 4 0 5 || z 5 0 7
     | 2 => z 1 0 16
     | 3 => z 1 0 1
     | 4 => z 0 0 3 || z 2 0 3 || z 3 0 6
     | 5 => z 1 0 1 || z 2 0 2 || z 3 0 10
     | _ => z 2 0 8 || z 3 0 12)

/-- The descriptors that a record's settings use, each with the kinds that its field allows (R226). -/
def recTds (r : Rec) : List (Nat × List Nat) :=
  let acc (n : Nat) : Nat × List Nat := (n, [0])
  let whenN (b : Bool) (l : List (Nat × List Nat)) : List (Nat × List Nat) := if b then l else []
  match r.ty with
  | 1 => acc (rf r 4 11 6) :: (whenN (aSrc r == 0) [(aTd r, [1, 2, 3])] ++ whenN (aSrc r == 1) [(aTd r, [5])])
  | 2 => [(rf r 0 18 6, [1])]
  | 3 => acc (drTd r) :: (whenN (drStat r) [acc (drStd r)] ++ whenN (drDest r == 0) [(drOtd r, [1, 2, 3, 4])]
      ++ whenN (drDest r == 2) [acc (drOtd r)])
  | 4 => [acc (rf r 1 10 6), acc (rf r 2 11 6), (rf r 3 26 6, [5])] ++ whenN (rf r 2 17 1 == 0) [acc (rf r 2 22 6)]
      ++ whenN (rf r 1 0 2 != 0) [(rf r 3 20 6, [1, 2, 3, 4])] ++ whenN (rf r 3 18 2 != 0) [acc (rf r 3 6 6)]
  | 5 => [acc (rf r 1 1 6), acc (rf r 2 12 6)] ++ whenN (sMode r == 2) [acc (rf r 2 22 6)]
      ++ whenN (sOut r != 0) [acc (rf r 2 2 6)]
  | _ => (natsTo 4).map fun k => acc (vBase r k)

/-- The descriptor to which the writer converts a record's output, if it has one. -/
def recOut (r : Rec) : Option Nat :=
  match r.ty with
  | 3 => if drDest r = 0 then some (drOtd r) else none
  | 4 => if rf r 1 0 2 ≠ 0 then some (rf r 3 20 6) else none
  | _ => none

/-- The rows of a descriptor that a record reads through a feeder or the derrick: descriptor, rows, format. -/
def recReads (r : Rec) : Option (Nat × Nat × Nat) :=
  match r.ty with
  | 1 => if aSrc r = 0 then some (aTd r, (aWaves r - 1) / aRep r + 1, aFmt r) else none
  | 2 => some (rf r 0 18 6, dRows r, dFmt r)
  | _ => none

/-- Whether a record reads an XPOSE region in a format that is not of 8 bits (R251). -/
def badXpose (s : State) (b : Bench) (r : Rec) : Bool :=
  match recReads r with
  | some (td, n, fmt) =>
    decide (3 < fmt) && tdKind b td == 1 && (natsTo n).any fun k => (xposeAt s (tdSpad s b td k)).isSome
  | none => false

/-- Whether an array record is malformed (R38, R39, R44, R67, R70, R94, R225). -/
def badArray (b : Bench) (r : Rec) : Bool :=
  let f := aFmt r
  let pieces := if f = 7 then 3 else 2
  let t := rf r 4 7 4
  let isInt := fmtIsInt f
  decide (7 < f) || (decide (4 < f) && (decide (pieces ≤ rf r 0 18 2) || decide (pieces ≤ rf r 0 16 2)))
    || rf r 0 14 2 == 3 || aSrc r == 3 || rf r 4 5 2 == 3
    || (natsTo (zeroIs 8 (rf r 2 5 3))).any (fun i =>
        let tag := rf r 2 (8 + 3 * i) 3
        if f = 7 then tag % 4 != 0 else 3 < f && tag % 2 != 0)
    || (isPair t && (tdAcc b (rf r 4 11 6) 0 % 2 == 1 || rf r 5 21 4 % 2 == 1))
    || (if isInt then t != 8 && t != 9 else t != 7 && t != 10)

/-- Whether a gate record is malformed (R123, R133, R139). -/
def badGate (r : Rec) : Bool :=
  decide (3 < gCell r) || decide (gStride r < cellP (gCell r)) || decide (gIssue r < 13) || rf r 1 0 2 == 3
    || rf r 3 18 2 == 3 || decide (7 < rf r 2 3 4) || (rf r 1 0 2 == 2 && cellV (gCell r) == 1)

/-- Whether a trace kind is assigned and allowed in a mode (R163). -/
def kindOk (mode kind : Nat) : Bool := kind == 0 || (kind == 1 && mode == 0) || (kind == 2 && mode == 1)

/-- Whether a scan record is malformed (R154). The kinds of all four traces are looked at, those that do not run among them (DESIGN CHOICE,
log 136). -/
def badScan (s : State) (r : Rec) : Bool :=
  sMode r == 3 || decide (sIssue r < 24) || (sOut r == 3 && (seam s (sSeam r 0)).nelig == 0)
    || (natsTo (sN r)).any (fun k => decide (sStride r < sLen r * scanR r (seam s (sSeam r k)).nelig))
    || (sMode r == 2 && sStride r % 2 == 1)
    || (hasAdapt s && (natsTo 4).any fun j => !kindOk (sMode r) (sKind r j))

/-- Whether a record names a seam (R172). -/
def namesSeam (r : Rec) (k : Nat) : Bool :=
  (r.ty == 4 && inStreams (rf r 0 7 8) (gN r) [] k) || (r.ty == 5 && inStreams (rf r 0 8 8) (sN r) [] k)

/-- Whether a vector record is malformed (R172). -/
def badVector (s : State) (b : Bench) (r : Rec) : Bool :=
  let e := mget s.vec.dir {} (vRcp r)
  !e.valid || (recipeSels s e false).any (fun i => rf r 0 (16 + i) 1 == 0)
    || (recipeSels s e true).any (fun i => b.recs.any fun x => namesSeam x (vSeam r i))

/-- Whether a record's own fields are malformed. -/
def badFields (s : State) (b : Bench) (r : Rec) : Bool :=
  match r.ty with
  | 1 => badArray b r
  | 2 => decide (10 < dFmt r)
  | 3 => drDest r == 1 && decide (32 < drOtd r + drRows r)
  | 4 => badGate r
  | 5 => badScan s r
  | _ => badVector s b r

/-- Whether a record is rejected when its bench is staged. The FMT of a descriptor is looked at where the writer targets it, not where the record
reads it (R39; DESIGN CHOICE, log 136). -/
def badRecord (s : State) (b : Bench) (r : Rec) : Bool :=
  recReserved r || (recTds r).any (fun e => !e.2.contains (tdKind b e.1))
    || (match recOut r with | some td => decide (8 < tdFmt b td) | none => false)
    || badXpose s b r || badFields s b r

/-- Whether record i is one too many (R221). -/
def overLimit (b : Bench) (r : Rec) : Bool :=
  let n := (b.recs.filter fun x => x.ty == r.ty && decide (x.pos ≤ r.pos)).length
  decide (32 ≤ r.pos) || ((r.ty == 4 || r.ty == 5) && decide (4 < n)) || (r.ty == 6 && decide (8 < n))

/-- The first record for which a bench is rejected, if any. -/
def badBench (s : State) (b : Bench) : Option Nat :=
  (b.recs.find? fun r => overLimit b r || badRecord s b r).map (·.pos)

/-- The words of descriptors that the records of a bench name and that fail their parity (R423). -/
def badTdWords (s : State) (b : Bench) : List Nat :=
  (natsTo 512).filter fun x => s.seq.badTd.contains x && b.recs.any fun r => (recTds r).any fun e => e.1 == x / 8

/-- Whether a descriptor that a record names fails its parity (R423). -/
def badTdNamed (s : State) (b : Bench) : Bool := !(badTdWords s b).isEmpty

-- Items and the check of a program (R217, R223).

/-- The words of an item by its type; none for a reserved type. -/
def itemWords (ty : Nat) : Option Nat :=
  match ty with
  | 0x01 => some 6
  | 0x02 => some 2
  | 0x03 => some 2
  | 0x04 => some 4
  | 0x05 => some 4
  | 0x06 => some 4
  | 0x20 => some 2
  | 0x21 => some 1
  | 0x22 => some 1
  | 0x23 => some 1
  | 0x24 => some 2
  | 0x25 => some 2
  | 0x26 => some 1
  | _ => none

/-- Word a of the program RAM. -/
def pramWord (s : State) (a : Nat) : W32 := mget s.seq.pram 0 a
/-- ITYPE of a word. -/
def itemType (w : W32) : Nat := fieldN w 26 6

/-- A loop open in the check: the word after its ENDLOOP as SKIP gives it, FOREVER, and whether a START was met. -/
structure CheckLoop where
  after : Nat
  forever : Bool
  start : Bool := false
  deriving DecidableEq, Repr

/-- Whether a program passes the check of R223: its items in address order from `a`, `recs` telling that records have been
met since the last START. `fuel` bounds the items. -/
def checkProg (s : State) : Nat → Nat → List CheckLoop → Bool → Bool
  | 0, _, _, _ => false
  | fuel + 1, a, loops, recs =>
    let w := pramWord s a
    match itemWords (itemType w) with
    | none => false
    | some n =>
      if 16384 < a + n then false
      else
        match itemType w with
        | 0x20 => checkProg s fuel (a + n) (loops.map fun l => { l with start := true }) false
        | 0x21 =>
          if 4 ≤ loops.length then false
          else checkProg s fuel (a + n) (⟨a + fieldN w 0 14, bitB w 25, false⟩ :: loops) recs
        | 0x22 =>
          match loops with
          | [] => false
          | l :: r => if l.after ≠ a + 1 || (l.forever && !l.start) then false else checkProg s fuel (a + n) r recs
        | 0x26 => if loops.isEmpty then !recs else false
        | t => checkProg s fuel (a + n) loops (recs || decide (t < 0x20))

end Sys2Proof.Machine
end

