-- ==== Sys2Proof/Machine/SurveyOps.lean ====
section
/-! DEFINITION. Link ports and the survey: credits, the flit a port sends in a cycle, resync, the tree, the route table, link
failures and RESURVEY (12_urden_fabric.md, R308 to R313, R321 to R326, R331 to R334). -/
namespace Sys2Proof.Machine

/-- The ID the tile proposes in a survey (R321). -/
def propId (s : State) : Nat := s.straps.2
/-- Whether port n is UP. -/
def portUp (s : State) (n : Nat) : Bool := (portOf s n).st == 3
/-- The ports that are UP, rising. -/
def upPorts (s : State) : List Nat := (natsTo 6).filter (portUp s)

-- Credits (R312, R332, R334).

/-- Something arrived on port n, with its CR field: the credit it returns is taken, or discarded while a resync is in progress
(R309, R332). -/
def rxFlit (s : State) (n cr : Nat) : State :=
  updPort s n fun p =>
    let p := { p with lastRx := mclkOf s }
    if cr % 4 = 0 || p.resync || p.st ≠ 3 then p
    else { p with cred := lupd p.cred (cr % 4 - 1) fun x => min 32 (x + 1) }

/-- Flits of channel vc that wait at a port, each with the port in whose buffer it stands. -/
def outQ (p : LinkPort) (vc : Nat) : List (Nat × Flit) := match vc with | 0 => p.outVc0 | 1 => p.outVc1 | _ => p.outVc2

/-- Flits of channel vc in the buffer of port n that wait to leave the tile (R312). -/
def transit (s : State) (n vc : Nat) : Nat := s.fab.ports.foldl (fun a p => a + ((outQ p vc).filter (·.1 == n)).length) 0

/-- Flits of channel vc that the buffer of port n holds: packets held or not yet checked, landing writes that wait, flits on their way to
another port (R264, R330, R332). -/
def bufCount (s : State) (n vc : Nat) : Nat :=
  let size (p : Packet) : Nat := if (typeVc (headOf p.head).ty).getD 0 = vc then 1 + p.body.length else 0
  let p := portOf s n
  transit s n vc + if vc = 2 then p.inVc2.length
  else
    p.held.foldl (fun a k => a + size k) 0 + (s.fab.chk.filter (·.1 == n)).foldl (fun a e => a + size e.2) 0
      + (if vc = 0 then (s.fab.land.filter (·.port == n)).foldl (fun a l => a + 1 + l.sectors.length) 0 else 0)

/-- One direction's exchange of R332 begun at a port: no VC flit is sent until the answer. `first` tells that this end begins the resync, so
that the far end's request is still to come. -/
def beginResync (s : State) (n : Nat) (first : Bool) : State :=
  pushCtl (updPort s n fun p => { p with resync := true, resyncT := mclkOf s, farReq := first }) n { ctype := 5 }

/-- A resync begun at a port by this end (R332). -/
def startResync (s : State) (n : Nat) : State := beginResync s n true

/-- RESYNC_REQ on a port (R332): answered. Each end runs the exchange once: this end too, unless its own is open or has been the cause of this
one (log 134). A port that has failed or is down has no part in it. -/
def onResyncReq (s : State) (n : Nat) : State :=
  if (portOf s n).st = 2 || portUp s n then
    let p := portOf s n
    let s := pushCtl s n { ctype := 6 }
    if p.resync || p.farReq then updPort s n fun p => { p with farReq := false } else beginResync s n false
  else s

-- The flit a port sends (R313).

/-- The first control message that may leave: barrier messages wait while a survey runs (R326). -/
def ctlNext (s : State) (p : LinkPort) : Option CMsg := p.ctl.find? fun m => m.ctype != 8 || s.fab.st == 4
/-- The control messages without the first one that may leave. -/
def ctlRest (s : State) (p : LinkPort) : List CMsg := p.ctl.eraseP fun m => m.ctype != 8 || s.fab.st == 4

/-- The first flit of channel vc taken. -/
def outDrop (p : LinkPort) (vc : Nat) : LinkPort :=
  match vc with
  | 0 => { p with outVc0 := p.outVc0.drop 1 }
  | 1 => { p with outVc1 := p.outVc1.drop 1 }
  | _ => { p with outVc2 := p.outVc2.drop 1 }

/-- Whether a port may send on channel vc: a flit, a credit, no resync; VC2 is held while a survey runs (R326), and a duplicate sends nothing
(R324). -/
def maySend (s : State) (p : LinkPort) (vc : Nat) : Bool :=
  p.st == 3 && !p.resync && !s.fab.dup && !(outQ p vc).isEmpty && decide (0 < lget p.cred 0 vc) && (vc != 2 || s.fab.st == 4)

/-- The MEPOCH that a flit from buffer `src` leaves with (R314, R330): the tile's own packets carry the tile's epoch at the head and their head's
at a data flit, those of another tile what their sender gave them. The port keeps the head of the packet that is leaving. -/
def stampMep (s : State) (p : LinkPort) (vc src : Nat) (f : Flit) : Flit × LinkPort :=
  if vc = 2 then (f, p)
  else
    let head := bitB f.side 27
    let e := if head then s.mode.epoch else lget p.meps 0 vc
    (if src = 6 || src = 7 then { f with side := putN f.side 16 8 e } else f,
     { p with meps := lupd p.meps vc fun _ => e, heads := if head then lupd p.heads vc fun _ => f.data else p.heads })

/-- The CR field of the next flit: one owed credit, of the lowest channel that is owed one. -/
def creditOut (p : LinkPort) : Nat × LinkPort :=
  match (natsTo 3).find? fun v => decide (0 < lget p.owed 0 v) with
  | some v => (v + 1, { p with owed := lupd p.owed v (· - 1) })
  | none => (0, p)

/-- What a port that is ABSENT, DOWN or in reset drives: IDLE with no credit, or every line low (R412). -/
def restTx (s : State) (n : Nat) : Tx := if s.fuse.outs.getLsbD (8 + n) && !s.boot.fuseFail then .idle else .low

/-- A control message as it leaves port n: a RESYNC_ACK carries the free places of this moment, which the credits owed are part of (R332). -/
def ctlSent (s : State) (n : Nat) (m : CMsg) (p : LinkPort) : LinkPort × Nat :=
  if m.ctype = 6 then
    let c (vc : Nat) : Nat := 32 - bufCount s n vc
    ({ p with tx := .ctl { m with a := c 0, b := c 1, c := c 2 }, owed := [0, 0, 0], ctl := ctlRest s p }, 0)
  else
    let c := creditOut p
    ({ c.2 with tx := .ctl m, ctl := ctlRest s p }, c.1)

/-- Whether the SCP mailbox's broadcast has yet to leave the tile (R451). -/
def bcastWaits (s : State) : Bool := lget s.mb.st 0 1 == 2 && reg s 0x13C &&& 0x800000FF#32 == 0x800000FF#32

/-- The SCP mailbox's broadcast cannot leave: LINK_DOWN (R317, R331, R451). -/
def bcastLost (s : State) : State :=
  if bcastWaits s then answerFail s { isCmd := true, dst := 255, cli := some { o := .scp } } 4 else s

/-- What port n drives in an MCLK cycle (R313): a control message, else a flit of a channel in turn, whose place in the buffer it came
from is then free, else IDLE. A port that is FAILED or LOOP drives IDLE. -/
def portTick (n : Nat) (s : State) : State :=
  let s := if s.fab.dup && (portOf s n).outVc0.any (·.1 == 7) then bcastLost s else s
  let p := portOf s n
  if p.st < 2 || unitDown s (10 + n) then updPort s n fun p => { p with tx := restTx s n, txCr := 0, ctl := [] }
  else if p.st ≠ 3 && p.st ≠ 2 then updPort s n fun p => { p with tx := .idle, txCr := 0, ctl := [] }
  else
    match ctlNext s p with
    | some m => updPort s n fun _ => let x := ctlSent s n m p; { x.1 with txCr := x.2 }
    | none =>
      let c := creditOut p
      let idle := updPort s n fun _ => { c.2 with tx := .idle, txCr := c.1 }
      match [p.rr % 3, (p.rr + 1) % 3, (p.rr + 2) % 3].find? (maySend s p) with
      | none => idle
      | some vc =>
        match outQ p vc with
        | [] => idle
        | (src, f) :: _ =>
          let f := stampMep s c.2 vc src f
          let q := outDrop f.2 vc
          let s := oweCredit (updPort s n fun _ =>
            { q with tx := .vc vc f.1, txCr := c.1, rr := (vc + 1) % 3, cred := lupd q.cred vc (· - 1) }) src vc 1
          if src = 7 && bcastWaits s then mboxDone s 1 0 0 else s

-- The tree (R322, R323).

/-- Whether one candidate comes before another (R323): root, depth, sender, arrival port; the named root is the first. -/
def candBefore (named : Nat) (a b : Nat × Nat × Nat × Nat) : Bool :=
  let k (r : Nat) : Nat := if r = named then 0 else r + 1
  if k a.1 ≠ k b.1 then decide (k a.1 < k b.1)
  else if a.2.1 ≠ b.2.1 then decide (a.2.1 < b.2.1)
  else if a.2.2.1 ≠ b.2.2.1 then decide (a.2.2.1 < b.2.2.1)
  else decide (a.2.2.2 < b.2.2.2)

/-- The candidate the tile holds. -/
def candOf (s : State) : Nat × Nat × Nat × Nat := (s.fab.candRoot, s.fab.candDepth, s.fab.candSender, s.fab.candPort)

/-- The tile's own candidacy. -/
def candSelf (s : State) : State :=
  { s with fab := { s.fab with candRoot := propId s, candDepth := 0, candSender := propId s, candPort := 7, reports := [], below := [], topo := none } }

/-- TREE flooded on the UP ports. -/
def floodTree (s : State) (restart : Bool) : State :=
  eachS (upPorts s) (fun n s =>
    pushCtl s n { ctype := 2, sub := b2n restart, a := s.fab.candRoot, b := s.fab.candDepth, c := propId s }) s

/-- The named root of the survey that begins (R323, R336): a later change of ROOT_ID applies at the next one. -/
def nameRoot (s : State) : State := { s with fab := { s.fab with surveyRoot := regF s 0x7008 0 8 } }

/-- The TREE state begun; a port that is FAILED or DOWN and has heard HELLO since returns to HELLO (R331). -/
def startTree (s : State) (restart : Bool) : State :=
  let s := { s with fab := { s.fab with
    st := 1, phaseT := mclkOf s
    ports := s.fab.ports.map fun p => if (p.st = 4 || p.st = 1) && p.heard then { p with st := 2, heard := false, farReq := false, tree := none } else p } }
  floodTree s restart

/-- A RESURVEY begun at this tile (R326); a survey that is already at TREE goes on. -/
def resurvey (s : State) : State :=
  if s.fab.st = 1 || s.fab.st = 5 || s.fab.st = 0 then s else startTree (candSelf (nameRoot s)) true

/-- The HELLO state begun (R321, R322): a tile without a fabric ID is ALONE, with every port DOWN. -/
def startHello (s : State) : State :=
  let up := decide (propId s < 192)
  candSelf <| nameRoot { s with fab := { s.fab with
    st := if up then 0 else 5, id := 0, idValid := false, phaseT := mclkOf s
    ports := (natsTo 6).map fun n => { st := if hasLink s n then (if up then 2 else 1) else 0 } } }

/-- The links of the tile: for each UP port the neighbour's ID and port (R322). -/
def ownLinks (s : State) : List LinkEnd :=
  (upPorts s).map fun n => ⟨propId s, n, (portOf s n).peerId, (portOf s n).peerPort⟩

-- Routes (R325).

/-- The place of a tile in the order up ends are chosen by: depth, then ID. -/
def rankOf (depth : SMap Nat) (t : Nat) : Nat := mget depth 0 t * 256 + t

/-- Depths of the tiles in the tree below `root`: one more than the depth, 0 for a tile not reached. -/
def depthsFrom (links : List LinkEnd) : Nat → SMap Nat → SMap Nat
  | 0, d => d
  | n + 1, d =>
    let d' := links.foldl (fun m l =>
      if mget d 0 l.tile ≠ 0 && mget m 0 l.peer = 0 then mset m 0 l.peer (mget d 0 l.tile + 1) else m) d
    if d' = d then d else depthsFrom links n d'

/-- Depths of every tile of a topology. -/
def depthMap (links : List LinkEnd) (root : Nat) : SMap Nat := depthsFrom links 192 [(root, 1)]

/-- The least of some numbers over a list, one added; 0 stands for no path. -/
def leastHop (l : List Nat) : Nat :=
  l.foldl (fun a x => if x = 0 then a else if a = 0 then x + 1 else min a (x + 1)) 0

/-- Distances to d: one more than the fewest down hops from each tile, tiles taken from the deepest up (R325). -/
def downDist (links : List LinkEnd) (depth : SMap Nat) (order : List Nat) (d : Nat) : SMap Nat :=
  order.foldl (fun m t =>
    if t = d then mset m 0 t 1
    else mset m 0 t (leastHop ((links.filter fun l => l.tile == t && decide (rankOf depth t < rankOf depth l.peer)).map
      fun l => mget m 0 l.peer))) []

/-- Legal distances to d: by down hops where there is such a path, else one hop up and on; tiles from the top down. -/
def legalDist (links : List LinkEnd) (depth dd : SMap Nat) (order : List Nat) : SMap Nat :=
  order.foldl (fun m t =>
    if mget dd 0 t ≠ 0 then mset m 0 t (mget dd 0 t)
    else mset m 0 t (leastHop ((links.filter fun l => l.tile == t && decide (rankOf depth l.peer < rankOf depth t)).map
      fun l => mget m 0 l.peer))) []

/-- A tile put in its place by rank. -/
def rankPut (depth : SMap Nat) (l : List Nat) (t : Nat) : List Nat :=
  match l with
  | [] => [t]
  | x :: r => if rankOf depth t < rankOf depth x then t :: x :: r else x :: rankPut depth r t

/-- The port of the tile's hop toward d, 7 if there is none (R325). -/
def routePort (links : List LinkEnd) (depth : SMap Nat) (order : List Nat) (me d : Nat) : Nat :=
  let dd := downDist links depth order.reverse d
  let mine := links.filter (·.tile == me)
  let hops : List (Nat × Nat) :=
    if mget dd 0 me ≠ 0 then
      (mine.filter fun l => decide (rankOf depth me < rankOf depth l.peer)).map fun l => (mget dd 0 l.peer, l.port)
    else
      let ld := legalDist links depth dd order
      (mine.filter fun l => decide (rankOf depth l.peer < rankOf depth me)).map fun l => (mget ld 0 l.peer, l.port)
  (hops.foldl (fun (a : Nat × Nat) x => if x.1 = 0 then a
    else if a.1 = 0 || x.1 < a.1 || (x.1 = a.1 && x.2 < a.2) then x else a) (0, 7)).2

/-- The route table of a tile for a topology (R324, R325); an entry of 7 is not listed. -/
def routesOf (links : List LinkEnd) (tiles dups : List Nat) (root me : Nat) : SMap Nat :=
  let depth := depthMap links root
  let order := tiles.foldl (rankPut depth) []
  tiles.foldl (fun m d =>
    if d = me then mset m 7 d 6
    else if dups.contains d || 191 < d then m
    else mset m 7 d (routePort links depth order me d)) []

/-- The port of a tile that leads to its parent: toward the lowest-numbered neighbour one step nearer the root (R323). -/
def parentPort (links : List LinkEnd) (depth : SMap Nat) (t : Nat) : Nat :=
  ((links.filter fun l => l.tile == t && mget depth 0 l.peer + 1 == mget depth 0 t).foldl (fun (a : Nat × Nat) l =>
    if a.2 = 7 || l.peer < a.1 || (l.peer = a.1 && l.port < a.2) then (l.peer, l.port) else a) (0, 7)).2

/-- The ports of the tree links below a tile (R319). -/
def kidPorts (links : List LinkEnd) (depth : SMap Nat) (me : Nat) : List Nat :=
  (links.filter fun l => l.tile == me && mget depth 0 l.peer == mget depth 0 me + 1
    && parentPort links depth l.peer == l.peerPort).map (·.port)

/-- READY (R322, R324, R325): the identity, the routes, the ports' trunks and directions; the requests that waited go out. -/
def surveyReady (s : State) (root : Nat) (links : List LinkEnd) (tiles dups : List Nat) : State :=
  let me := propId s
  let depth := depthMap links root
  let lead (p : LinkPort) : Nat :=
    (links.foldl (fun a l => if l.tile = me && l.peer = p.peerId && l.port < a then l.port else a) 7)
  let s := { s with fab := { s.fab with
    st := 4, id := me, idValid := true, root := root, depth := mget depth 0 me - 1
    route := routesOf links tiles dups root me, dup := dups.contains me, tiles := tiles.length
    kids := kidPorts links depth me, parent := parentPort links depth me
    ports := s.fab.ports.map fun p =>
      if p.st = 3 then { p with trunk := lead p, uplink := decide (rankOf depth p.peerId < rankOf depth me) } else p } }
  let s := raise s 0x40 0
  let s := if dups.contains me then raise s 0x41 0 else s
  let c := s.fab.resurveyCli
  flushWait (completeOpt { s with fab := { s.fab with resurveyCli := none } } c 0)

/-- A tile without an UP port is the root of a one-tile fabric (R322). -/
def readyAlone (s : State) : State := surveyReady s (propId s) [] [propId s] []

/-- The longest that REPORT, TOPO and the filling of the tables last (R322): 3 × 191 × 76 ns, in MCLK cycles. -/
def reportLimit : Nat := 43548

/-- Whether the root holds a report from every tile (R322): each link that is reported at one end is reported at the other, so that two
tiles of one ID are told apart; once the survey's longest time has passed, a link that one end alone reports counts as one too (log 134). -/
def reportsWhole (s : State) : Bool :=
  let l := s.fab.reports.flatMap (·.2)
  l.all fun e => l.contains ⟨e.peer, e.peerPort, e.tile, e.port⟩ ||
    (decide (s.fab.phaseT + reportLimit ≤ mclkOf s) && s.fab.reports.any (·.1 == e.peer))

/-- IDs that stand twice in a list, once each. -/
def twice (l : List Nat) : List Nat := (l.filter fun x => decide (1 < (l.filter (· == x)).length)).eraseDups

/-- The topology flooded down the tree, to the tiles whose reports came this way (R322). -/
def floodTopo (s : State) (t : Topo) : State :=
  eachS (s.fab.below.filter (portUp s)) (fun n s =>
    pushCtl s n { ctype := 4, links := t.links, tiles := t.tiles ++ t.dups, a := t.tiles.length }) s

/-- TOPO begun (R322): the topology goes on down the tree, and the tile fills its route table, in one MCLK cycle (log 134). -/
def startTopo (s : State) (t : Topo) : State := { floodTopo s t with fab := { (floodTopo s t).fab with st := 3, topo := some t } }

/-- The root's next step: TOPO once every report is there (R322, R324). -/
def rootTopo (s : State) : State :=
  if s.fab.st = 2 && s.fab.candPort = 7 && reportsWhole s then
    let ids := s.fab.reports.map (·.1)
    startTopo s { links := s.fab.reports.flatMap (·.2), tiles := ids.eraseDups, dups := twice ids }
  else s

/-- A report at the tile, from below on port `n` or its own (R322): collected at the root, else passed up the tree. -/
def onReport (s : State) (n : Option Nat) (id : Nat) (links : List LinkEnd) : State :=
  let s := { s with fab := { s.fab with below := s.fab.below ++ (n.filter fun n => !s.fab.below.contains n).toList } }
  if s.fab.candPort = 7 then { s with fab := { s.fab with reports := s.fab.reports ++ [(id, links)] } }
  else pushCtl s s.fab.candPort { ctype := 3, a := id, links := links }

/-- The REPORT state begun. -/
def startReport (s : State) : State :=
  onReport { s with fab := { s.fab with st := 2, phaseT := mclkOf s } } none (propId s) (ownLinks s)

/-- TOPO at the tile (R322, R325). -/
def onTopo (s : State) (t : Topo) : State := if 3 ≤ s.fab.st then s else startTopo s t

/-- Each MCLK cycle of the survey: a tile whose route table is complete is READY, and the root looks whether every report is there (R322). -/
def topoTick (s : State) : State :=
  match s.fab.st == 3, s.fab.topo with
  | true, some t => surveyReady { s with fab := { s.fab with topo := none } } s.fab.candRoot t.links t.tiles t.dups
  | _, _ => rootTopo s

/-- A candidate that came on UP port `n` (R322, R323): a better one is adopted, and flooded in the TREE state. -/
def takeTree (s : State) (n : Nat) (t : Nat × Nat × Nat) : State :=
  let c := (t.1, t.2.1 + 1, t.2.2, n)
  if s.fab.st < 2 && candBefore s.fab.surveyRoot c (candOf s) then
    let s := { s with fab := { s.fab with
      candRoot := t.1, candDepth := t.2.1 + 1, candSender := t.2.2, candPort := n, phaseT := if s.fab.st = 1 then mclkOf s else s.fab.phaseT } }
    if s.fab.st = 1 then floodTree s false else s
  else s

/-- TREE at the tile (R322, R323, R326): a RESURVEY restarts it, a changed neighbour is resynchronised (R332), and its candidate counts on an UP
port; a port that is not UP yet keeps it until it is. -/
def onTree (s : State) (n root depth sender : Nat) (restart : Bool) : State :=
  let s := if restart then resurvey s else s
  if portUp s n then
    let s := if (portOf s n).peerId = sender then s else startResync (updPort s n fun p => { p with peerId := sender }) n
    takeTree s n (root, depth, sender)
  else updPort s n fun p => { p with tree := some (root, depth, sender) }

/-- RESYNC_ACK on a port (R332): its credits are set exactly, and a port in HELLO that has received HELLO becomes UP (R322); while the tree is
formed, the tile's choice goes to the new neighbour too, and the neighbour's that has come already counts. -/
def onResyncAck (s : State) (n c0 c1 c2 : Nat) : State :=
  let p := portOf s n
  if p.resync then
    let up := p.st == 2 && p.heard
    let s := updPort s n fun p =>
      { p with cred := [min 32 c0, min 32 c1, min 32 c2], resync := false, st := if up then 3 else p.st }
    if up then
      let s := if s.fab.st = 1 then pushCtl s n { ctype := 2, sub := 0, a := s.fab.candRoot, b := s.fab.candDepth, c := propId s } else s
      match p.tree with
      | some t => takeTree (updPort s n fun p => { p with tree := none }) n t
      | none => s
    else s
  else s

/-- HELLO at a port (R322, R331): the tile's own ID marks it LOOP; otherwise the port in HELLO learns its neighbour and runs a
resync. A port that is FAILED or DOWN keeps it for the next RESURVEY. -/
def onHello (s : State) (n id port : Nat) : State :=
  let p := portOf s n
  if p.st = 4 || (p.st = 1 && s.fab.st ≠ 5) then updPort s n fun p => { p with heard := true, peerId := id, peerPort := port }
  else if p.st ≠ 2 then s
  else if id = propId s then updPort s n fun p => { p with st := 5 }
  else
    let s := updPort s n fun p => { p with peerId := id, peerPort := port, heard := true }
    if p.resync then s else startResync s n

-- Link failure (R331, R333).

/-- The heads of the packets among the queued flits of a channel: those queued, and before them that of a packet whose head has left the port
and whose data flits have not. -/
def queuedHeads (p : LinkPort) (vc : Nat) : List Head :=
  let l := outQ p vc
  let cut := match l with | (_, f) :: _ => !bitB f.side 27 | [] => false
  (if cut then [headOf (lget p.heads 0 vc)] else []) ++ (l.filter fun e => bitB e.2.side 27).map fun e => headOf e.2.data

/-- Queued flits of channel vc leave the buffers they stood in. -/
def oweQueued (s : State) (vc : Nat) (l : List (Nat × Flit)) : State := eachS l (fun e s => oweCredit s e.1 vc 1) s

/-- The queued flits of a port are lost: requests are answered LINK_DOWN, the tile's own here and another tile's by a response,
whose PAYLOAD says so too where it answers a command (R331, R451); responses are counted as lost. -/
def dropQueues (s : State) (n : Nat) : State :=
  let p := portOf s n
  let s := updPort s n fun p => { p with outVc0 := [], outVc1 := [], outVc2 := [], ctl := [] }
  let s := oweQueued (oweQueued (oweQueued s 0 p.outVc0) 1 p.outVc1) 2 p.outVc2
  let s := eachS (queuedHeads p 0) (fun h s =>
    if h.src = tileId s && h.dst ≠ 255 then
      let r := mget s.fab.reqs {} h.tag
      if r.act then freeReq (answerFail s r 4) h.tag else s
    else if h.dst = 255 then s
    else respond s { dst := h.src, ty := h.ty % 3 + 3, tag := h.tag, off := h.off, step := h.step, status := 4
                     payload := if h.ty % 3 = 2 then 13 else 0 } []) s
  let s := if p.outVc0.any (·.1 == 7) then bcastLost s else s
  addReg s 0x7048 0 32 (queuedHeads p 1).length

/-- The route entries that named a port become 7. -/
def dropRoutes (s : State) (n : Nat) : State :=
  { s with fab := { s.fab with route := s.fab.route.filter fun e => e.2 != n } }

/-- A RESURVEY if AUTO_RESURVEY asks for it. -/
def autoResurvey (s : State) : State := if bitB (reg s 0x7004) 0 then resurvey s else s

/-- Port n declared FAILED (R331). -/
def linkFail (s : State) (n : Nat) : State :=
  let p := portOf s n
  let lost := (32 - lget p.cred 0 0) + (32 - lget p.cred 0 1) + (32 - lget p.cred 0 2)
  let s := updPort (addReg s 0x7048 0 32 lost) n fun p =>
    { p with st := 4, cred := [0, 0, 0], owed := [0, 0, 0], resync := false, farReq := false, heard := false, tree := none }
  let s := dropRoutes s n
  let s := dropQueues s n
  autoResurvey (raise (incReg s 0x704C 0 32) 0x42 n)

/-- LINK_RESET at port n (R333): DOWN, its credits recovered. -/
def onLinkReset (s : State) (n : Nat) : State :=
  let s := updPort s n fun p => { p with st := 1, cred := [32, 32, 32], owed := [0, 0, 0], resync := false, farReq := false, heard := false, tree := none }
  autoResurvey (dropQueues s n)

end Sys2Proof.Machine
end

