-- ==== Sys2Proof/Machine/PacketOps.lean ====
section
/-! DEFINITION. Packets that arrive: head checks, packets held for a newer mode epoch, delivery and forwarding, responses, the
checks of windows, landing rings and the peer queue (12_urden_fabric.md, R310, R314 to R319, R330; 10_scratchpad_and_windows.md,
R264, R268 to R271; 18_ports_commands_registers.md, R451, R452). -/
namespace Sys2Proof.Machine

-- Responses (R315, R451).

/-- The sectors of a READ_DATA placed at their offsets in the read they belong to. -/
def placeSectors (s : State) (r : FReq) (l : List Sector) : State :=
  foldTo l.length (fun i s => updRead s r.rd fun x => { x with got := mset x.got {} (r.off + i * r.step) (lget l {} i) }) s

/-- A response that has arrived for the tile; one whose TAG is not outstanding is discarded (R315, R318). -/
def onResponse (s : State) (pk : Packet) : State :=
  let h := headOf pk.head
  let r := mget s.fab.reqs {} h.tag
  let kind := if r.isCmd then 5 else if r.isRead then 3 else 4
  if !r.act || h.ty ≠ kind then s
  else
    let s := freeReq s h.tag
    if r.isCmd then
      match r.cli with
      | some c => complete s c (fieldN h.payload 0 8) (fieldN h.payload 32 32)
      | none => s
    else if h.status ≠ 0 then answerFail s r h.status
    else if r.isRead then readPart (placeSectors s r (packetSectors pk)) r.rd false
    else s

-- Commands of peers (R319, R452).

/-- The four words of a PAYLOAD. -/
def wordsOf (p : BitVec 128) : CmdWords :=
  let w (k : Nat) : W32 := BitVec.ofNat 32 (fieldN p (32 * k) 32)
  ⟨w 0, w 1, w 2, w 3⟩

/-- A command enters the peer queue, or is answered BUSY if the queue is full (R452). -/
def peerEnter (s : State) (h : Head) : State :=
  let bcast := h.dst == 255
  if 8 ≤ s.mb.peerQ.length then (if bcast then s else respond s (cmdDoneHead h.src h.tag 1 0) [])
  else { s with mb := { s.mb with peerQ := s.mb.peerQ ++ [⟨h.src, h.tag, bcast, wordsOf h.payload⟩] } }

/-- A packet from the buffer of port `src` sent out on a port as it is. -/
def sendOn (s : State) (n src : Nat) (pk : Packet) : State :=
  let vc := (typeVc (headOf pk.head).ty).getD 0
  if portUp s n then pushFlits s n vc src (packetFlits pk) else oweCredit s src vc (1 + pk.body.length)

/-- A broadcast from the buffer of port n that comes down the tree, or starts at the root: performed here and sent below (R319); it leaves
the buffer with its last copy, and the others stand in none (8). -/
def bcastDown (s : State) (n : Nat) (pk : Packet) : State :=
  let l := s.fab.kids.filter (portUp s)
  let s := eachS l (fun k s => sendOn s k (if l.getLast? = some k then n else if n < 6 then 8 else 6) pk) s
  peerEnter (if l.isEmpty then oweCredit s n 0 (1 + pk.body.length) else s) (headOf pk.head)

/-- A broadcast at a tile (R319): on its way up until the root turns it round. -/
def onBcast (s : State) (n : Nat) (pk : Packet) : State :=
  if s.fab.parent = 7 || n = s.fab.parent then bcastDown s n pk else sendOn s s.fab.parent n pk

-- Arrival (R310, R314, R330).

/-- Whether a packet of MEPOCH e is newer than the tile's epoch (R330). -/
def isNewer (s : State) (e : Nat) : Bool :=
  let d := (e + 256 - s.mode.epoch % 256) % 256
  s.mode.joined && decide (0 < d) && decide (d < 128)

/-- Whether the fabric interface takes no packets: in its own reset, or while a level reset holds it (R334, R410). -/
def fabHeld (s : State) : Bool := unitHeld s 9 || accessHeld s

/-- A packet that the tile takes from port n (6 its own): delivered, put before the window check, or forwarded. Its credits are
owed once it leaves the buffer. -/
def packetIn (s : State) (n : Nat) (pk : Packet) : State :=
  let h := headOf pk.head
  let owed (s : State) : State := oweCredit s n ((typeVc h.ty).getD 0) (1 + pk.body.length)
  if s.fab.dup && n ≠ 6 then owed s
  else if h.ty = 2 && h.dst = 255 then (if fabHeld s then owed s else onBcast s n pk)
  else if h.dst = tileId s || n = 6 then
    if fabHeld s || (unitHeld s 7 && decide (h.ty < 2)) then owed s
    else if h.ty < 2 then { s with fab := { s.fab with chk := s.fab.chk ++ [(n, pk)] } }
    else if h.ty = 2 then owed (peerEnter s h)
    else owed (onResponse s pk)
  else forward s n pk

/-- Whether a landing write that waits holds VC0 of port n (R264). -/
def landBlocked (s : State) (n : Nat) : Bool := s.fab.land.any fun l => l.port == n && l.waiting

/-- Whether port n holds a packet of a channel (R264, R330). -/
def holdsVc (s : State) (n vc : Nat) : Bool :=
  ((portOf s n).held.any fun p => (typeVc (headOf p.head).ty).getD 0 == vc) || (vc == 0 && landBlocked s n)

/-- A packet kept in its ingress buffer; one that is newer is counted in MODE_HELD (R330). -/
def holdPacket (s : State) (n : Nat) (pk : Packet) : State :=
  let s := if isNewer s (fieldN pk.side 16 8) then incReg s 0x9048 16 16 else s
  updPort s n fun p => { p with held := p.held ++ [pk] }

/-- A packet whose head was good (R330): a newer one is held, and so is one behind a held one of its channel. -/
def acceptPacket (s : State) (n : Nat) (pk : Packet) : State :=
  if isNewer s (fieldN pk.side 16 8) || holdsVc s n ((typeVc (headOf pk.head).ty).getD 0) then holdPacket s n pk
  else packetIn s n pk

/-- Held packets that are newer no more are handled in their order (R330). `fuel` bounds them. -/
def releaseHeld (fuel : Nat) (s : State) (n : Nat) : State :=
  match fuel with
  | 0 => s
  | f + 1 =>
    let l := (portOf s n).held
    let first (vc : Nat) : Option Packet := l.find? fun p => (typeVc (headOf p.head).ty).getD 0 == vc
    match ([if landBlocked s n then none else first 0, first 1].filterMap id).find? fun p => !isNewer s (fieldN p.side 16 8) with
    | none => s
    | some p =>
      let s := updPort s n fun q => { q with held := q.held.erase p }
      releaseHeld f (packetIn s n p) n

/-- The held packets of every port that may now be handled. -/
def releaseAll (s : State) : State := foldTo 6 (fun n s => releaseHeld ((portOf s n).held.length) s n) s

/-- Packets held at this moment because they are newer (R330, R337). -/
def heldNow (s : State) : Nat :=
  s.fab.ports.foldl (fun a p => a + (p.held.filter fun k => isNewer s (fieldN k.side 16 8)).length) 0

/-- A GATED tile begins to wake (R390). -/
def wakeUp (s : State) : State :=
  if s.clk.st = 1 then { s with clk := { s.clk with st := 2, wakeSclk := 0, idleSclk := 0 } } else s

/-- A VC0 packet at a tile that is not ACTIVE wakes it, and waits in its ingress buffer (R390). -/
def wakeWait (s : State) (n : Nat) (pk : Packet) : State :=
  wakeUp (holdPacket s n pk)

/-- A packet arrives at port n on channel vc (R310, R314): the credits its flits return are taken; one with a bad head, of a
reserved type or on the wrong channel is discarded. -/
def packetArrive (s : State) (n : Nat) (head : Flit) (body : List Flit) : State :=
  let s := eachS (head :: body) (fun f s => rxFlit s n (fieldN f.side 28 2)) s
  let vc := fieldN head.side 30 2
  if unitHeld s (10 + n) then oweCredit s n vc (1 + body.length) else
  let h := headOf head.data
  let good := sectorCheck head.data == fieldN head.side 0 16 && typeVc h.ty == some vc
  if good then
    if s.clk.st ≠ 0 && vc = 0 then wakeWait s n ⟨head.data, head.side, body⟩ else acceptPacket s n ⟨head.data, head.side, body⟩
  else
    let s := oweCredit s n vc (1 + body.length)
    raise (incReg s 0x7050 0 32) 0x43 n

/-- Whether a packet is of the row that names type `ty`: its own, or one whose head is bad and whose channel is the type's. -/
def packetRow (ty : Nat) (head : Flit) (body : List Flit) : Bool :=
  let h := headOf head.data
  let bad := sectorCheck head.data != fieldN head.side 0 16 || typeVc h.ty != some (fieldN head.side 30 2)
  let n := if ty = 1 || ty = 3 then countOf h else 0
  bitB head.side 27 && decide (fieldN head.side 30 2 < 2) &&
    (if bad then typeVc ty == some (fieldN head.side 30 2)
     else h.ty == ty && (body.length == n || (ty == 3 && h.status != 0 && body.isEmpty)))

-- The owner's checks (R264, R270).

/-- Sectors of a landing ring's buffer. -/
def landSectorsOf (r : Ring) : Nat := r.nrows * r.rsize

/-- What the checks of R270 answer for a request: 0, or the failing status. -/
def windowStatus (s : State) (h : Head) : Nat :=
  let w := mget s.wins {} h.pwin
  let read := h.ty == 0
  let last := h.off + (countOf h - 1) * h.step
  let limit := if w.land then landSectorsOf (ringOf s w.lring) else 64 * w.size
  if w.mode ≠ 1 || w.gen ≠ h.gen then 1
  else if limit ≤ last || !(if read then w.rd else w.wr) || (w.peer ≠ 255 && w.peer ≠ h.src) then 2
  else 0

/-- Sector of the scratchpad that offset `o` of an export names. -/
def exportSector (w : Win) (o : Nat) : Nat := 64 * w.base + o

/-- The answer to a READ that passed (R270, R418): data, check and marks as they stand; a sector without contents travels as a
poisoned one. -/
def serveRead (s : State) (h : Head) : State :=
  let w := mget s.wins {} h.pwin
  let r := (natsTo (countOf h)).foldl (fun (a : List Sector × State) i =>
    let x := dmaRead a.2 (exportSector w (h.off + i * h.step))
    (a.1 ++ [{ data := x.1.data, check := x.1.check, poison := x.1.poison || x.1.uninit }], x.2)) ([], s)
  respond r.2 { dst := h.src, ty := 3, tag := h.tag, off := h.off, count := h.count, step := h.step } r.1

/-- The sectors of a WRITE that passed, performed as DMA writes. -/
def serveWrite (s : State) (h : Head) (l : List Sector) : State :=
  let w := mget s.wins {} h.pwin
  let s := foldTo l.length (fun i s =>
    let x := lget l {} i
    dmaWrite s (exportSector w (h.off + i * h.step)) x.data x.check x.poison) s
  respond s { dst := h.src, ty := 4, tag := h.tag } []

/-- The first request that port n (6: the tile itself) has brought to the scratchpad port (R264, R270). -/
def windowCheck (s : State) (n : Nat) (pk : Packet) : State :=
  let s := { s with fab := { s.fab with chk := s.fab.chk.eraseP fun e => e.1 == n } }
  let h := headOf pk.head
  let owed (s : State) : State := oweCredit s n 0 (1 + pk.body.length)
  match windowStatus s h with
  | 0 =>
    let w := mget s.wins {} h.pwin
    if h.ty = 0 then serveRead (owed s) h
    else if w.land then
      { s with fab := { s.fab with land := s.fab.land ++
          [{ port := n, win := h.pwin, gen := w.gen, ring := w.lring, off := h.off, step := h.step, ep := h.ep, src := h.src, tag := h.tag
             sectors := packetSectors pk }] } }
    else serveWrite (owed s) h (packetSectors pk)
  | st =>
    let s := { s with wins := mupd s.wins {} h.pwin fun w => { w with drops := satAdd 0xFFFFFFFF w.drops 1 } }
    respond (owed s) { dst := h.src, ty := if h.ty = 0 then 3 else 4, tag := h.tag, status := st } []

-- Landing rings (R263, R264).

/-- The half of a landing ring that a buffer sector lies in. -/
def landHalf (r : Ring) (o : Nat) : Nat := o / r.rsize / halfRows r

/-- Whether every sector of a landing write lies in the filling half, and that half may be begun (R264). -/
def landReady (s : State) (l : LandReq) : Bool :=
  let r := ringOf s l.ring
  (natsTo l.sectors.length).all (fun i => landHalf r (l.off + i * l.step) == halfOf r r.prod)
    && (rowBegun r r.prod || spaceToBegin r)

/-- A sector landed at offset o: written as a DMA access, its bit set. -/
def landSector (s : State) (n o : Nat) (x : Sector) : State :=
  let r := ringOf s n
  let s := dmaWrite s ((r.base + 32 * o) % spadBytes s / 32) x.data x.check x.poison
  let r := ringOf s n
  setRing s n { r with landed := if r.landed.contains o then r.landed else o :: r.landed }

/-- A CLOSE completes once no landing write that was checked before it, under the generation it closed, remains (R270). -/
def winFin (s : State) (w : Nat) : State :=
  let l := (mget s.wins {} w).fin
  let waits (e : Nat × Cli) : Bool := s.fab.land.any fun l => l.win == w && l.gen == e.1
  if l.all waits then s
  else eachS (l.filter fun e => !waits e) (fun e s => complete s e.2 0 0)
    { s with wins := mupd s.wins {} w fun x => { x with fin := l.filter waits } }

/-- A landing write lands (R264): a half whose every sector has landed becomes full with the write's tag. -/
def landWrite (s : State) (l : LandReq) : State :=
  let s := if rowBegun (ringOf s l.ring) (ringOf s l.ring).prod then s else beginHalf s l.ring
  let s := foldTo l.sectors.length (fun i s => landSector s l.ring (l.off + i * l.step) (lget l.sectors {} i)) s
  let r := ringOf s l.ring
  let s := if r.landed.length = halfRows r * r.rsize then
      setRing s l.ring (stampHalf { r with prod := add32 r.prod (halfRows r), landed := [] } (halfOf r r.prod) l.ep)
    else s
  let s := oweCredit s l.port 0 (1 + l.sectors.length)
  winFin (respond s { dst := l.src, ty := 4, tag := l.tag } []) l.win

/-- The first landing write of port n that has not been looked at, or that waits. -/
def landFirst (s : State) (n : Nat) (waiting : Bool) : Option LandReq :=
  (s.fab.land.find? fun l => l.port == n).filter fun l => l.waiting == waiting

/-- The first landing write of a port taken out. -/
def landTake (s : State) (n : Nat) : State :=
  { s with fab := { s.fab with land := s.fab.land.eraseP fun l => l.port == n } }

/-- The first landing write of a port marked as waiting. -/
def landWait (s : State) (l : LandReq) : State :=
  { s with fab := { s.fab with land := s.fab.land.map fun x => if x = l then { x with waiting := true } else x } }

/-- The half of landing ring n that was being filled is dropped, with the writes that wait for it (R272). -/
def landDrop (s : State) (n : Nat) : State := dropPartial s n

-- The sender's side of a failure (R271).

/-- The first failing answer processed: STALE and its event once, or WINDOW_RANGE; a failed read delivers poison. -/
def windowFail (s : State) : State :=
  match s.fab.wfails with
  | [] => s
  | (w, st, rd) :: r =>
    let s := { s with fab := { s.fab with wfails := r } }
    let s := if st = 1 then
        if (mget s.wins {} w).stale then s
        else raise { s with wins := mupd s.wins {} w fun x => { x with stale := true } } 0x24 w
      else raise s 0x25 w
    if rd = 0 then s else readPart s rd true

/-- The CLOSE of export w takes effect (R270). -/
def exportClose (s : State) (w : Nat) : State :=
  let x := mget s.wins {} w
  winFin { s with wins := mset s.wins {} w { gen := (x.gen + 1) % 256, drops := x.drops, stale := x.stale, fin := x.fin ++ x.closing.toList.map fun c => (x.gen, c) } } w

/-- The packets that the tile has sent to itself arrive. -/
def selfTick (s : State) : State :=
  let l := s.fab.selfIn
  eachS l (fun pk s => packetIn s 6 pk) { s with fab := { s.fab with selfIn := [] } }

end Sys2Proof.Machine
end

