-- ==== Sys2Proof/Machine/RedOps.lean ====
section
/-! DEFINITION. The adaptation unit and the link adders: groups, contributions, sum and parameter passes, tokens, and the
switch of parameter copies (13_adaptation_and_reduction.md, R338 to R358). -/
namespace Sys2Proof.Machine

/-- Group k. -/
def grp (s : State) (k : Nat) : Group := lget s.red {} k
/-- Group k changed by `f`. -/
def updGrp (s : State) (k : Nat) (f : Group → Group) : State := { s with red := lupd s.red k f }
/-- Block b of group k changed by `f`. -/
def updBlk (s : State) (k b : Nat) (f : RBlk → RBlk) : State := updGrp s k fun g => { g with blks := mupd g.blks {} b f }

/-- ROLE: 0 OFF, 1 MEMBER, 2 RELAY. -/
def gRole (g : Group) : Nat := fieldN g.live.cfg 30 2
/-- OUT_PORT. -/
def gOut (g : Group) : Nat := fieldN g.live.cfg 27 3
/-- Sum tokens of a member. -/
def gTokens (g : Group) : Nat := fieldN g.live.cfg 25 2 + 1
/-- NMEM. -/
def gNmem (g : Group) : Nat := max 1 (fieldN g.live.cfg 16 8)
/-- POS. -/
def gPos (g : Group) : Nat := fieldN g.live.cfg 8 8
/-- NBLK. -/
def gNblk (g : Group) : Nat := zeroIs 2048 (fieldN g.live.size 0 11)
/-- EXP0. -/
def gExp0 (g : Group) : Int := signedN 8 (fieldN g.live.size 16 8)
/-- Whether the tile owns block b (R341). -/
def gOwns (g : Group) (b : Nat) : Bool := b % gNmem g == gPos g
/-- Bytes of a parameter copy's area (R340). -/
def copyBytes (g : Group) : Nat := 2048 * ((gNblk g + 15) / 16)
/-- First byte of parameter copy c (R340). -/
def copyBase (g : Group) (c : Nat) : Nat := 2048 * fieldN g.live.param 0 11 + c % 2 * copyBytes g
/-- The live copy (R340). -/
def liveCopy (s : State) : Nat := s.mode.pepoch % 2

-- Areas (R340).

/-- The 32 entries of the block of 128 bytes at `a`, read as DMA accesses. -/
def readBlock (s : State) (a : Nat) : List W32 × State :=
  (natsTo 4).foldl (fun (x : List W32 × State) i =>
    let r := dmaRead x.2 ((a + 32 * i) % spadBytes s / 32)
    (x.1 ++ (natsTo 8).map fun j => BitVec.ofNat 32 (fieldN r.1.data (32 * j) 32), r.2)) ([], s)

/-- Eight entries as a sector. -/
def sectorOf (l : List W32) : BitVec 256 :=
  BitVec.ofNat 256 ((natsTo 8).foldl (fun a j => a + (lget l 0 j).toNat <<< (32 * j)) 0)

/-- A block written as DMA accesses, with fresh checks, though R417 does not list them (DESIGN CHOICE, log 24). -/
def writeBlock (s : State) (a : Nat) (l : List W32) : State :=
  foldTo 4 (fun i s => dmaFresh s ((a + 32 * i) % spadBytes s / 32) (sectorOf (l.drop (8 * i)))) s

/-- First byte of block b of the gradient area. -/
def gradAt (g : Group) (b : Nat) : Nat := 2048 * fieldN g.live.bases 0 11 + 128 * b
/-- First byte of block b of the residual area. -/
def residAt (g : Group) (b : Nat) : Nat := 2048 * fieldN g.live.bases 16 11 + 128 * b

-- Contributions (R345).

/-- A binary32 operation's result. -/
def w32 (r : NumR) : W32 := BitVec.ofNat 32 r.bits

/-- min(round_even(m × 2^-x), 65535). -/
def quant (m : W32) (x : Int) : Nat :=
  match f32 m with
  | .fin _ v e => min 65535 (roundAt .rne 0 v (e - x) 0).1
  | _ => 65535

/-- (−1)^neg × q × 2^x as binary32; q has at most 16 bits. -/
def scaled (neg : Bool) (q : Nat) (x : Int) : W32 := w32 (ffEncode fFP32 .rne false 0 0 (.fin neg q x))

/-- Whether a value is finite. -/
def isFin (w : W32) : Bool := match f32 w with | .fin _ _ _ => true | _ => false

/-- The mean magnitude of a block: the tree of R107 over its 32 lanes, scaled by 2^-5. -/
def blockMean (v : List W32) : W32 :=
  let t := (treeLanes false (v.map fun x => some (x &&& 0x7FFFFFFF))).1
  match f32 t with
  | .fin n m e => w32 (ffEncode fFP32 .rne false 0 0 (.fin n m (e - 5)))
  | _ => t

/-- form_block (R345). -/
def formBlock (s : State) (k b : Nat) : State :=
  let g := grp s k
  let gr := readBlock s (gradAt g b)
  let rs := readBlock gr.2 (residAt g b)
  let x := (mget g.blks {} b).x
  let sum := (natsTo 32).map fun i => w32 (f32Add .rne false 0 (lget gr.1 0 i) (lget rs.1 0 i))
  let v := sum.map fun a => if isFin a then a else 0
  let m := blockMean v
  let q := quant m x
  let neg (i : Nat) : Bool := bitB (lget v 0 i) 31
  let res := (natsTo 32).map fun i => w32 (f32Sub .rne false 0 (lget v 0 i) (scaled (neg i) q x))
  let s := writeBlock rs.2 (residAt g b) res
  let sgn := BitVec.ofNat 32 ((natsTo 32).foldl (fun a i => a + b2n (neg i) <<< i) 0)
  let s := updBlk s k b fun c => { c with formed := true, sgn := sgn, m := m, q := q, x1 := x }
  updGrp s k fun g => { g with formed := g.formed + 1 }

-- Flits of VC2 (R309, R346, R353).

/-- BLOCK. -/
def flBlock (f : Flit) : Nat := fieldN f.side 4 11
/-- EXP. -/
def flExp (f : Flit) : Int := signedN 8 (fieldN f.side 18 8)
/-- OVS. -/
def flOvs (f : Flit) : Nat := fieldN f.side 15 3
/-- RCH. -/
def flRch (f : Flit) : Nat := fieldN f.side 26 2

/-- Even parity over mantissa bytes 8k to 8k + 7, k = 0 to 3. -/
def parOf (d : BitVec 256) : Nat :=
  (natsTo 4).foldl (fun a k => a + (popcount (BitVec.ofNat 64 (fieldN d (64 * k) 64)) % 2) <<< k) 0
/-- Whether a flit's PAR holds. -/
def parOk (f : Flit) : Bool := fieldN f.side 0 4 == parOf f.data

/-- A VC2 flit of a reduction channel. -/
def redFlit (rch : Nat) (d : BitVec 256) (x : Int) (ovs b : Nat) : Flit :=
  { data := d, side := BitVec.ofNat 32 (2 <<< 30 + rch <<< 26 + wrapN 8 x <<< 18 + (ovs % 8) <<< 15 + (b % 2048) <<< 4 + parOf d) }

/-- Mantissa i of a sum flit: 0x80 counts as −127 (R346). -/
def mantissa (d : BitVec 256) (i : Nat) : Int := max (-127) (signedN 8 (fieldN d (8 * i) 8))
/-- The data bits of 32 mantissas. -/
def mantissas (l : List Int) : BitVec 256 :=
  BitVec.ofNat 256 ((natsTo 32).foldl (fun a i => a + wrapN 8 (lget l 0 i) <<< (8 * i)) 0)

/-- A flit sent on a group's OUT_PORT from the VC2 buffer of port `src` (6: from the unit itself); one for a port that is not UP is
discarded (R357). -/
def redSend (s : State) (k src : Nat) (f : Flit) : State :=
  let n := gOut (grp s k)
  if portUp s n then pushFlits s n 2 src [f] else oweCredit s src 2 1

/-- A flit that leaves the link adder 4 MCLK cycles from now (R347, R353). -/
def redLeave (s : State) (k : Nat) (f : Flit) : State :=
  updGrp s k fun g => { g with leaving := g.leaving ++ [(mclkOf s + 4, f)] }

/-- The flits of group k whose 4 MCLK cycles are over are sent. -/
def redDue (k : Nat) (s : State) : State :=
  let due (e : Nat × Flit) : Bool := decide (e.1 ≤ mclkOf s)
  let l := (grp s k).leaving
  if l.isEmpty then s
  else eachS (l.filter due) (fun e s => redSend s k 6 e.2) (updGrp s k fun g => { g with leaving := l.filter fun e => !due e })

/-- ⌈log2(a / 127)⌉ for a > 127. -/
def ovsOf (a : Nat) : Nat := min 7 (((natsTo 8).find? fun o => decide (a ≤ 127 * 2 ^ o)).getD 7)

-- Ends of a round (R354, R357).

/-- An ABORTED member that holds all its tokens is IDLE (R354). -/
def abortIdle (s : State) (k : Nat) : State :=
  let g := grp s k
  if g.st = 3 && g.sumTok = gTokens g && g.parTok = 1 then updGrp s k fun g => { g with st := 0 } else s

/-- DONE when every own block has its update written and its pass home, and every other one has arrived (R354). -/
def redDone (s : State) (k : Nat) : State :=
  let g := grp s k
  if g.st = 1 && (natsTo (gNblk g)).all (fun b =>
      let c := mget g.blks {} b
      if gOwns g b then c.updated && c.home else c.arrived == 15) then
    raise (updGrp s k fun g => { g with st := 2 }) 0x48 k
  else s

-- The sum pass (R347 to R352).

/-- The residual's correction on pass 2 (R349). -/
def residFix (s : State) (k b : Nat) (q' : Nat) (x2 : Int) : State :=
  let g := grp s k
  let c := mget g.blks {} b
  let r := readBlock s (residAt g b)
  let v := (natsTo 32).map fun i =>
    let neg := c.sgn.getLsbD i
    let d := f32Sub .rne false 0 (scaled neg c.q c.x1) (scaled neg q' x2)
    w32 (f32Add .rne false 0 (lget r.1 0 i) (w32 d))
  writeBlock r.2 (residAt g b) v

/-- The member's contribution to block b added to mantissas at exponent x (R347): the sums clamped, and OVS. `pass` counts the
flits of the block seen in the round. -/
def addBlock (s : State) (k b pass : Nat) (l : List Int) (x : Int) (ovs : Nat) : List Int × Nat × State :=
  let c := mget (grp s k).blks {} b
  let q := quant c.m x
  let t := (natsTo 32).map fun i => lget l 0 i + (if c.sgn.getLsbD i then -(q : Int) else q)
  let top := t.foldl (fun a v => max a v.natAbs) 0
  let s := if pass = 2 then residFix s k b q x else updBlk s k b fun c => { c with q := q, x1 := x }
  (t.map fun v => max (-127) (min 127 v), if 127 < top then max ovs (ovsOf top) else ovs, s)

/-- The segment of a block, if any (R352). -/
def segOf (g : Group) (b : Nat) : Option Nat :=
  (natsTo 4).find? fun i =>
    decide (b < (match i with
      | 0 => fieldN g.live.end01 0 12
      | 1 => fieldN g.live.end01 16 12
      | 2 => fieldN g.live.end23 0 12
      | _ => fieldN g.live.end23 16 12))

/-- A value clamped between two binary32 bounds. -/
def clampF (x lo hi : W32) : W32 := if ltX (f32 x) (f32 lo) then lo else if ltX (f32 hi) (f32 x) then hi else x

/-- An entry of the next copy (R352). -/
def newParam (g : Group) (b : Nat) (m : Int) (x : Int) (old : W32) : W32 :=
  match segOf g b with
  | none => old
  | some i =>
    let lr := lget g.live.lr 0 i
    let y := arith32 .rne false 0 (fmaX (f32 lr).negate (.fin (decide (m < 0)) m.natAbs x) (f32 old))
    if (f32 (w32 y)).isNan then old else clampF (w32 y) (lget g.live.pmin 0 i) (lget g.live.pmax 0 i)

/-- The block's next exponent (R351): the least X′ with 127 × 2^X′ ≥ 2^HEADROOM × A, A the largest |M| × 2^X. -/
def nextExp (g : Group) (top : Nat) (x : Int) : Int :=
  if top = 0 then x
  else
    let need := 2 ^ fieldN g.live.cfg 6 2 * top
    let up := ((natsTo 32).find? fun o => decide (need ≤ 127 * 2 ^ o)).getD 31
    let dn := ((natsTo 8).reverse.find? fun o => decide (need * 2 ^ o ≤ 127)).getD 0
    max (-126) (min 120 (x + up - dn))

/-- The owner settles block b (R348, R351, R352): the next copy written from the sum, or from the live values if it is lost. -/
def settleBlock (s : State) (k b : Nat) (l : List Int) (x : Int) (lost : Bool) : State :=
  let g := grp s k
  let old := readBlock s (copyBase g (liveCopy s) + 128 * b)
  let new := (natsTo 32).map fun i => if lost then lget old.1 0 i else newParam g b (lget l 0 i) x (lget old.1 0 i)
  let s := writeBlock old.2 (copyBase g (liveCopy s + 1) + 128 * b) new
  let top := l.foldl (fun a v => max a v.natAbs) 0
  let s := updBlk s k b fun c => { c with updated := true, x := if lost then x else nextExp g top x }
  updGrp s k fun g => { g with sumTok := min (gTokens g) (g.sumTok + 1), inSum := g.inSum - 1 }

/-- The owner's contribution put on a zero flit and sent (R347). -/
def sendSum (s : State) (k b pass : Nat) (x : Int) : State :=
  let a := addBlock s k b pass [] x 0
  redLeave a.2.2 k (redFlit (2 * k) (mantissas a.1) x a.2.1 b)

/-- A counter of a group's registers advanced and its event raised. -/
def redCount (s : State) (k off lo code : Nat) : State := raise (incReg s (0x8000 + 256 * k + off) lo 16) code k

/-- A sum flit comes home to its owner (R348). -/
def sumHome (s : State) (k b : Nat) (l : List Int) (x : Int) (ovs : Nat) : State :=
  let second := (mget (grp s k).blks {} b).seen == 2
  if ovs = 0 then settleBlock s k b l x false
  else if !second then
    let s := redCount s k 0x54 16 0x4A
    sendSum (updBlk s k b fun c => { c with seen := 2 }) k b 2 (min 120 (x + ovs))
  else if ovs < 7 then settleBlock (redCount s k 0x54 0 0x4B) k b l x false
  else settleBlock (redCount s k 0x58 0 0x4C) k b l x true

/-- REDUCE_PARITY for a flit whose PAR fails (R310), counted in PARITY by a member (R350, R353). -/
def parRaise (s : State) (n : Nat) (f : Flit) : State :=
  let k := flRch f / 2
  if parOk f then s
  else raise (if hasAdapt s && gRole (grp s k) == 1 then incReg s (0x8058 + 256 * k) 16 16 else s) 0x4D n

/-- A sum flit whose contribution is formed is handled by a RUNNING member (R347, R348, R350). -/
def sumHandle (s : State) (k n : Nat) (f : Flit) : State :=
  let b := flBlock f
  let good := parOk f
  let s := parRaise s n f
  let l := if good then (natsTo 32).map (mantissa f.data) else []
  let ovs := if good then flOvs f else 7
  if gOwns (grp s k) b then sumHome s k b l (flExp f) ovs
  else
    let s := updBlk s k b fun c => { c with seen := min 2 (c.seen + 1) }
    let a := addBlock s k b (mget (grp s k).blks {} b).seen l (flExp f) ovs
    redLeave a.2.2 k (redFlit (2 * k) (mantissas a.1) (flExp f) a.2.1 b)

/-- A sum flit at an ABORTED member, which takes its own passes home and forwards every other flit unchanged (R354). -/
def abortedSum (s : State) (k n : Nat) (f : Flit) : State :=
  let s := parRaise s n f
  if gOwns (grp s k) (flBlock f) then
    updGrp s k fun g => { g with sumTok := min (gTokens g) (g.sumTok + 1), inSum := g.inSum - 1 }
  else redSend s k 6 f

/-- Sum flits in the reduction buffer that need wait no longer, in order. `fuel` bounds them. -/
def sumDrain (fuel : Nat) (s : State) (k : Nat) : State :=
  match fuel with
  | 0 => s
  | n + 1 =>
    match (grp s k).waiting with
    | [] => s
    | (p, f) :: r =>
      let next := updGrp s k fun g => { g with waiting := r }
      if (grp s k).st = 3 then sumDrain n (abortedSum next k p f) k
      else if (grp s k).st = 1 && (mget (grp s k).blks {} (flBlock f)).formed then sumDrain n (sumHandle next k p f) k
      else s

/-- Everything in the reduction buffer of group k that may go on (R344). -/
def sumGo (s : State) (k : Nat) : State := sumDrain ((grp s k).waiting.length + 1) s k

/-- A member's round becomes ABORTED (R354): 1 timeout, 2 parameter parity, 3 reset. The flits that waited for its contribution
are handled as an ABORTED member handles them. -/
def redAbort (s : State) (k cause : Nat) : State :=
  abortIdle (sumGo (raise (updGrp s k fun g => { g with st := 3, cause := cause }) 0x49 k) k) k

/-- A discarded VC2 flit (R310, R338, R341). -/
def vc2Discard (s : State) (n : Nat) (f : Flit) : State := incReg (parRaise (oweCredit s n 2 1) n f) 0x7050 0 32

/-- A sum flit that a member takes from port n into its reduction buffer (R344, R347, R354). -/
def sumArrive (s : State) (n : Nat) (f : Flit) : State :=
  let k := flRch f / 2
  abortIdle (sumGo (updGrp (oweCredit s n 2 1) k fun g => { g with waiting := g.waiting ++ [(n, f)] }) k) k

/-- An owner starts a block's sum pass (R343, R347). -/
def sumStart (s : State) (k b : Nat) : State :=
  let g := grp s k
  let x := (mget g.blks {} b).x
  let s := updGrp s k fun g => { g with sumTok := g.sumTok - 1, inSum := g.inSum + 1 }
  sendSum (updBlk s k b fun c => { c with passed := true, seen := 1 }) k b 1 x

-- The parameter pass (R353).

/-- An owner sends a block's parameter pass. -/
def parStart (s : State) (k b : Nat) : State :=
  let g := grp s k
  let r := readBlock s (copyBase g (liveCopy s + 1) + 128 * b)
  let x := (mget g.blks {} b).x
  let s := updGrp r.2 k fun g => { g with parTok := g.parTok - 1, inPar := g.inPar + 1 }
  let s := updBlk s k b fun c => { c with parSent := true }
  foldTo 4 (fun f s => redSend s k 6 (redFlit (2 * k + 1) (sectorOf (r.1.drop (8 * f))) x f b)) s

/-- A parameter flit of a block of the tile's own comes home and is absorbed: with the last one the token (R353, R357). One that fails its
PAR ends a round that is RUNNING (R354). -/
def parHome (s : State) (k : Nat) (f : Flit) : State :=
  let s := if flOvs f % 4 = 3 then
      updGrp s k fun g => { g with parTok := min 1 (g.parTok + 1), inPar := g.inPar - 1 }
    else s
  if (grp s k).st = 3 then abortIdle s k
  else if (grp s k).st ≠ 1 then s
  else if !parOk f then redAbort s k 2
  else if flOvs f % 4 = 3 then redDone (updBlk s k (flBlock f) fun c => { c with home := true }) k
  else s

/-- A parameter flit of another block at a member (R353): a RUNNING one writes it, or aborts its round if its PAR fails; it goes on
unchanged. -/
def parTake (s : State) (k : Nat) (f : Flit) : State :=
  let g := grp s k
  let b := flBlock f
  if g.st ≠ 1 then redSend s k 6 f
  else if !parOk f then redAbort (redLeave s k f) k 2
  else
    let i := flOvs f % 4
    let s := dmaFresh s ((copyBase g (liveCopy s + 1) + 128 * b + 32 * i) % spadBytes s / 32) f.data
    let s := updBlk s k b fun c =>
      { c with arrived := c.arrived ||| 2 ^ i, x := if i = 3 then flExp f else c.x }
    redDone (redLeave s k f) k

/-- A parameter flit that a member takes from port n (R353, R354). -/
def parArrive (s : State) (n : Nat) (f : Flit) : State :=
  let k := flRch f / 2
  let s := parRaise (oweCredit s n 2 1) n f
  if gOwns (grp s k) (flBlock f) then parHome s k f else parTake s k f

/-- A VC2 flit at the front of the buffer of port n (R338, R341): a duplicate tile takes none (R324), a RELAY sends it on from where it
stands, and a MEMBER takes it. -/
def vc2Arrive (n : Nat) (f : Flit) (s : State) : State :=
  let k := flRch f / 2
  let r := gRole (grp s k)
  if s.fab.dup then oweCredit s n 2 1
  else if !hasAdapt s || r = 0 || r = 3 then vc2Discard s n f
  else if r = 2 then redSend (parRaise s n f) k n f
  else if flRch f % 2 = 0 then sumArrive s n f
  else parArrive s n f

/-- VC2 flits of port n handled in order, until one is held in the buffer for a credit of its way out: the later ones wait behind it,
whatever their channel (R312). `fuel` bounds them. -/
def vc2Go (fuel : Nat) (s : State) (n : Nat) : State :=
  match fuel with
  | 0 => s
  | k + 1 =>
    match (portOf s n).inVc2 with
    | [] => s
    | f :: r =>
      if transit s n 2 ≠ 0 then s else vc2Go k (vc2Arrive n f (updPort s n fun p => { p with inVc2 := r })) n

/-- The VC2 flits in the buffers of the ports that may be handled. -/
def vc2Drain (s : State) : State := foldTo 6 (fun n s => vc2Go (portOf s n).inVc2.length s n) s

/-- Block `formed` of a RUNNING group is formed, and the flits that waited for it go on (R345). -/
def formNext (s : State) (k : Nat) : State := sumGo (formBlock s k (grp s k).formed) k

-- Barriers (R342, R355, R357).

/-- Whether a member holds all its tokens. -/
def holdsTokens (g : Group) : Bool := g.sumTok == gTokens g && g.parTok == 1

/-- Whether the reduction groups refuse a PREPARE (R342). -/
def redRefuses (s : State) (m : ModeWord) : Bool :=
  let mem := s.red.filter fun g => gRole g == 1
  let flip := m.pepoch % 2 != s.mode.pepoch % 2
  let linkBad := s.fab.ports.any fun p => p.st == 4 || p.st == 1
  mem.any (fun g => g.st == 1 || g.st == 3) || (flip && mem.any (·.st == 0))
    || ((m.applyRed || flip) && mem.any (fun g => !holdsTokens g) && !linkBad) || (m.applyRed && flip)

/-- The staged registers of group k as a live configuration. -/
def stagedRed (s : State) (k : Nat) : RCfg :=
  let r (o : Nat) : W32 := reg s (0x8000 + 256 * k + o)
  { cfg := r 0, size := r 4, bases := r 8, param := r 0xC, end01 := r 0x10, end23 := r 0x14
    lr := (natsTo 4).map fun i => r (0x20 + 4 * i), pmin := (natsTo 4).map fun i => r (0x30 + 4 * i)
    pmax := (natsTo 4).map fun i => r (0x40 + 4 * i) }

/-- Every block at EXP0 with nothing formed. -/
def freshBlks (c : RCfg) : SMap RBlk :=
  let x := signedN 8 (fieldN c.size 16 8)
  if x = 0 then [] else (natsTo (zeroIs 2048 (fieldN c.size 0 11))).map fun b => (b, { x := x })

/-- APPLY_RED for one group (R342, R343, R357). -/
def applyRedGroup (s : State) (k : Nat) : State :=
  let g := grp s k
  let lost := if gRole g = 1 then gTokens g + 1 - g.sumTok - g.parTok else 0
  let c := stagedRed s k
  let mem := fieldN c.cfg 30 2 == 1
  updGrp s k fun g =>
    { live := c, cause := g.cause, blks := freshBlks c, retired := satAdd 0xFFFF g.retired lost
      waiting := g.waiting, leaving := g.leaving
      sumTok := if mem then fieldN c.cfg 25 2 + 1 else 0, parTok := if mem then 1 else 0 }

/-- The switch of parameter copies (R355): DONE groups become IDLE, and RETARGET rewrites the base of descriptor PTD. -/
def switchCopy (s : State) (k : Nat) : State :=
  let g := grp s k
  let s := if g.st = 2 then updGrp s k fun g => { g with st := 0 } else s
  if gRole g = 1 && bitB g.live.cfg 24 then
    setRw s (0x3404 + 0x20 * fieldN g.live.cfg 0 6) 0xFFFFFFFF (BitVec.ofNat 32 (copyBase g (liveCopy s)))
  else s

/-- A round accepted (R345): the exponents are kept, everything else of the last round goes. -/
def roundStart (s : State) (k : Nat) : State :=
  updGrp s k fun g =>
    { g with
      st := 1, round := (g.round + 1) % 65536, formed := 0, t0 := mclkOf s
      blks := (g.blks.map fun e => (e.1, ({ x := e.2.x } : RBlk))).filter fun e => e.2 != {} }

/-- The contents of the unit are lost to a reset (R358). -/
def redReset (s : State) (k : Nat) : State :=
  let s := if (grp s k).st = 1 then redAbort s k 3 else s
  updGrp s k fun g => { g with blks := freshBlks g.live, formed := 0 }

end Sys2Proof.Machine
end

