-- ==== Sys2Proof/Machine/ModeOps.lean ====
section
/-! DEFINITION. The mode barrier: messages, the member's and the leader's parts, and the apply (12_urden_fabric.md, R327 to
R330; 13_adaptation_and_reduction.md, R342, R355). -/
namespace Sys2Proof.Machine

/-- LEADER_ID (R327). -/
def leaderId (s : State) : Nat := regF s 0x7008 8 8
/-- TIMEOUT in MCLK cycles (R328). -/
def barrierTo (s : State) : Nat := zeroIs 65536 (regF s 0x9008 0 16) * 1000

/-- A barrier message sent along the route to its destination (R327). -/
def sendBarrier (s : State) (m : CMsg) : State :=
  let e := routeFor s m.b
  if portUp s e then pushCtl s e m else s

/-- Codes of barrier messages. -/
def bPrepare : Nat := 0
/-- ACK. -/
def bAck : Nat := 1
/-- NAK. -/
def bNak : Nat := 2
/-- COMMIT. -/
def bCommit : Nat := 3
/-- ABORT. -/
def bAbort : Nat := 4
/-- DONE. -/
def bDone : Nat := 5

/-- A barrier message of the tile to another tile. -/
def barrierSend (s : State) (sub dst e e1 : Nat) (m : ModeWord) : State :=
  sendBarrier s { ctype := 8, sub := sub, a := tileId s, b := dst, c := e, d := e1, m := m }

-- The leader (R328).

/-- The leader's last result: 1 OKAY, 2 ABORTED, 3 PARTIAL. -/
def setLast (s : State) (v : Nat) : State := setRegF s 0x900C 26 3 v

/-- The barrier at the leader is over: the command completes. -/
def leaderEnd (s : State) (status last : Nat) : State :=
  let c := s.mode.cli
  let s := { s with mode := { s.mode with lead := 0, members := [], acks := [], dones := [], cli := none } }
  completeOpt (setLast s last) c status

/-- Tiles listed in MODE_LATE. -/
def setLate (s : State) (l : List Nat) : State :=
  eachS l (fun t s => orReg s (0x9030 + 4 * (t / 32)) (BitVec.ofNat 32 (2 ^ (t % 32)))) s

/-- A DONE at the leader: with the last one the barrier is over (R328). -/
def leaderDone (s : State) (t : Nat) : State :=
  if s.mode.lead ≠ 2 || !s.mode.members.contains t then s
  else
    let s := { s with mode := { s.mode with dones := if s.mode.dones.contains t then s.mode.dones else t :: s.mode.dones } }
    if s.mode.members.all fun m => s.mode.dones.contains m then leaderEnd (raise s 0x45 0) 0 1 else s

-- The member (R328, R329).

/-- DONE sent to the leader of the barrier. -/
def sendDone (s : State) (src : Nat) : State :=
  if src = tileId s then leaderDone s src else barrierSend s bDone src 0 0 ⟨0, 0, 0, false⟩

/-- A committed mode applied (R328): rounding, epochs, USER, the staged reduction configuration or the switch of copies; packets
held for the epoch go on, and DONE is sent. -/
def modeApply (s : State) : State :=
  match s.mode.prepared with
  | none => s
  | some m =>
    let flip := m.pepoch % 2 != s.mode.pepoch % 2
    let src := s.mode.prepSrc
    let s := { s with mode := { s.mode with
      rnd := m.rnd, pepoch := m.pepoch, user := m.user, epoch := s.mode.prepE, joined := true, prepared := none
      committed := false } }
    let s := if m.applyRed then applyRedGroup (applyRedGroup s 0) 1 else s
    let s := if flip then switchCopy (switchCopy s 0) 1 else s
    sendDone (releaseAll s) src

/-- Whether a COMMIT is applied at once: the sequencer stopped, or a LINK freeze with traffic held (R328). -/
def applyNow (s : State) : Bool := seqStopped s || (s.seq.frozen && s.seq.frz.link && decide (0 < heldNow s))

/-- COMMIT at a member (R328): a repeated one is answered with DONE again. -/
def onCommit (s : State) (src e1 : Nat) : State :=
  if s.mode.prepared.isSome && s.mode.prepE = e1 && s.mode.prepSrc = src then
    let s := { s with mode := { s.mode with committed := true } }
    if applyNow s then modeApply s else s
  else if s.mode.joined && s.mode.epoch = e1 then sendDone s src
  else s

/-- ABORT at a member. -/
def onAbort (s : State) (src : Nat) : State :=
  if s.mode.prepared.isSome && !s.mode.committed && s.mode.prepSrc = src then
    { s with mode := { s.mode with prepared := none } }
  else s

/-- The leader aborts (R328). -/
def leaderAbort (s : State) : State :=
  if s.mode.lead ≠ 1 then s
  else
    let l := s.mode.members
    let s := setLate s (l.filter fun t => !s.mode.acks.contains t)
    let s := eachS l (fun t s =>
      if t = tileId s then onAbort s t else barrierSend s bAbort t 0 0 ⟨0, 0, 0, false⟩) s
    leaderEnd (raise s 0x46 0) 6 2

/-- COMMIT sent to members. -/
def sendCommits (s : State) (l : List Nat) : State :=
  let e1 := s.mode.leadE
  eachS l (fun t s => if t = tileId s then onCommit s t e1 else barrierSend s bCommit t 0 e1 ⟨0, 0, 0, false⟩) s

/-- An ACK at the leader: with the last one it sends COMMIT (R328). -/
def leaderAck (s : State) (t : Nat) : State :=
  if s.mode.lead ≠ 1 || !s.mode.members.contains t then s
  else
    let s := { s with mode := { s.mode with acks := if s.mode.acks.contains t then s.mode.acks else t :: s.mode.acks } }
    if s.mode.members.all fun m => s.mode.acks.contains m then
      sendCommits { s with mode := { s.mode with lead := 2, t0 := mclkOf s, resends := 0 } } s.mode.members
    else s

/-- A NAK at the leader (R328). -/
def leaderNak (s : State) (t : Nat) : State :=
  if s.mode.lead = 1 && s.mode.members.contains t then leaderAbort s else s

/-- Whether a member answers a PREPARE with ACK (R328, R342); one that repeats what the member holds is the same barrier. -/
def mayPrepare (s : State) (src e e1 : Nat) (m : ModeWord) : Bool :=
  s.fab.st == 4 && (!s.mode.joined || s.mode.epoch == e) && !redRefuses s m
    && (s.mode.prepared.isNone || (s.mode.prepared == some m && s.mode.prepE == e1 && s.mode.prepSrc == src))

/-- A member's answer to a PREPARE that has arrived in this MCLK cycle: it leaves 4 cycles later (R328). -/
def answerLater (s : State) (sub dst : Nat) : State :=
  { s with mode := { s.mode with
    answers := s.mode.answers ++ [(mclkOf s + 4, { ctype := 8, sub := sub, a := tileId s, b := dst, m := ⟨0, 0, 0, false⟩ })] } }

/-- The answers that are due are sent. -/
def answersDue (s : State) : State :=
  let due (e : Nat × CMsg) : Bool := decide (e.1 ≤ mclkOf s)
  let l := s.mode.answers.filter due
  if l.isEmpty then s
  else
    let s := { s with mode := { s.mode with answers := s.mode.answers.filter fun e => !due e } }
    eachS l (fun e s => sendBarrier s e.2) s

/-- A PREPARE of the same values from a leader that is already at the epoch which this member has prepared: its COMMIT was missed, and the
member is brought to that epoch (R329, log 134). -/
def missedCommit (s : State) (src e : Nat) (m : ModeWord) : State :=
  if s.mode.prepared == some m && s.mode.prepE == e then onCommit s src e else s

/-- PREPARE at a member (R328). -/
def onPrepare (s : State) (src e e1 : Nat) (m : ModeWord) : State :=
  let answer (s : State) (ok : Bool) : State :=
    if src = tileId s then (if ok then leaderAck s src else leaderNak s src)
    else answerLater s (if ok then bAck else bNak) src
  let s := if src = leaderId s then missedCommit s src e m else s
  if src ≠ leaderId s then answer (raise s 0x6B 3) false
  else if mayPrepare s src e e1 m then
    answer { s with mode := { s.mode with
      prepared := some m, prepE := e1, prepSrc := src, committed := s.mode.committed && s.mode.prepared.isSome } } true
  else answer s false

/-- The members named by MODE_MEMBERS. -/
def modeMembers (s : State) : List Nat :=
  (natsTo 192).filter fun t => bitB (reg s (0x9010 + 4 * (t / 32))) (t % 32)

/-- The barrier begun (R327, R328): PREPARE to every member, the leader itself among them last. -/
def modeStart (s : State) (m : ModeWord) (c : Cli) : State :=
  let l := modeMembers s
  let e := s.mode.epoch
  let e1 := (e + 1) % 256
  let s := foldTo 6 (fun i s => setReg s (0x9030 + 4 * i) 0) s
  let s := { s with mode := { s.mode with
    lead := 1, leadE := e1, mode := m, members := l, acks := [], dones := [], resends := 0, t0 := mclkOf s, cli := some c } }
  let s := eachS (l.filter (· != tileId s)) (fun t s => barrierSend s bPrepare t e e1 m) s
  if l.contains (tileId s) then onPrepare s (tileId s) e e1 m else s

/-- A barrier message at the tile: its own, or forwarded along its route (R327). -/
def onBarrier (s : State) (m : CMsg) : State :=
  if m.b ≠ tileId s then sendBarrier s m
  else if m.sub = bPrepare then onPrepare s m.a m.c m.d m.m
  else if m.sub = bAck then leaderAck s m.a
  else if m.sub = bNak then leaderNak s m.a
  else if m.sub = bCommit then onCommit s m.a m.d
  else if m.sub = bAbort then onAbort s m.a
  else leaderDone s m.a

/-- The resend interval that began at MCLK cycle `t0` has passed (R328): COMMIT again, four times at most, then PARTIAL; nothing if the
barrier has ended meanwhile. -/
def commitAgain (t0 : Nat) (s : State) : State :=
  let miss := s.mode.members.filter fun t => !s.mode.dones.contains t
  if s.mode.lead ≠ 2 || s.mode.t0 ≠ t0 then s
  else if s.mode.resends < 4 then
    sendCommits { s with mode := { s.mode with resends := s.mode.resends + 1, t0 := mclkOf s } } miss
  else leaderEnd (raise (setLate s miss) 0x47 0) 7 3

end Sys2Proof.Machine
end

