-- ==== Sys2Proof/Machine/Boundary.lean ====
section
/-! DEFINITION. What takes effect at a bench boundary: ring table entries, seam bindings and zeroing, bank switches, recipe
directory entries, and a committed mode (R32, R33, R119, R131, R190, R202, R219, R259, R302, R328, R449). -/
namespace Sys2Proof.Machine

-- Rings (R254, R259).

/-- The ring table entry that a RING_SET's words describe (R254, R450). -/
def ringOfWords (w : CmdWords) : Ring :=
  { en := bitB w.w1 31, pooled := bitB w.w1 30, psrc := bitB w.w1 29, relmode := fieldN w.w1 27 2
    rps := zeroIs 16 (fieldN w.w1 23 4), seam := fieldN w.w1 15 8, landing := bitB w.w3 0
    base := fieldN w.w2 15 17 * 32, rsize := zeroIs 32 (fieldN w.w2 10 5), nrows := zeroIs 1024 (fieldN w.w2 0 10) }

/-- The descriptors that a record uses: those of its own fields, and those of its recipe (R171, R226). -/
def recUses (s : State) (r : Rec) : List Nat :=
  (recTds r).map (·.1) ++ (if r.ty = 6 then recipeTds s (mget s.vec.dir {} (vRcp r)) else [])

/-- Whether a bench in progress names ring n in a descriptor that one of its records uses. -/
def benchReads (s : State) (n : Nat) : Bool :=
  s.seq.benches.any fun b => b.recs.any fun r => (recUses s r).any fun td => tdKind b td == 2 && tdUnit b td == n

/-- Whether ring n is not empty, or its producer or consumer is active (R32, R33): a channel, a bench, or landing writes that have passed
their check. -/
def ringBusy (s : State) (n : Nat) : Bool :=
  let r := ringOf s n
  ringHeld r != 0 || r.beg != r.prod || !r.landed.isEmpty || ringTaken s 128 n || s.fab.land.any (·.ring == n)
    || (r.en && benchReads s n)

/-- A RING_SET takes effect: counters and tags cleared (R259). -/
def ringEffect (s : State) (n : Nat) (w : CmdWords) (c : Cli) : State := complete (setRing s n (ringOfWords w)) c 0 0

/-- The RING_SETs that wait, of rings that are drained; those of the image only at the start of a bench (R368). -/
def ringBoundary (s : State) (bench : Bool) : State :=
  eachS (s.rings.filter fun e => e.2.pend.isSome) (fun e s =>
    match (ringOf s e.1).pend with
    | some (w, c) => if ringBusy s e.1 || (c.o == .image && !bench) then s else ringEffect s e.1 w c
    | none => s) s

-- Seams (R119).

/-- ZERO takes effect: the committed copy is +0, SEAM_STEP 0, STALE and POISON cleared; from HOME the seam is RESIDENT. -/
def zeroEffect (s : State) (k : Nat) (c : Cli) : State :=
  let s := foldTo (seam s k).nrows (fun i s =>
    let m := seam s k
    let row := seamRow m m.cur i
    let s := foldTo 128 (fun j s => setEntry s row j 0) s
    rowFresh s row) s
  let s := updSeam s k fun m =>
    { m with step := 0, stale := false, poison := false, pend := none, flip := 0, st := if m.st = 1 then 4 else m.st }
  complete s c 0 0

/-- Whether ZERO of seam k finds one of the conditions for which R119 names BUSY. -/
def zeroBusy (s : State) (k : Nat) : Bool :=
  let m := seam s k
  m.st == 2 || m.st == 3 || m.st == 5 || m.st == 6 || m.st == 7 || (m.st == 1 && (rowHolder s k).isSome)

/-- What a seam's pending command does at a boundary: a rebind of a resident seam first evicts it (R32). A ZERO
whose seam meets one of R119's conditions for BUSY by then completes with BUSY and changes nothing (DESIGN CHOICE, log 122). -/
def seamBoundaryOne (s : State) (k : Nat) : State :=
  let m := seam s k
  match m.pend with
  | none => s
  | some p =>
    if !p.isBind then
      if zeroBusy s k then complete (updSeam s k fun m => { m with pend := none }) p.cli 1 0 else zeroEffect s k p.cli
    else if m.st < 2 then bindEffect s k p
    else if m.st = 4 then startEvict s k
    else if m.st = 5 then updSeam s k fun m => { m with st := 6 }
    else s

/-- The BINDs and ZEROs that wait for a boundary. -/
def seamBoundary (s : State) (bench : Bool) : State :=
  eachS (s.seams.filter fun e => e.2.pend.any fun p => bench || p.cli.o != .image) (fun e s => seamBoundaryOne s e.1) s

-- Banks and recipes (R131, R190, R202).

/-- The pending switches of the gate tables. -/
def gateBanks (s : State) : State :=
  { s with gate := { s.gate with
      bankSig := s.gate.bankSig != s.gate.pendSig, bankTnh := s.gate.bankTnh != s.gate.pendTnh
      pendSig := false, pendTnh := false } }

/-- Whether a scan record of a bench in progress has not finished. -/
def scanInProgress (s : State) : Bool := s.seq.benches.any fun b => b.recs.any fun r => r.ty == 5 && !r.fin

/-- The pending switches of the table slots: those of slots 0 and 7 wait for scan records (R202). -/
def sfuBanks (s : State) : State :=
  let keep := if scanInProgress s then s.sfu.pend &&& 0x81 else 0
  let go := s.sfu.pend ^^^ keep
  { s with sfu := { s.sfu with bank := s.sfu.bank ^^^ go, pend := keep } }

/-- Recipes that passed their check become VALID, and at a bench boundary retired ones idle. -/
def recipeBoundary (s : State) (bench : Bool) : State :=
  eachS (s.vec.dir.filter fun e => e.2.pend || e.2.retire) (fun e s =>
    { s with vec := { s.vec with dir := mupd s.vec.dir {} e.1 fun d =>
        { d with valid := d.pend || (d.valid && !(d.retire && bench)), pend := false, retire := d.retire && !bench } } }) s

/-- The switches that wait for a boundary or for no bench to run. -/
def bankBoundary (s : State) (bench : Bool) : State := recipeBoundary (sfuBanks (gateBanks s)) bench

/-- The commands that wait for a boundary or for the sequencer to stop (R449). -/
def cmdBoundary (s : State) (bench : Bool) : State :=
  let s := seamBoundary (ringBoundary s bench) bench
  if s.mode.committed then modeApply s else s

/-- A bench boundary (R219). -/
def boundary (s : State) : State := cmdBoundary (bankBoundary s true) true

/-- Between benches, in each PCLK cycle: no bench runs, or the sequencer is stopped (R131, R190, R202, R449). -/
def boundaryTick (s : State) : State :=
  let s := if s.seq.benches.isEmpty then bankBoundary s false else s
  if seqStopped s then cmdBoundary s false else s

end Sys2Proof.Machine
end

