-- ==== Sys2Proof/Machine/SeqRun.lean ====
section
/-! DEFINITION. The bench sequencer: items, loops, staging, the start of a bench, the end of a record and of a bench, halts, the
replay point and the commands that move the sequencer (09_bench_sequencer.md, R213 to R238, R461). -/
namespace Sys2Proof.Machine

-- The state that entry states keep (R233).

/-- The TD file, keyed 8n + w. -/
def tdFile (s : State) : SMap W32 :=
  (s.regs.filter fun e => decide (0x3400 ≤ e.1) && decide (e.1 < 0x3C00)).map fun e => ((e.1 - 0x3400) / 4, e.2)
/-- The TD file replaced, by the tile. -/
def setTdFile (s : State) (m : SMap W32) : State :=
  let s := eachS (tdFile s) (fun e s => setRw s (0x3400 + 4 * e.1) 0xFFFFFFFF 0) s
  eachS m (fun e s => setRw s (0x3400 + 4 * e.1) 0xFFFFFFFF e.2) s
/-- CNTk. -/
def cntOf (s : State) (k : Nat) : Nat := regF s (0x3020 + 4 * k) 0 16
/-- CNTk written, by the tile. -/
def setCnt (s : State) (k v : Nat) : State := setRw s (0x3020 + 4 * k) 0xFFFFFFFF (BitVec.ofNat 32 (v % 65536))
/-- IDXk replaced. -/
def setIdx (s : State) (k v : Nat) : State := { s with seq := { s.seq with idx := lupd s.seq.idx k fun _ => v } }

/-- The sequencer's state at the next word, as an entry state. -/
def entryNow (s : State) : Entry :=
  { pc := s.seq.pc, frames := s.seq.frames, cnt := (natsTo 4).map (cntOf s), idx := s.seq.idx, bep := s.seq.bep
    tdf := tdFile s }

/-- An entry state restored (R233). -/
def restoreEntry (s : State) (e : Entry) : State :=
  let s := foldTo 4 (fun k s => setCnt s k (lget e.cnt 0 k)) s
  let s := setTdFile s e.tdf
  { s with seq := { s.seq with pc := e.pc, frames := e.frames, idx := e.idx, bep := e.bep } }

-- Reading items (R217, R218, R461).

/-- Whether the item at the program counter may not be read: a reserved type, or past the last word (R461). -/
def itemBad (s : State) : Bool :=
  match itemWords (itemType (pramWord s s.seq.pc)) with
  | none => true
  | some n => decide (16384 < s.seq.pc + n)

/-- How many words of the next item are read before the one that settles it: the last one, the first that fails its parity, or
the header of an item that may not be read (R218, R423, R461). -/
def itemLead (s : State) : Nat :=
  let a := s.seq.pc
  let n := (itemWords (itemType (pramWord s a))).getD 1
  if itemBad s then 0 else ((natsTo n).find? fun i => s.seq.badPram.contains (a + i)).getD (n - 1)

/-- The slot in which the word that settles the next item is read, if one is being read. -/
def itemDue (s : State) : Option Nat :=
  if s.seq.st = 2 && s.seq.staged.isNone && s.seq.haltReq.isNone then some (s.seq.nextRead + itemLead s) else none

/-- The address of the next program word to be read (R239): the words of the present item that earlier slots have read are passed. -/
def pcShown (s : State) : Nat :=
  if (itemDue s).isSome then s.seq.pc + min (itemLead s) (s.clk.slot - s.seq.nextRead) else s.seq.pc

/-- A halt under R461: BAD_FORMAT, with no record. -/
def itemHalt (s : State) : State := reqHaltSeq (raise s 0x04 0) 2

/-- The sequencer goes on at address `pc` in the next slot. -/
def seqTo (s : State) (pc : Nat) : State := { s with seq := { s.seq with pc := pc, nextRead := s.clk.slot + 1 } }

/-- An item of `n` words read: a word that fails its parity halts the sequencer (R423); the entry state of a bench is taken
with its first item (R233). -/
def itemRead (s : State) (n : Nat) (f : State → State) : State :=
  let a := s.seq.pc
  if s.seq.badPram.any fun x => decide (a ≤ x) && decide (x < a + n) then ramParity s 0
  else
    let s := match s.seq.cur with
      | none => { s with seq := { s.seq with cur := some (entryNow s) } }
      | some _ => s
    f s

/-- A record read into the bench being built. -/
def recordItem (s : State) (ty n : Nat) : State :=
  let a := s.seq.pc
  let r : Rec := { pos := s.seq.recs.length, ty := ty, w := (natsFrom a n).map (pramWord s) }
  seqTo { s with seq := { s.seq with recs := s.seq.recs ++ [r] } } (a + n)

/-- The bench that a START closes (R218, R222, R227). -/
def benchOfStart (s : State) (w sd : W32) : Bench :=
  { len := zeroIs 65536 (fieldN w 0 16), bep := s.seq.bep % 16, arnd := fieldN w 24 2, crnd := fieldN w 22 2, ovfInf := bitB w 21
    reseed := bitB w 20, seed := sd, tdf := tdFile s, badTd := s.seq.badTd, idx := s.seq.idx, recs := s.seq.recs
    entry := s.seq.cur.getD (entryNow s) }

/-- START: the bench is staged, with the checks that come before it issues anything (R218, R221, R423). -/
def startItem (s : State) : State :=
  let a := s.seq.pc
  let b := benchOfStart s (pramWord s a) (pramWord s (a + 1))
  let bad := badBench s b
  let b := { b with bad := bad.isSome, badRec := bad.getD 0 }
  let s := if b.bad then raise s 0x04 (recArg b b.badRec) else s
  let s := ramParities s 1 (badTdWords s b)
  { s with seq := { s.seq with pc := a + 2, recs := [], cur := none, staged := some b, stagedAt := s.clk.slot } }

/-- LOOP (R228). -/
def loopItem (s : State) : State :=
  let a := s.seq.pc
  let w := pramWord s a
  let k := s.seq.frames.length
  let skip := fieldN w 0 14
  if 4 ≤ k then itemHalt s
  else if !bitB w 25 && cntOf s k = 0 then seqTo s (a + skip)
  else
    let s := setIdx s k 0
    let f : LoopFrame := ⟨a + 1, cntOf s k, bitB w 25, a + skip⟩
    seqTo { s with seq := { s.seq with frames := f :: s.seq.frames } } (a + 1)

/-- Whether the items from address a up to `stop` hold a START. `fuel` bounds the items. -/
def hasStart (s : State) (stop : Nat) : Nat → Nat → Bool
  | 0, _ => false
  | n + 1, a =>
    if stop ≤ a then false
    else
      let t := itemType (pramWord s a)
      t == 0x20 || hasStart s stop n (a + (itemWords t).getD 1)

/-- ENDLOOP (R228, R461). -/
def endloopItem (s : State) : State :=
  let a := s.seq.pc
  match s.seq.frames with
  | [] => itemHalt s
  | f :: r =>
    let k := r.length
    if f.after ≠ a + 1 || (f.forever && !hasStart s a (a - f.body) f.body) then itemHalt s
    else if f.forever || 1 < f.left then
      let s := setIdx s k ((lget s.seq.idx 0 k + 1) % 65536)
      seqTo { s with seq := { s.seq with frames := { f with left := if f.forever then f.left else f.left - 1 } :: r } } f.body
    else seqTo { setIdx s k 0 with seq := { (setIdx s k 0).seq with frames := r } } (a + 1)

/-- CNTSET. -/
def cntsetItem (s : State) : State :=
  let w := pramWord s s.seq.pc
  seqTo (setCnt s (fieldN w 24 2) (fieldN w 0 16)) (s.seq.pc + 1)

/-- The assigned bits of word w of a descriptor (R240). -/
def tdMask (w : Nat) : W32 :=
  match w with
  | 1 => 0xFFFFFFE0
  | 2 => 0xFFFF
  | 3 => 0xFFFF
  | 6 => 0xFFFF
  | _ => 0xFFFFFFFF

/-- Word w of descriptor n written by the tile (R240). A failed word stays failed: only the host and the image load rewrite it
(R423). -/
def tdPut (s : State) (n w : Nat) (v : W32) : State := setRw s (0x3400 + 0x20 * n + 4 * w) (tdMask w) v

/-- A host write of word w of descriptor n: a failed parity goes with the old contents (R240, R423). -/
def tdHost (s : State) (n w : Nat) (v : W32) : State :=
  let s := hostReg s (0x3400 + 0x20 * n + 4 * w) (v &&& tdMask w)
  { s with seq := { s.seq with badTd := s.seq.badTd.filter (· != 8 * n + w) } }

/-- TDSET. -/
def tdsetItem (s : State) : State :=
  let w := pramWord s s.seq.pc
  seqTo (tdPut s (fieldN w 20 6) (fieldN w 17 3) (pramWord s (s.seq.pc + 1))) (s.seq.pc + 2)

/-- TDADD: the sequencer reads TD_OFFSET, and a word that fails its parity halts it (R423). -/
def tdaddItem (s : State) : State :=
  let w := pramWord s s.seq.pc
  let n := fieldN w 20 6
  let s := if s.seq.badTd.contains (8 * n + 7) then ramParity s 1 else s
  seqTo (tdPut s n 7 (reg s (0x341C + 0x20 * n) + pramWord s (s.seq.pc + 1))) (s.seq.pc + 2)

-- The end of benches and of a program (R220, R236).

/-- Whoever waits for a STOP is answered. -/
def answerStop (s : State) : State :=
  let l := s.seq.stopCli
  eachS l (fun c s => complete s c 0 0) { s with seq := { s.seq with stopCli := [] } }

/-- Whoever waits for a HALT is answered. -/
def answerHalt (s : State) : State :=
  let l := s.seq.haltCli
  eachS l (fun c s => complete s c 0 0) { s with seq := { s.seq with haltCli := [] } }

/-- The program is over: IDLE, DONE and BENCH_DONE (R236). -/
def seqDone (s : State) : State :=
  let s := raise (orReg s 0x3004 0x10000000) 0x01 0
  answerHalt (answerStop { s with seq := { s.seq with st := 0, replay := none, matchSkips := [] } })

/-- A program that has reached its END and whose records have all finished. -/
def drainCheck (s : State) : State := if s.seq.st = 3 && s.seq.benches.isEmpty then seqDone s else s

/-- END: DRAINING (R236, R461). -/
def endItem (s : State) : State :=
  if !s.seq.frames.isEmpty || !s.seq.recs.isEmpty then itemHalt s
  else drainCheck { s with seq := { s.seq with st := 3, cur := none, pc := s.seq.pc + 1 } }

/-- The rows that a bench read of its RELMODE 1 rings are released (R142, R258). -/
def benchRelease (s : State) (b : Bench) : State :=
  eachS b.rings (fun e s =>
    let r := ringOf s e.1
    let d := sub32 (e.2 - 1) r.rel
    if r.en && r.relmode = 1 && d < 2147483648 then releaseRows s e.1 d else s) s

/-- A bench whose records have all finished (R220). -/
def benchEnd (s : State) (b : Bench) : State :=
  let s := benchRelease s b
  let s := eachS b.disp (fun k s => benchChunkEnd s b.uid k) s
  { s with seq := { s.seq with benches := s.seq.benches.filter (·.uid != b.uid) } }

-- The start of a bench (R218 to R222, R235).

/-- The slot in which the staged bench starts. -/
def benchDue (s : State) : Option Nat :=
  match s.seq.staged with
  | none => none
  | some _ =>
    if s.seq.st ≠ 2 || s.seq.haltReq.isSome then none
    else some (max (s.seq.stagedAt + 1) (if s.seq.started then s.seq.lastStart + s.seq.lastLen else 0))

/-- Records in progress (R221). -/
def recsInProgress (s : State) : Nat :=
  s.seq.benches.foldl (fun a b => a + (b.recs.filter fun r => !r.fin).length) 0

/-- Whether the staged bench's records fit (R221). A rejected bench waits for the slot in which it would have started as well (R232); one
of more than 64 records starts nothing beside others. -/
def benchFits (s : State) : Bool :=
  match s.seq.staged with
  | some b => decide (recsInProgress s + min 64 b.recs.length ≤ 64)
  | none => false

/-- The staged bench starts in the present slot: pending changes take effect first, then its settings. -/
def benchGo (s : State) (b : Bench) : State :=
  let x := s.clk.slot
  let late := s.seq.started && decide (s.seq.lastStart + s.seq.lastLen < x)
  let s := boundary s
  let skips := (s.seq.matchSkips.head?).getD []
  let b := { b with uid := s.seq.nextUid, start := x, bep := s.seq.bep, modeRnd := s.mode.rnd, skips := skips, commits := skips }
  let s := if b.reseed then reseed s b.seed else s
  let s := if late then incReg s 0x301C 0 32 else s
  let s := incReg s 0x300C 0 32
  { s with seq := { s.seq with
      staged := none, started := true, lastStart := x, lastLen := b.len, lastBep := b.bep, bep := (s.seq.bep + 1) % 16
      nextUid := s.seq.nextUid + 1, nextRead := x, matchSkips := s.seq.matchSkips.drop 1
      benches := if b.recs.isEmpty then s.seq.benches else s.seq.benches ++ [b] } }

-- Halting (R26, R112, R113, R143, R232, R233).

/-- Whether slot x lies in the commit window that ends with slot c (R113). -/
def inWindow (x c : Nat) : Bool := c == x || c == x + 1

/-- The commit slot of a scan chunk whose rows have all been read. -/
def chunkCommit (s : State) (c : ScanChunk) : Option Nat :=
  match recOf s c.uid c.pos with
  | some (_, r) => if c.steps.length = sLen r then some (scanCommitDue r c) else none
  | none => none

/-- The commit slot of the step of seam k in whose commit window the present slot lies (R113). -/
def seamWindow (s : State) (k : Nat) : Option Nat :=
  let gate := s.gate.steps.filterMap fun t => if t.seam = k then some (t.g + 25) else none
  let scan := s.scan.chunks.filterMap fun c => if c.seam = k then chunkCommit s c else none
  let vec := s.vec.commits.filterMap fun c => if c.seam = k then some c.due else none
  (gate ++ scan ++ vec).find? (inWindow s.clk.slot)

/-- The chunk of seam k in flight becomes spoil (R26, R113, R119). -/
def closeSpoil (s : State) (k : Nat) : State :=
  let s := eachS (s.gate.steps.filter (·.seam == k)) (fun t s => gateSpoil s t.uid t.pos t.k t.seam) s
  let s := eachS (s.scan.chunks.filter (·.seam == k)) (fun t s => scanSpoil s t.uid t.pos t.k t.seam) s
  let s := { s with
    vec := { s.vec with commits := s.vec.commits.filter (·.seam != k), vsts := s.vec.vsts.filter fun v => !v.seams.contains k }
    acc := { s.acc with wq := s.acc.wq.filter fun w => w.kind != .seam k } }
  eachS s.seq.benches (fun b s => updBench s b.uid fun b =>
    if b.disp.contains k then { b with disp := b.disp.filter (· != k), held := b.held ++ [k] } else b) s

/-- SEAM_CLOSE takes effect: what waits for a boundary completes with BUSY; a transfer in progress runs to its last response first. -/
def closeNow (s : State) (k : Nat) (c : Cli) : State :=
  let s := closeSpoil s k
  let s := match (seam s k).pend with
    | some p => complete (updSeam s k fun m => { m with pend := none }) p.cli 1 0
    | none => s
  if s.acc.xfers.any fun x => x.seam == k && x.started then
    updSeam s k fun m => { m with closing := true, closePend := some c }
  else
    let rows := holdsRows (seam s k) || s.acc.xfers.any (·.seam == k)
    let s := { s with acc := { s.acc with xfers := s.acc.xfers.filter (·.seam != k) } }
    let s := if rows then passRows (updSeam s k fun m => { m with st := 1 }) k else s
    complete (seamUnbind s k) c 0 0

/-- The CLOSEs that waited for a commit window to pass (R113). -/
def closesDue (s : State) : State :=
  eachS (s.seams.filter fun e => !e.2.closing && decide (e.2.closeAt ≤ s.clk.slot)) (fun e s =>
    match e.2.closePend with
    | some c => closeNow s e.1 c
    | none => s) s

/-- A VCOMMIT completed at a halt: the step's writes that are due by its commit slot are made, and its rows go to the writer (R181,
R232). -/
def vHaltCommit (s : State) (c : VCommit) : State :=
  let mine (w : AccWrite) : Bool := w.kind == .seam c.seam && w.uid == c.uid && decide (w.due ≤ c.due)
  let s := eachS (s.sfu.reqs.filter fun q => decide (q.due ≤ c.due) &&
      match recOf s q.uid q.pos with
      | some (_, r) => sfuToSeam c.uid r c.seam q
      | none => false) (fun q s => sfuDeliver { s with sfu := { s.sfu with reqs := s.sfu.reqs.erase q } } q) s
  let s := eachS (((s.acc.wq.filter mine).foldl wrtInsert []).foldl ordInsert []) (fun w s => applyWrite s w) s
  let s := { s with vec := { s.vec with vsts := s.vec.vsts.filter fun v => !v.seams.isEmpty } }
  vstDrain 256 (vCommitDo s c)

/-- The commits of steps whose commit window contains slot x (R113, R232). -/
def haltCommits (s : State) (x : Nat) : State :=
  let near (c : Nat) : Bool := inWindow x c
  let s := eachS (s.gate.steps.filter fun t => near (t.g + 25)) (fun t s =>
    match recOf s t.uid t.pos with
    | some (b, r) => gateCommitStep (updRec s t.uid t.pos fun r => { r with dead := r.dead ++ [t.k] }) b r t
    | none => s) s
  let s := eachS s.scan.chunks (fun c s =>
    match recOf s c.uid c.pos with
    | some (b, r) => if (chunkCommit s c).any near then
        let u := scanCommitStep s b r c
        eachS (u.acc.wq.drop s.acc.wq.length) (fun w s => applyWrite s w) u
      else s
    | none => s) s
  eachS (s.vec.commits.filter fun c => near c.due) (fun c s => vHaltCommit s c) s

/-- Whether a halt discards a step of the bench: one that became spoil in the halting slot x, one of a seam it dispatched, or one that
a gate or scan record of it has not started yet, whose run-ahead is discarded (R26, R143). -/
def stepLost (x : Nat) (b : Bench) : Bool :=
  b.spoilt == x + 1 || !b.disp.isEmpty || b.recs.any fun r =>
    match r.ty with
    | 4 => !r.fin && decide (r.n < gN r)
    | 5 => !r.fin && decide (r.n < sN r)
    | _ => false

/-- With a step discarded, the computation rows of every halting bench become stale (R143, R232). -/
def haltStale (s : State) (x : Nat) : State :=
  let l := if s.seq.benches.any (stepLost x) then s.seq.benches.flatMap (·.rows) else []
  eachS l (fun r s => setMeta s r { accMeta s r with stale := true }) s

/-- Every operation in flight is discarded (R232). -/
def haltDiscard (s : State) : State :=
  let s := eachS s.gate.steps (fun t s => fbUndo s t.uid t.pos t.k) s
  let s := addReg s 0x4F0C 0 32 s.scan.chunks.length
  let s := eachS s.seq.benches (fun b s => eachS b.disp (fun k s =>
    if (seam s k).owner = b.uid + 1 then chunkEnd (seamSpoil s k) k else s) s) s
  { s with
    arr := { s.arr with waves := [], csums := [], sweeps := [], active := false, ldNext := 0 }
    acc := { s.acc with wq := [] }
    gate := { s.gate with steps := [] }
    scan := { s.scan with chunks := [], setups := [] }
    vec := { s.vec with run := none, res := [], vsts := [], commits := [], ending := [], li := [0, 0] }
    sfu := { s.sfu with reqs := [] } }

/-- BENCH_HALT and its event (R232, R239). -/
def haltLog (s : State) (h : HaltReq) : State :=
  let slot := if h.hasRec then (s.clk.slot - h.start) % 65536 else 0
  let s := if bitB (reg s 0x3010) 31 then s
    else setReg s 0x3010 (BitVec.ofNat 32 (2147483648 + h.cause * 67108864 + h.recPos % 32 * 2097152 + h.bep % 16 * 65536 + slot))
  raise s 0x02 h.cause

/-- The replay point of a halt (R233). -/
def replayOf (s : State) : Entry :=
  match s.seq.benches, s.seq.staged, s.seq.cur with
  | b :: _, _, _ => b.entry
  | [], some b, _ => b.entry
  | [], none, some e => e
  | [], none, none => entryNow s

/-- The sequencer is HALTED, with slot x the last one that was performed (R232, R233). -/
def haltNow (s : State) (x : Nat) (h : HaltReq) : State :=
  let s := haltLog (haltDiscard (haltStale (haltCommits s x) x)) h
  let e := replayOf s
  let skips := s.seq.benches.map (·.commits) ++ s.seq.matchSkips
  let s := restoreEntry s e
  let s := { s with seq := { s.seq with
    st := 5, replay := some e, matchSkips := skips, benches := [], staged := none, cur := none, recs := [], haltReq := none
    started := false, frz := {}, frzNext := {}, waits := [], frozen := false, resume := false, longDone := false } }
  answerHalt (answerStop s)

/-- The halt that STOP waits for (R236): the benches in progress have finished, and no other cause has halted the sequencer first. -/
def stopCheck (s : State) : State :=
  if s.seq.st = 4 && s.seq.benches.isEmpty && s.seq.haltReq.isNone then haltNow s (s.clk.slot - 1) ⟨7, 0, 0, false, 0⟩ else s

/-- The start of the staged bench, or the halt of one that was rejected (R218, R232). -/
def benchStart (s : State) : State :=
  match s.seq.staged with
  | none => s
  | some b =>
    if b.bad then haltNow s (s.clk.slot - 1) ⟨2, b.badRec, s.seq.bep, true, s.clk.slot⟩
    else drainCheck (stopCheck (benchGo s b))

-- The end of a record (R220).

/-- Whether a write, a vector result or a table request of a record is on its way. -/
def recBusy (s : State) (uid pos : Nat) : Bool :=
  s.acc.wq.any (fun w => w.uid == uid && w.pos == pos) || s.vec.res.any (fun v => v.uid == uid && v.pos == pos)
    || s.sfu.reqs.any (fun q => q.uid == uid && q.pos == pos)
    || s.vec.vsts.any (fun v => v.uid == uid && v.pos == pos)

/-- Whether a record has done its last engine action (R220). -/
def recOver (s : State) (b : Bench) (r : Rec) : Bool :=
  let mine (u p : Nat) : Bool := u == b.uid && p == r.pos
  !recBusy s b.uid r.pos &&
    (match r.ty with
     | 1 => r.n == aWaves r && !s.arr.waves.any (fun w => mine w.uid w.pos) && !s.arr.csums.any (fun c => mine c.uid c.pos)
     | 2 => r.n == dRows r && !s.arr.sweeps.any (fun w => mine w.uid w.pos)
     | 3 => r.n == drRows r
     | 4 => r.n == gN r && !s.gate.steps.any (fun t => mine t.uid t.pos)
     | 5 => r.n == sN r && !s.scan.chunks.any (fun c => mine c.uid c.pos)
     | _ => r.n == 1 && !s.vec.run.any (fun v => mine v.uid v.pos) && !s.vec.commits.any (fun c => mine c.uid c.pos)
        && !s.vec.ending.contains (b.uid, r.pos))

/-- A record finishes: with the last one its bench ends, and with it perhaps a drain or a STOP (R220, R236). -/
def recFinish (s : State) (b : Bench) (r : Rec) : State :=
  let s := updRec s b.uid r.pos fun r => { r with fin := true }
  let s := { s with scan := { s.scan with setups := s.scan.setups.filter fun u => !(u.uid == b.uid && u.pos == r.pos) } }
  match benchOf s b.uid with
  | none => s
  | some b => if b.recs.all (·.fin) then stopCheck (drainCheck (benchEnd s b)) else s

-- Commands (R223, R234, R236).

/-- Address of the first word after the program that starts at a: its END at depth 0. `fuel` bounds the items. -/
def progStop (s : State) : Nat → Nat → Nat → Nat
  | 0, a, _ => a
  | n + 1, a, d =>
    match itemWords (itemType (pramWord s a)) with
    | none => a + 1
    | some k =>
      let t := itemType (pramWord s a)
      if t = 0x26 && d = 0 then a + 1
      else progStop s n (a + k) (if t = 0x21 then d + 1 else if t = 0x22 then d - 1 else d)

/-- RUN accepted: CHECKING (R236). -/
def runBegin (s : State) (n : Nat) (c : Cli) : State := { s with seq := { s.seq with st := 1, prog := n, runCli := some c } }

/-- The first word of program n. -/
def progStart (s : State) (n : Nat) : Nat := regF s (0x3080 + 4 * n) 0 14

/-- The check of R223 ends: the program runs, or RUN completes with BAD_ARG. A word that failed its parity in the check halts a program that
passes it as it begins to run, and nothing where the check fails (R423; DESIGN CHOICE, log 132). -/
def runChecked (s : State) : State :=
  let a := progStart s s.seq.prog
  let cli := s.seq.runCli
  let stop := progStop s 16385 a 0
  let failed := (natsFrom a (stop - a)).filter s.seq.badPram.contains
  let s := ramParities s 0 failed
  if checkProg s 16385 a [] false then
    let s := setReg s 0x300C 0
    let s := completeOpt { s with seq := { s.seq with
      st := 2, pc := a, bep := 0, frames := [], idx := [0, 0, 0, 0], recs := [], cur := none, staged := none, started := false
      nextRead := s.clk.slot, replay := none, matchSkips := [], runCli := none } } cli 0
    if failed.isEmpty then s else reqHaltSeq s 4
  else completeOpt (raise { s with seq := { s.seq with st := 0, runCli := none } } 0x03 0) cli 2

/-- HALT (R236). -/
def haltCmd (s : State) (c : Cli) : State :=
  if seqActive s then
    let s := reqHaltSeq s 6
    { s with seq := { s.seq with haltCli := s.seq.haltCli ++ [c] } }
  else complete s c 0 0

/-- STOP (R236). -/
def stopCmd (s : State) (c : Cli) : State :=
  if s.seq.st = 2 then
    stopCheck { s with seq := { s.seq with st := 4, stopCli := s.seq.stopCli ++ [c] } }
  else if s.seq.st = 3 then { s with seq := { s.seq with stopCli := s.seq.stopCli ++ [c] } }
  else complete s c 0 0

/-- RESUME (R234). -/
def resumeCmd (s : State) (c : Cli) : State :=
  complete { s with seq := { s.seq with st := 2, replay := none, nextRead := s.clk.slot, started := false } } c 0 0

/-- ABORT (R236). -/
def abortCmd (s : State) (c : Cli) : State :=
  complete { s with seq := { s.seq with
    st := 0, replay := none, matchSkips := [], frames := [], idx := [0, 0, 0, 0] } } c 0 0

end Sys2Proof.Machine
end

