-- ==== Sys2Proof/Machine/ImageReq.lean ====
section
/-! DEFINITION. The requests by which start-up reads the image (R361, R364). -/
namespace Sys2Proof.Machine

/-- The first byte of the image (R364). -/
def imgBase (s : State) : Nat := s.straps.1 * 4096

/-- Requests for n bytes of the image from offset off, put forward (R290, R364). -/
def imgAsk (s : State) (off n : Nat) : State :=
  eachS (reqsOf (imgBase s + off) n) (fun e s => pushCand s { who := .image, addr := e.1, beats := e.2 }) s

/-- Step 4 of start-up begins: the check pass reads the header. -/
def imgBegin (s : State) : State :=
  imgAsk { s with boot := { s.boot with st := 3, img := [], hdr := [], stage := 1, fail7 := false, loadBad := none } } 0 256

/-- Whether the survey of start-up is over (R361): READY or ALONE. -/
def surveyOver (s : State) : Bool := s.boot.st == 2 && (s.fab.st == 4 || s.fab.st == 5)

/-- Step 3 of start-up gives way to step 4. -/
def surveyStep (s : State) : State := if surveyOver s then imgBegin s else s

/-- The sequencer IDLE, whatever a CMD section has made it begin (R371). -/
def idleSeq (s : State) : State :=
  if s.seq.st = 0 then s
  else
    let s := haltDiscard s
    { s with seq := { s.seq with
      st := 0, benches := [], staged := none, cur := none, recs := [], frames := [], replay := none, matchSkips := []
      haltReq := none, runCli := none, haltCli := [], stopCli := [], started := false
      frz := {}, frzNext := {}, waits := [], frozen := false, resume := false, longDone := false } }

/-- Start-up fails with a cause and a section (R371): what has been written stays as written. -/
def bootFail (s : State) (cause sect : Nat) : State :=
  let s := idleSeq s
  let s := { s with
    boot := { s.boot with st := 7, cause := cause, sect := sect, stage := 0, recipeWait := false, run0 := false }
    vec := { s.vec with
      checking := []
      dir := (s.vec.dir.map fun e =>
        (e.1, { e.2 with valid := false, pend := false, checking := false, retire := false })).filter fun e => e.2 ≠ {} } }
  let s := foldTo 16 (fun n s => setRw s (0x3080 + 4 * n) 0x80000000 0) s
  let s := raise (dropCand s fun w => w == .image) 0x61 cause
  if cause = 6 then raise s 0x62 0 else s

/-- Step 9 once RUN 0 has completed (R361, R369). -/
def bootRunOver (s : State) : State :=
  if s.boot.run0 && s.seq.runCli.isNone then
    if s.boot.refused then bootFail s 10 0 else raise { s with boot := { s.boot with run0 := false } } 0x60 0
  else s

end Sys2Proof.Machine
end

