-- ==== Sys2Proof/Machine/StoreOps.lean ====
section
/-! DEFINITION. The settings store: frames, validity, the newest copies, and the phases of STORE and FETCH (R373 to R381). -/
namespace Sys2Proof.Machine

-- CRC-32C (R365).

/-- One step of the reflected CRC-32C on a bit. -/
def crc32Bit (c : W32) : W32 := if c.getLsbD 0 then (c >>> 1) ^^^ 0x82F63B78#32 else c >>> 1

/-- A byte taken into the CRC. -/
def crc32Byte (c : W32) (b : Nat) : W32 :=
  let x := c ^^^ BitVec.ofNat 32 (b % 256)
  crc32Bit (crc32Bit (crc32Bit (crc32Bit (crc32Bit (crc32Bit (crc32Bit (crc32Bit x)))))))

/-- CRC-32C of bytes: polynomial 0x1EDC6F41 reflected, initial value and final XOR of ones. -/
def crc32c (bs : List Nat) : W32 := (bs.foldl crc32Byte 0xFFFFFFFF#32) ^^^ 0xFFFFFFFF#32

-- Frames (R373).

/-- Byte a of the store; an erased byte reads 0xFF (log 7). -/
def stByte (s : State) (a : Nat) : Nat := mget s.store.data 255 a
/-- Byte a of the store written. -/
def setStByte (s : State) (a v : Nat) : State :=
  { s with store := { s.store with data := mset s.store.data 255 a (v % 256) } }
/-- n bytes of the store from a. -/
def stBytes (s : State) (a n : Nat) : List Nat := (natsFrom a n).map (stByte s)
/-- A little-endian number of n bytes. -/
def leN : List Nat → Nat
  | [] => 0
  | b :: r => b + 256 * leN r
/-- The bytes of a number, lowest first. -/
def leBytes (n v : Nat) : List Nat := (natsTo n).map fun i => v / 256 ^ i % 256
/-- Bytes written to the store from a. -/
def stWrite (s : State) (a : Nat) (bs : List Nat) : State :=
  foldTo bs.length (fun i s => setStByte s (a + i) (lget bs 0 i)) s

/-- First byte of frame f. -/
def frameAt (f : Nat) : Nat := 4160 * f
/-- A field of n bytes at offset o of frame f's header. -/
def fField (s : State) (f o n : Nat) : Nat := leN (stBytes s (frameAt f + o) n)
/-- KEY of frame f. -/
def fKey (s : State) (f : Nat) : Nat := fField s f 0x08 4
/-- LEN of frame f. -/
def fLen (s : State) (f : Nat) : Nat := fField s f 0x0C 4 % 8192
/-- SEQ of frame f. -/
def fSeq (s : State) (f : Nat) : Nat := fField s f 0x10 4
/-- WEAR of frame f; a new part's counts as 0. -/
def fWear (s : State) (f : Nat) : Nat := let w := fField s f 0x14 4; if w = 0xFFFFFFFF then 0 else w
/-- The payload of frame f. -/
def fPayload (s : State) (f : Nat) : List Nat := stBytes s (frameAt f + 64) (fLen s f)
/-- The word of COMMIT that commits a copy. -/
def commitWord : Nat := 0x5A5AC3C30F0F9669
/-- COMMIT of frame f matches. -/
def fCommitted (s : State) (f : Nat) : Bool := fField s f 0 8 == commitWord
/-- The CRC of frame f is that of its KEY to WEAR and payload. -/
def fCrcOk (s : State) (f : Nat) : Bool :=
  decide (fLen s f ≤ 4096) && fField s f 0x18 4 == (crc32c (stBytes s (frameAt f + 8) 16 ++ fPayload s f)).toNat

/-- Frame f is valid (R374). -/
def fValid (s : State) (f : Nat) : Bool := fCommitted s f && fCrcOk s f

/-- The valid frames. -/
def validFrames (s : State) : List Nat := (natsTo (storeFrames s)).filter (fValid s)

/-- The valid frame of a key with the highest SEQ among `l`. -/
def newestOf (s : State) (l : List Nat) (key : Nat) : Option Nat :=
  (l.filter fun f => fKey s f == key).foldl (fun a f =>
    match a with
    | none => some f
    | some g => if fSeq s g < fSeq s f then some f else some g) none

/-- The newest copy of a key. -/
def newest (s : State) (key : Nat) : Option Nat := newestOf s (validFrames s) key

/-- The newest copy of a live key. -/
def liveFrame (s : State) (key : Nat) : Option Nat := (newest s key).filter fun f => decide (0 < fLen s f)

/-- Frame f is the newest copy of a live key, among the valid frames `l`. -/
def isLive (s : State) (l : List Nat) (f : Nat) : Bool :=
  l.contains f && newestOf s l (fKey s f) == some f && decide (0 < fLen s f)

/-- Frame f is free (R374). -/
def fFree (s : State) (l : List Nat) (f : Nat) : Bool :=
  !l.contains f || (l.any fun g => fKey s g == fKey s f && decide (fSeq s f < fSeq s g))
    || (fLen s f == 0 && !l.any fun g => g != f && fKey s g == fKey s f)

/-- The free frames. -/
def freeFrames (s : State) : List Nat :=
  let l := validFrames s
  (natsTo (storeFrames s)).filter (fFree s l)

/-- The free frame with the lowest WEAR, of ties the lowest number, leaving out `not` (R379). -/
def targetFrame (s : State) (no : Option Nat) : Option Nat :=
  ((freeFrames s).filter fun f => some f != no).foldl (fun a f =>
    match a with
    | none => some f
    | some g => if fWear s f < fWear s g then some f else some g) none

/-- The live keys in rising order, with their frames. -/
def liveKeys (s : State) : List (Nat × Nat) :=
  let l := validFrames s
  ((natsTo (storeFrames s)).filter (isLive s l)).foldl (fun a f => put a (fKey s f, f)) []
where
  /-- An entry put in its place. -/
  put (l : List (Nat × Nat)) (e : Nat × Nat) : List (Nat × Nat) :=
    match l with
    | [] => [e]
    | x :: r => if e.1 < x.1 then e :: x :: r else x :: put r e

-- STORE and FETCH (R378 to R380).

/-- The last result of a STORE or FETCH (SET_STATUS.LAST) of a completion status. -/
def lastCode (status : Nat) : Option Nat :=
  match status with
  | 0 => some 1
  | 8 => some 2
  | 9 => some 3
  | 10 => some 4
  | 11 => some 5
  | 2 => some 6
  | 4 => some 7
  | _ => none

/-- A STORE or FETCH completes. -/
def storeDone (s : State) (c : Cli) (status result : Nat) : State :=
  let s := match lastCode status with
    | some k => { s with store := { s.store with last := k } }
    | none => s
  complete s c status result

/-- Whether a STORE or FETCH is in progress; the clean-up of a deletion is none. -/
def storeBusy (s : State) : Bool := match s.store.job with | some j => decide (j.phase < 6) | none => false

/-- COMMIT of a frame zeroed. -/
def zeroCommit (f : Nat) (s : State) : State := stWrite s (frameAt f) [0, 0, 0, 0, 0, 0, 0, 0]

/-- The frames whose COMMIT phase 6 of a job zeroes, in order. -/
def cleanFrames (j : StoreJob) : List Nat := j.prev.toList ++ [j.frame]

/-- A clean-up left unfinished is finished, where the supply lets a store write begin (R379, R380). -/
def finishClean (s : State) : State :=
  let s := match s.store.job with
    | some j =>
      if j.phase = 6 then { s with store := { s.store with job := none, clean := s.store.clean ++ cleanFrames j } } else s
    | none => s
  if s.sup.st = 0 then eachS s.store.clean zeroCommit { s with store := { s.store with clean := [] } } else s

/-- A payload read from the scratchpad with its checks verified (R378, R420). -/
def storeRead (off : Nat) : Nat → State → Option (List Nat) × State
  | 0, s => (some [], s)
  | n + 1, s =>
    let r := dmaRead s (off / 32)
    if secGood r.1 then
      let x := storeRead (off + 32) n r.2
      (x.1.map fun l => (sectorBytes r.1.data).map BitVec.toNat ++ l, x.2)
    else (none, checkFail r.2 r.1.poison r.1.uninit 5)

/-- The highest SEQ in the store. -/
def topSeq (s : State) : Nat := (validFrames s).foldl (fun a f => max a (fSeq s f)) 0

/-- The header's bytes 0x08 to 0x3F that a STORE writes (R379). -/
def headBytes (s : State) (j : StoreJob) : List Nat :=
  let b := leBytes 4 j.key.toNat ++ leBytes 4 j.len ++ leBytes 4 ((topSeq s + 1) % m32) ++ leBytes 4 (fWear s j.frame + 1)
  b ++ leBytes 4 (crc32c (b ++ j.payload)).toNat ++ List.replicate 36 0

/-- The words that a writing phase of a job writes: address and bytes. -/
def phaseWrites (s : State) (j : StoreJob) : List (Nat × List Nat) :=
  let a := frameAt j.frame
  let words (o : Nat) (bs : List Nat) (n : Nat) : List (Nat × List Nat) :=
    (natsTo n).map fun i => (o + 8 * i, (bs.drop (8 * i)).take 8)
  match j.phase with
  | 1 => [(a, [0, 0, 0, 0, 0, 0, 0, 0])]
  | 2 => words (a + 64) j.payload ((j.len + 7) / 8)
  | 3 => words (a + 8) (headBytes s j) 7
  | 5 => [(a, leBytes 8 commitWord)]
  | 6 => (cleanFrames j).map fun f => (frameAt f, [0, 0, 0, 0, 0, 0, 0, 0])
  | _ => []

/-- SCLK cycles of a phase: 20 for each write, 1 for each read (R373, R379); of a FETCH, its reads. -/
def phaseLen (s : State) (j : StoreJob) : Nat :=
  if j.fetch then (j.len + 7) / 8
  else if j.phase = 4 then 7 + (j.len + 7) / 8
  else 20 * (phaseWrites s j).length

/-- The first n words of a phase written. The second word of phase 3 holds WEAR: the write that takes it above 100,000 is reported
(R381). -/
def writePhase (s : State) (j : StoreJob) (n : Nat) : State :=
  let worn := j.phase == 3 && decide (2 ≤ n) && fWear s j.frame == 100000
  let s := eachS ((phaseWrites s j).take n) (fun e s => stWrite s e.1 e.2) s
  if worn then raise s 0x65 j.frame else s

/-- A job goes on in another phase. -/
def toPhase (s : State) (j : StoreJob) (p : Nat) : State :=
  { s with store := { s.store with job := some { j with phase := p, t0 := sclkOf s } } }

/-- The words of its phase that a job has written when the word write in progress ends. -/
def wordsBegun (s : State) (j : StoreJob) : Nat := min ((sclkOf s - j.t0) / 20 + 1) (phaseWrites s j).length

/-- The end of an abandoned STORE, with n words of its phase written. -/
def storeQuit (s : State) (j : StoreJob) (n : Nat) : State :=
  let s := writePhase s j n
  storeDone { s with store := { s.store with job := none } } j.cli 8 0

/-- A STORE abandoned in phases 1 to 4: it ends with the word write in progress, at once if there is none (R380). -/
def storeAbandon (s : State) : State :=
  match s.store.job with
  | some j =>
    let n := wordsBegun s j
    if j.fetch || 5 ≤ j.phase || j.stop.isSome then s
    else if n = 0 then storeQuit s j 0
    else { s with store := { s.store with job := some { j with stop := some n } } }
  | none => s

/-- An SCLK cycle of an abandoned STORE: it ends once its word is written, 20 SCLK cycles for each (R373, R380). -/
def storeTick (s : State) : State :=
  match s.store.job with
  | some j =>
    match j.stop with
    | some n => if j.t0 + 20 * n ≤ sclkOf s then storeQuit s j n else s
    | none => s
  | none => s

/-- The end of phase 5: the copy stands (R379). -/
def storeCommit (s : State) (j : StoreJob) : State :=
  let s := { s with store := { s.store with job := none }, rst := { s.rst with after := sclkOf s } }
  let s := storeDone (raise s 0x64 0) j.cli 0 0
  if j.len = 0 then toPhase s j 6 else s

/-- A phase of a STORE ends (R379). -/
def storePhase (s : State) (j : StoreJob) : State :=
  let s := writePhase s j (phaseWrites s j).length
  match j.phase with
  | 4 =>
    if fCrcOk s j.frame then toPhase s j 5
    else if j.tries = 0 then
      match targetFrame s (some j.frame) with
      | some f => toPhase s { j with frame := f, tries := 1 } 1
      | none => storeDone { s with store := { s.store with job := none } } j.cli 9 0
    else storeDone { s with store := { s.store with job := none } } j.cli 9 0
  | 5 => storeCommit s j
  | 6 => { s with store := { s.store with job := none } }
  | p => toPhase s j (p + 1)

/-- Whether the present phase may end: below WARN no store write begins but phase 5's once begun (R399), and an abandoned STORE has no
further phase (R380). -/
def phaseMay (s : State) (j : StoreJob) : Bool := !j.fetch && j.stop.isNone && (s.sup.st == 0 || j.phase == 5)

/-- A FETCH ends: its payload, zero-filled to whole sectors, is written with fresh checks (R378). -/
def fetchEnd (s : State) (j : StoreJob) : State :=
  let n := (j.len + 31) / 32
  let s := dmaFreshBytes s (j.off / 32) n (j.payload.map (BitVec.ofNat 8))
  storeDone { s with store := { s.store with job := none } } j.cli 0 j.len

end Sys2Proof.Machine
end

