-- ==== Sys2Proof/Machine/Present.lean ====
section
/-! DEFINITION. The memory port's requests: which one it presents, with its data verified at egress (R278, R288, R292, R420, R438). -/
namespace Sys2Proof.Machine

/-- Whether ACLK and MCLK have been started: in step 2 of start-up, 100 SCLK cycles after the supply holds (R361, R362). -/
def clocksOn (s : State) : Bool :=
  (decide (2 ≤ s.boot.st) || (s.boot.st == 1 && s.sup.firstOk && decide (s.boot.t0 + 100 ≤ sclkOf s))) && !s.boot.fuseFail

/-- A row in flight of a channel changed. -/
def updRow (s : State) (c id : Nat) (f : RowFl → RowFl) : State :=
  updChan s c fun h => { h with rows := h.rows.map fun x => if x.id = id then f x else x }

/-- The scratchpad sector that holds byte offset `o` of a row in flight of an egress kibble. -/
def egressSec (s : State) (k : Kibble) (rw : RowFl) (o : Nat) : Nat :=
  let a := if k.op = 1 then rowPlace s k.ring rw.q else k.spad + rw.r * k.size
  (a + o) % spadBytes s / 32

/-- The sectors of a request of an egress row read and verified (R288): their data by place in the request, their enables,
and how many failed. -/
def egressRead (s : State) (k : Kibble) (rw : RowFl) (r : MReq) : (SMap (BitVec 256) × Nat × Nat) × State :=
  (natsTo (2 * r.beats)).foldl (fun x i =>
    let o := (r.addr + 32 * i + m48 - rw.ext % m48) % m48
    if o < k.size then
      let d := dmaRead x.2 (egressSec x.2 k rw o)
      ((mset x.1.1 0 i d.1.data, x.1.2.1 + 2 ^ i, x.1.2.2 + b2n (!secGood d.1)), d.2)
    else x) (([], 0, 0), s)

/-- An egress row of which `n` sectors failed their check (R288, R420): the channel halts with CAUSE CHECK at that row. -/
def egressBad (s : State) (c id n : Nat) : State :=
  let s := foldTo n (fun _ s => egressFail s c 0) (updRow s c id fun rw => { rw with outN := rw.outN - 1, failed := true })
  let h := chan s c
  chanSettle (if h.aborting || (h.stopTo.any fun t => t.cause != 1 || t.st == 4) then s else chanStopTo s c ⟨5, 6, 0, 0⟩) c

/-- The bytes of a request's lines from its sectors. -/
def egressLines (m : SMap (BitVec 256)) (beats : Nat) : List (BitVec 512) :=
  (natsTo beats).map fun i => lineOf (mget m 0 (2 * i)) (mget m 0 (2 * i + 1))

/-- Whether a request of channel c must let another of the channel go first: the read of kibble k + 1 follows the first data request of
kibble k, and precedes the others (R278). -/
def kibOrder (s : State) (c : Nat) (r : MReq) : Bool :=
  let l := s.memp.cand ++ s.memp.ready
  match r.who with
  | .chanKib _ => l.any fun x => whoIsChan c x.who && x.lead
  | _ => !r.lead && l.any fun x =>
      (x.lead && whoIsChan c x.who && x.kid == r.kid) || (x.who == .chanKib c && (chan s c).kibs.getLast?.any (·.kid == r.kid))

/-- Whether a ready request may be presented: it is below its limits (R291), its channel's order allows it, and what it reads in the scratchpad
may be read (R410). -/
def mayPresent (s : State) (r : MReq) : Bool :=
  reqRoom s r &&
    match r.who with
    | .chanKib c => !kibOrder s c r
    | .chanRow c _ => !kibOrder s c r && !(r.write && unitHeld s 7)
    | _ => true

/-- The port presents a request, with the lowest free slot of its kind, until it is accepted (R438). -/
def holdReq (s : State) (r : MReq) : State :=
  { s with memp := { s.memp with req := (freeSlot s r.write).map fun k => (k, r) } }

/-- The write of an egress row: its sectors are read and verified at egress. -/
def holdEgress (s : State) (c id : Nat) (r : MReq) : State :=
  let h := chan s c
  match h.rows.find? (·.id == id) with
  | none => s
  | some rw =>
    match h.kibs.find? (·.kid == rw.kid) with
    | none => s
    | some k =>
      let x := egressRead s k rw r
      if x.1.2.2 ≠ 0 then egressBad x.2 c id x.1.2.2
      else holdReq x.2 { r with data := egressLines x.1.1 r.beats, sec := x.1.2.1 }

/-- A write of the writer or of an eviction is verified at egress: one with a sector that fails is not issued; a MEM write's data is discarded,
and an eviction fails (R118, R420). -/
def holdChecked (s : State) (r : MReq) (unit what : Nat) (lost : State → State) : State :=
  match badSectors r.data r.checks r.sec.testBit with
  | 0 => holdReq s r
  | n => lost (foldTo n (fun _ s => egressFail s unit what) s)

/-- A request that is ready leaves the others for the port. -/
def presentReq (s : State) (r : MReq) : State :=
  let s := { s with memp := { s.memp with ready := s.memp.ready.erase r } }
  match r.who with
  | .chanRow c id => if r.write then holdEgress s c id r else holdReq s r
  | .writer _ => holdChecked s r 0 1 id
  | .seam k => if r.write then holdChecked s r k 2 fun s => xferPart s k r.beats false else holdReq s r
  | _ => holdReq s r

/-- Whether the port presents requests: its clock, no reset, no wait for REOPEN. -/
def portRuns (s : State) : Bool := clocksOn s && s.clk.st == 0 && !accessHeld s && !unitHeld s 8 && !s.memp.closed

/-- Each MCLK cycle in which the port holds no request: it presents the one that became ready first (R292, R438); one that fails at egress gives
way to the next. `fuel` bounds those. -/
def presentTick (fuel : Nat) (s : State) : State :=
  match fuel with
  | 0 => s
  | f + 1 =>
    if !portRuns s || s.memp.req.isSome then s
    else
      match s.memp.ready.find? (mayPresent s) with
      | some r => presentTick f (presentReq s r)
      | none => s

end Sys2Proof.Machine
end

