-- ==== Sys2Proof/Machine/Tick.lean ====
section
/-! DEFINITION. The passing of time: what happens at the end of a slot, at the edges of the clocks, and in a frozen cycle
(R213 to R216, R383 to R386). Time passes in ticks of one nominal ACLK period (log 2). -/
namespace Sys2Proof.Machine

-- The end of a slot.

/-- A write that lost its port or its row (R97, R458): its record slips, and what the lost write belonged to goes with it. A scan chunk whose
last write is lost in its commit slot stays committed (R113). -/
def lostWrite (w : AccWrite) (s : State) : State :=
  match recOf s w.uid w.pos with
  | none => s
  | some (b, r) =>
    if r.ty = 5 then
      if (chunkOf s w.uid w.pos w.k).isSome then scanLost s w.uid w.pos w.k else slip s b r 4 0 0
    else
      let s := slip s b r 4 0 0
      if r.ty ≠ 4 then s
      else
        match w.kind with
        | .seam k => eachS (s.gate.steps.filter fun t => t.uid == w.uid && t.pos == w.pos && t.seam == k)
            (fun t s => gateSpoil s t.uid t.pos t.k t.seam) s
        | _ => eachS (s.gate.steps.filter fun t => t.uid == w.uid && t.pos == w.pos) (fun t s => updStep s t fun t => { t with audit := false }) s

/-- What the engines do by the end of the present slot, in the order that later writes see. -/
def slotEnd (s : State) : State :=
  let x := s.clk.slot
  let s := vecFlush 256 s
  let s := stageSlots s x
  let s := derrickSlot (waveMeets (wavesGroups s))
  let p := accSlotEnd s
  let s := vecSlotEnd (eachS p.1 lostWrite p.2)
  if (x - s.clk.zero) % 2 = 1 then pairEnd s else s

/-- Whether a freeze has a cause that waits for something. -/
def frzWaits (f : Frz) : Bool := f.link || f.feed || f.drain

/-- Whether a freeze has any cause. -/
def frzAny (f : Frz) : Bool := frzWaits f || decide (0 < f.ecc + f.bank + f.derrick)

/-- The fixed causes of a freeze less the cycles that a freeze of the same slot has already lasted: causes overlap. -/
def frzLess (f : Frz) (n : Nat) : Frz := { f with ecc := f.ecc - n, bank := f.bank - n, derrick := f.derrick - n }

/-- The tile freezes (R214). `mid` tells that the events of the present slot wait for the freeze and are brought again, `more` that
the freeze of this slot goes on: its length counts on, and FREEZE_LONG comes once (R215, R216). -/
def frzEnter (s : State) (f : Frz) (mid more : Bool) : State :=
  { s with seq := { s.seq with
    frozen := true, frz := f, frzNext := {}, frzLen := if more then s.seq.frzLen else 0, resume := mid
    longDone := more && s.seq.longDone } }

/-- The fixed causes that the present slot will have when it ends, as far as they are known while a freeze holds it: they overlap with
what it waits for (R80, R215). -/
def frzAhead (s : State) (n : Nat) : Frz :=
  let f := s.seq.frzNext
  let g := frzLess (slotEnd { s with seq := { s.seq with haltReq := none } }).seq.frzNext n
  { f with bank := max f.bank g.bank, derrick := max f.derrick g.derrick }

/-- The slot count advances, and what the activity monitor counts of the slot (R213, R391, R433). -/
def slotNext (s : State) : State :=
  let busy := s.arr.waves.any fun w => w.entry == s.clk.slot && w.acts.any (·.isSome)
  { s with
    clk := { s.clk with slot := s.clk.slot + 1, winSlots := s.clk.winSlots + 1, winBusy := s.clk.winBusy + b2n busy }
    perf := { s.perf with slots := satAdd top48 s.perf.slots 1 } }

/-- The slot ends: a freeze that its events ask for holds it; else its end is performed, the slot count advances, and a halt
decided in it or a freeze takes place (R214, R232). -/
def slotAdvance (s : State) : State :=
  let more := s.seq.resume
  let n := if more then s.seq.frzLen else 0
  if frzWaits s.seq.frzNext && s.seq.haltReq.isNone then frzEnter s (frzAhead s n) true more
  else
    let x := s.clk.slot
    let s := closesDue (slotNext (slotEnd { s with seq := { s.seq with resume := false } }))
    match s.seq.haltReq with
    | some h => haltNow s x h
    | none =>
      let f := frzLess s.seq.frzNext n
      if frzAny f then frzEnter s f false more
      else { s with seq := { s.seq with frzNext := {}, waits := [] } }

-- Frozen cycles.

/-- Whether a wait is for data of a link (LINK) rather than of a feeder or for space. -/
def waitKind (s : State) (w : Wait) : Nat :=
  match w with
  | .half n _ => if (ringOf s n).landing then 0 else 1
  | .space _ => 2
  | .remote _ => 0

/-- Whether a waiting cause (0 LINK, 1 FEED, 2 DRAIN) still holds. -/
def causeHolds (s : State) (k : Nat) : Bool := s.seq.waits.any fun w => waitKind s w == k && !waitOver s w

/-- The first cause that holds in a frozen cycle, in the order of R215. -/
def frzCause (s : State) : Option Nat :=
  (natsTo 6).find? fun k =>
    match k with
    | 3 => decide (0 < s.seq.frz.ecc)
    | 4 => decide (0 < s.seq.frz.bank)
    | 5 => decide (0 < s.seq.frz.derrick)
    | k => causeHolds s k

/-- Whether every cause of the freeze is over. -/
def frzOver (s : State) : Bool := s.seq.frozen && (frzCause s).isNone

/-- A frozen ACLK cycle: counted under its first cause, and against the fixed ones; with no cause left the freeze lasts no longer (R214,
R215). -/
def frozenCycle (s : State) : State :=
  match frzCause s with
  | some k =>
    let s := perfFrz s k
    { s with seq := { s.seq with frz := frzLess s.seq.frz 1, frzLen := satAdd 0x3FFFFFFFF s.seq.frzLen 1 } }
  | none => s

/-- The freeze ends (R215): a slot held in mid-course goes on; else the rows that wait for the writer follow, and one that must wait
for another half keeps it (R257). -/
def frzEnd (s : State) : State :=
  let s := { s with seq := { s.seq with frozen := false, frz := {}, frzNext := {}, waits := [] } }
  if s.seq.resume then s
  else
    let s := vstDrain 256 s
    if frzAny s.seq.frzNext then frzEnter s s.seq.frzNext false true else s

/-- A mutual wait is watched for (R303): a FEED freeze, a channel in WAIT for pool pages, and no page returned. -/
def mutualWait (s : State) : State :=
  let free := (freePages s).length
  let waits := s.chans.any fun e => e.2.st == 2 && (match kibToIssue e.2 with
    | some i => let r := ringOf s (lget e.2.kibs {} i).ring; r.pooled && spaceToBegin r && !mayBegin s (lget e.2.kibs {} i).ring
    | none => false)
  let on := regF s 0x01C0 0 1 == 1 && s.seq.frozen && causeHolds s 1 && waits && decide (free ≤ s.memp.mwaitFree)
  { s with memp := { s.memp with mwait := if on then satAdd 4096 s.memp.mwait 1 else 0, mwaitFree := free } }

-- Clocks.

/-- Why the next ACLK cycle is stretched (R386): 0 it is not, 1 THROTTLE, 2 CAP (every ninth cycle), 3 DROOP. -/
def nextCause (s : State) : Nat :=
  if s.sup.throttled && regF s 0x0380 0 1 = 1 then 1
  else if s.clk.cap && s.clk.capPhase = 8 then 2
  else if s.clk.droop ≠ 0 then 3
  else 0

/-- An ACLK cycle ends: a slot, or a frozen cycle, in which a halt takes effect at once (R213, R232). -/
def aclkEnd (s : State) : State :=
  let s := if s.seq.frozen then
      match s.seq.haltReq with
      | some h =>
        if s.seq.resume then slotAdvance { s with seq := { s.seq with frozen := false, frzNext := {} } }
        else haltNow s (s.clk.slot - 1) h
      | none => frozenCycle s
    else slotAdvance s
  let s := mutualWait s
  { s with clk := { s.clk with
    half := false
    capPhase := if s.clk.cap then (if s.clk.capPhase = 8 then 0 else s.clk.capPhase + 1) else 0 } }

/-- A nominal ACLK period: the first half of a stretched cycle, which is counted once under its first cause, or the end of
a cycle (R385, R386). In GATED and WAKING ACLK stands still (R389). -/
def aclkTick (s : State) : State :=
  if !clocksOn s || s.clk.st ≠ 0 then s
  else if s.clk.cause ≠ 0 && !s.clk.half then
    let off := if s.clk.cause = 1 then 0x0310 else if s.clk.cause = 2 then 0x030C else 0x0308
    incReg { s with clk := { s.clk with half := true } } off 0 32
  else aclkEnd s

/-- An MCLK cycle: requests are formed and become ready, the port presents one and sends a write beat, seam transfers start, links drive their flits; in GATED and WAKING
only the links go on (R389). -/
def mclkTick (s : State) : State :=
  let s := if s.clk.st ≠ 0 then s
    else
      let s := chansTick (surveyStep (stallsTick (beatTick s)))
      let s := readyTick (xferStart (deferTick s))
      let s := presentTick (s.memp.ready.length + 1) s
      let s := selfTick s
      let s := if s.mode.committed && applyNow s then modeApply s else s
      vc2Drain (releaseAll s)
  foldTo 6 portTick (redDue 1 (redDue 0 (answersDue (topoTick s))))

/-- The next ACLK cycle is stretched or not (R386): decided as it begins, whatever stopped ACLK before it. -/
def aclkNext (s : State) : State := if s.clk.half then s else { s with clk := { s.clk with cause := nextCause s } }

/-- The conditions of R389 for GATED. -/
def gateIdle (s : State) : Bool :=
  regF s 0x0300 0 1 == 1 && seqStopped s && s.chans.all (fun e => e.2.st == 0 || e.2.st == 4 || e.2.st == 5)
    && s.acc.xfers.isEmpty && s.store.job.isNone && s.clk.dump.isNone && s.red.all (fun g => g.st != 1)
    && s.memp.out.isEmpty && s.memp.req.isNone && s.memp.beats.isEmpty && s.memp.beat.isNone && s.mb.st.all (· == 0)

/-- RST_CAUSE written. -/
def setCause (s : State) (lvl src unit : Nat) : State :=
  setReg s 0x0200 (BitVec.ofNat 32 (lvl * 512 + src * 64 + (if lvl = 3 then unit else 0)))

/-- The slot-timed units (R410). -/
def slotTimed (u : Nat) : Bool := decide (u < 7)

/-- IDLE_REQ is raised in the SCLK cycle after a single-unit reset was accepted (R410): the sequencer is halted where the unit is
slot-timed, and what a LINK freeze then waits for is noted. -/
def unitReq (s : State) : State :=
  match s.rst.unit with
  | some u =>
    if u.phase = 0 && u.since ≤ sclkOf s then
      let l := if slotTimed u.unit && s.seq.frozen then s.seq.waits.filter fun w => waitKind s w == 0 else []
      let s := setCause { s with rst := { s.rst with unit := some { u with phase := 1, waits := l } } } 3 u.src u.unit
      if slotTimed u.unit then reqHaltSeq s 6 else s
    else s
  | none => s

/-- Whether a link port has whole packets still to send. -/
def portEmpty (p : LinkPort) : Bool := p.outVc0.isEmpty && p.outVc1.isEmpty && p.outVc2.isEmpty

/-- Whether the unit under reset has nothing outstanding outside itself (R410). -/
def unitIdle (s : State) (u : UnitRst) : Bool :=
  if slotTimed u.unit then
    s.seq.haltReq.isNone && !seqActive s && (u.unit != 1 || !s.acc.xfers.any (·.started)) && u.waits.all (waitOver s)
  else if u.unit = 7 then s.spad.arb.dma.isEmpty && s.spad.hits.isEmpty
  else if u.unit = 8 then s.memp.out.isEmpty && s.memp.req.isNone && s.memp.beats.isEmpty
  else if u.unit = 9 then s.fab.ports.all fun p => p.outVc0.isEmpty && p.outVc1.isEmpty
  else if u.unit = 16 then s.fab.ports.all (fun p => p.outVc2.isEmpty) && s.red.all fun g => g.leaving.isEmpty
  else portEmpty (portOf s (u.unit - 10))

/-- A unit that IDLE_REQ asks raises IDLE_ACK once it is idle (R410). -/
def unitAck (s : State) : State :=
  match s.rst.unit with
  | some u =>
    if u.phase = 1 && u.ack.isNone && unitIdle s u then
      { s with rst := { s.rst with unit := some { u with ack := some (sclkOf s) } } }
    else s
  | none => s

/-- A STORE in phase 5 defers a reset (R380, R408). -/
def resetDeferred (s : State) : Bool := match s.store.job with | some j => !j.fetch && j.phase == 5 | none => false

/-- Every port DOWN, with LINK_RESET sent on the UP ones if the reset announces itself (R333). -/
def portsDown (announce : Bool) (s : State) : State :=
  { s with fab := { ports := (natsTo 6).map fun n =>
      let st := if hasLink s n then 1 else 0
      if announce && (portOf s n).st == 3 then { st := st, tx := .ctl { ctype := 7 } } else { st := st } } }

/-- The link ports of an L0 reset that announces itself go DOWN in the SCLK cycle before it is asserted (R333, R408). -/
def linksDue (s : State) : State :=
  match s.rst.req with
  | some (0, src) =>
    if src = 0 || src = 4 || s.rst.linksDown || resetDeferred s || sclkOf s ≤ max s.rst.t s.rst.after then s
    else portsDown true { s with rst := { s.rst with linksDown := true } }
  | _ => s

/-- While MCLK does not run every port drives what it drives at rest (R412). -/
def linksRest (s : State) : State :=
  { s with fab := { s.fab with ports := (natsTo s.fab.ports.length).map fun n => { portOf s n with tx := restTx s n, txCr := 0 } } }

/-- An SCLK cycle: EVT_TIME, the boot time, the watchdog, the guard's throttling, and the counts of the clock unit (R382, R389, R391,
R396, R400, R413, R432). -/
def sclkTick (s : State) : State :=
  let run := s.rst.act.isNone
  let dog := regF s 0x0218 0 1 == 1 && s.clk.st == 0 && decide (6 ≤ s.boot.st) && !s.rst.wdogStop
  let trim := sclkOf s - s.boot.t0 - 100
  let trimmed := s.boot.st == 1 && s.sup.firstOk && decide (0 < trim) && trim % 800 == 0
  { s with
    ev := { s.ev with time := if s.rst.act.map (·.1) == some 0 then s.ev.time else s.ev.time + 1 }
    boot := { s.boot with time := if run && decide (s.boot.st < 6) then satAdd 0xFFFFFFFF s.boot.time 1 else s.boot.time }
    rst := { s.rst with wdog := if dog then s.rst.wdog + 1 else s.rst.wdog }
    sup := { s.sup with throttled := s.sup.st != 0 }
    clk := { s.clk with
      lightSv := if trimmed then s.clk.lightSv ++ [s.sup.level] else s.clk.lightSv
      idleSclk := if s.clk.st = 0 && gateIdle s then satAdd 1000 s.clk.idleSclk 1 else 0
      wakeSclk := if s.clk.st = 2 then satAdd 100 s.clk.wakeSclk 1 else 0
      winSclk := if s.clk.st = 0 && clocksOn s then satAdd 500 s.clk.winSclk 1 else s.clk.winSclk } }

/-- A PCLK cycle begins: route changes and a change of lifecycle in the one before take effect, and its causes are raised (R425, R427,
R437). -/
def pclkBegin (s : State) : State :=
  raiseDue { s with
    ev := { s.ev with routes := s.ev.routeNew.foldl (fun m e => mset m 0 e.1 e.2) s.ev.routes, routeNew := [] }
    pins := { s.pins with lifecycle := s.pins.lifeIn } }

/-- One nominal ACLK period passes. -/
def timeTick (s : State) : State :=
  let s := aclkTick s
  let s := { s with clk := { s.clk with t := s.clk.t + 1 } }
  let s := if s.clk.t % 40 = 0 then sclkTick s else s
  let s := if s.clk.t % 8 = 0 then pclkBegin s else s
  let s := if s.clk.t % 2 = 0 then (if clocksOn s then mclkTick s else linksRest s) else s
  let s := if s.clk.t % 8 = 0 then bootRunOver (mboxTick (boundaryTick s)) else s
  aclkNext (if s.clk.t % 40 = 0 then unitAck (unitReq (linksDue (storeTick s))) else s)

/-- What the block does by itself when no command waits: a slot that a freeze held ends, or time passes (log 2). -/
def tick (s : State) : State :=
  if s.seq.resume && !s.seq.frozen then slotAdvance s else timeTick s

/-- Time passes until `p` holds, and then `f` is done; if it does not come to hold within `n` ticks nothing is (log 20). -/
def awaitS (n : Nat) (p : State → Bool) (f : State → State) (s : State) : State :=
  go n s
where
  /-- The ticks still allowed. -/
  go (n : Nat) (u : State) : State :=
    if p u then f u
    else
      match n with
      | 0 => s
      | k + 1 => go k (tick u)

/-- An effect in slot `due`: reached by letting slots pass, or at once where that slot has passed; never in a freeze. -/
def inSlot (due : State → Option Nat) (f : State → State) (s : State) : State :=
  match due s with
  | none => s
  | some d => awaitS (2 * (d - s.clk.slot) + 2)
      (fun u => !u.seq.frozen && (match due u with | some d => decide (d ≤ u.clk.slot) | none => false)) f s

/-- An effect at or after SCLK cycle `c`. -/
def atSclk (c : Nat) (f : State → State) (s : State) : State :=
  awaitS (40 * (c - sclkOf s) + 1) (fun u => decide (c ≤ sclkOf u)) f s

/-- An effect at or after MCLK cycle `c`. -/
def atMclk (c : Nat) (f : State → State) (s : State) : State :=
  awaitS (2 * (c - mclkOf s) + 1) (fun u => decide (c ≤ mclkOf u)) f s

/-- An effect at or after PCLK cycle `c`. -/
def atPclk (c : Nat) (f : State → State) (s : State) : State :=
  awaitS (8 * (c - pclkOf s) + 1) (fun u => decide (c ≤ pclkOf u)) f s

end Sys2Proof.Machine
end

