-- ==== Sys2Proof/Machine/ResetOps.lean ====
section
/-! DEFINITION. What a reset does: each unit's rule, by level (0 L0, 1 L1, 2 L2, 3 a single-unit reset), the requests of
a reset and how they are settled, and the single-unit handshake (R404 to R412). -/
namespace Sys2Proof.Machine

/-- The held registers of offsets lo up to hi take their reset values, which stand against a port's write of the same PCLK cycle (R19). -/
def resetRegs (lo hi : Nat) (s : State) : State :=
  { s with regs := eachR (regResets.filter fun e => decide (lo ≤ e.1) && decide (e.1 < hi)) (mclear s.regs lo hi)
           cyc := { cycNow s with resets := (lo, hi) :: (cycNow s).resets } }
where
  /-- Reset values put back. -/
  eachR (l : List (Nat × W32)) (m : SMap W32) : SMap W32 := l.foldl (fun m e => mset m 0 e.1 e.2) m

/-- Every value of a map changed by `f`. -/
def mmap {α : Type} [DecidableEq α] (m : SMap α) (d : α) (f : α → α) : SMap α :=
  (m.map fun e => (e.1, f e.2)).filter fun e => e.2 ≠ d

-- Units (R406).

/-- The array and the derrick (R89). After L0 and L1 the stamps, checksum weights and D_FMT of the planes' rows are 0 as their bytes are (DESIGN
CHOICE, log 6). -/
def resetArr (lvl : Nat) (s : State) : State :=
  resetRegs 0x4000 0x4400 { s with arr := {
    planes := if lvl < 2 then [] else mmap s.arr.planes {} fun p => { p with stale := true, poison := false } } }

/-- Requests of seam transfers that a reset has left without a holder: their responses find none. -/
def orphanXfers (s : State) : State :=
  let lost (r : MReq) : MReq := match r.who with | .seam k => { r with who := .lost k } | _ => r
  dropCand { s with memp := { s.memp with
      out := s.memp.out.map fun e => (e.1, lost e.2), req := s.memp.req.map fun e => (e.1, lost e.2) } }
    fun w => match w with | .seam _ => true | _ => false

/-- A seam after an L2 or single-unit reset (R120). -/
def resetSeam (m : Seam) : Seam :=
  if m.st = 0 then { m with held := false }
  else if m.closePend.isSome then {}
  else
    { m with
      pend := if m.st = 6 || m.st = 7 then m.pend.filter (fun p => !p.isBind) else m.pend
      stale := true, held := false, shadow := [], wrBy := [], shadowBad := false, owner := 0, trig := 0
      st := if m.st = 5 || m.st = 6 || m.st = 7 then 4 else if m.st = 2 || m.st = 3 then 1 else m.st }

/-- The accumulator memory and seams (R120). R120 gives the registers their reset values at L0 and L1 only, so ACC_STICKY is kept at L2 and at a
single-unit reset, though R57 has a reset clear sticky flags (DESIGN CHOICE, log 136). -/
def resetAcc (lvl : Nat) (s : State) : State :=
  let s := orphanXfers s
  if lvl < 2 then resetRegs 0x4400 0x4800 (resetRegs 0x2000 0x3000 { s with acc := {}, seams := [] })
  else
    let clis := s.seams.filterMap fun e =>
      if e.2.closePend.isSome then e.2.closePend.map fun c => (c, 0)
      else if e.2.st = 6 || e.2.st = 7 then (e.2.pend.filter (·.isBind)).map fun p => (p.cli, 1) else none
    let s := { s with
      acc := { s.acc with wq := [], xfers := [], md := mmap s.acc.md {} fun m => { m with stale := true } }
      seams := mmap s.seams {} resetSeam }
    eachS clis (fun c s => complete s c.1 c.2 0) s

/-- The gate pipe (R132, R149). -/
def resetGate (lvl : Nat) (s : State) : State :=
  resetRegs 0x5C00 0x6000 { s with gate :=
    if lvl < 2 then {} else { tbl := s.gate.tbl, bankSig := s.gate.bankSig, bankTnh := s.gate.bankTnh, badTbl := s.gate.badTbl } }

/-- The scan stage (R166). -/
def resetScan (s : State) : State := resetRegs 0x4F00 0x5000 { s with scan := {} }

/-- The vector engine (R191). -/
def resetVec (lvl : Nat) (s : State) : State :=
  resetRegs 0x4800 0x4F00 { s with vec :=
    if lvl < 2 then {}
    else
      { recipe := s.vec.recipe, badRcp := s.vec.badRcp
        dir := mmap s.vec.dir {} fun e => if e.valid then { e with pend := false, checking := false } else {} } }

/-- The special function unit (R211). -/
def resetSfu (lvl : Nat) (s : State) : State :=
  resetRegs 0x5000 0x5C00 { s with sfu :=
    if lvl < 2 then {}
    else { tbl := s.sfu.tbl, bank := s.sfu.bank, uc := s.sfu.uc, badTbl := s.sfu.badTbl, badUc := s.sfu.badUc } }

/-- The bench sequencer, and the generators of every site (R54, R238). After L2 the commands that waited for it complete. -/
def resetSeq (lvl : Nat) (s : State) : State :=
  let old := s.seq
  let s := { s with gen := if lvl < 3 then [] else s.gen, genSeed := if lvl < 3 then 0 else s.genSeed }
  if lvl < 2 then resetRegs 0x3000 0x3C00 { s with seq := { nextUid := old.nextUid } }
  else
    let s := resetRegs 0x3030 0x3080 (resetRegs 0x3000 0x3020
      { s with seq := { nextUid := old.nextUid, pram := old.pram, badPram := old.badPram, badTd := old.badTd } })
    let s := eachS (old.haltCli ++ old.stopCli) (fun c s => complete s c 0 0) s
    completeOpt s old.runCli 6

/-- A window entry after a reset other than L0: closed, an export as by CLOSE (R272). -/
def resetWin (w : Win) : Win := { gen := if w.mode = 1 then (w.gen + 1) % 256 else w.gen }

/-- The scratchpad, rings and windows (R272); the requests and landing writes that are dropped return their credits (R334). -/
def resetSpad (lvl : Nat) (s : State) : State :=
  let clis := s.wins.flatMap fun e => e.2.closing.toList ++ e.2.fin.map (·.2)
  let land := s.fab.land
  let chk := s.fab.chk
  let s := { s with
    wins := if lvl = 0 then [] else mmap s.wins {} resetWin
    fab := { s.fab with land := [], chk := [] } }
  let s := eachS land (fun l s => oweCredit s l.port 0 (1 + l.sectors.length)) s
  let s := eachS chk (fun e s => oweCredit s e.1 0 (1 + e.2.body.length)) s
  if lvl < 2 then resetRegs 0x6000 0x6200 { s with spad := {}, rings := [] }
  else
    let s := eachS (s.rings.map (·.1)) (fun n s => dropPartial s n) s
    let s := cacheClear { s with spad := { s.spad with arb := {}, xFeed := {}, xDerr := {}, hits := [] } }
    let s := resetRegs 0x605C 0x6064 (resetRegs 0x6048 0x6058 s)
    eachS clis (fun c s => complete s c 0 0) s

/-- Every slot of the memory port freed under a new generation (R299, R305). -/
def freeSlots (s : State) : State :=
  { s with memp := { s.memp with gen := (s.memp.gen + 1) % 16, out := [], cand := [], ready := [], req := none }
           spad := { s.spad with hits := [] } }

/-- Every channel that `p` names enters HALTED with a cause and its position. One that is being aborted becomes IDLE by a time-out (R299), and
HALTED by a reset like the others (R305). -/
def haltChans (s : State) (p : Nat → Bool) (cause : Nat) (drop : Bool) : State :=
  eachS (s.chans.map (·.1)) (fun c s =>
    let h := chan s c
    if !p h.st then s
    else if h.aborting then
      let w := abortWhere h
      if drop then chanEnter s c 5 cause w.1 w.2 else chanEnter s c 0 h.cause w.1 w.2
    else if drop then
      let d := chanDropHalf s c
      chanEnter d.2 c 5 cause d.1.1 d.1.2
    else
      let s := flushNow s c
      let w := chanWhere (chan s c)
      if p (chan s c).st then chanEnter s c 5 cause w.1 w.2 else s) s

/-- Channel c becomes IDLE at its position by an L2 reset (R305). -/
def idleChan (c : Nat) (s : State) : State :=
  let h := chan s c
  let d := if h.aborting then (abortWhere h, s) else chanDropHalf s c
  let s := updChan (chanAnswer d.2 c) c fun _ => {}
  updChan s c fun h => { h with posA := d.1.1, posR := d.1.2 }

/-- The memory port and the channels (R305). -/
def resetMemp (lvl : Nat) (por : Bool) (s : State) : State :=
  let ch := s.chans.map (·.1)
  let s := freeSlots { s with memp := { s.memp with beats := [], beat := none, beatT := 0 } }
  if lvl = 3 then xferAbort (haltChans s (fun st => st != 0) 7 true)
  else
    let s := if lvl = 2 then eachS ch idleChan s else { s with chans := [] }
    let s := { s with memp := { s.memp with
      gen := if por then 0 else s.memp.gen, closed := false, mwait := 0, mwaitFree := 0 } }
    resetRegs 0x1000 0x2000 (resetRegs 0x01C0 0x0200 s)

/-- Every fabric request's tag freed; a remote command that waits completes LINK_DOWN where its mailbox is kept (R335). -/
def freeTags (lvl : Nat) (s : State) : State :=
  let clis := s.fab.reqs.filterMap (fun e => e.2.cli) ++ s.fab.waitq.filterMap (fun q => q.req.cli)
  let s := { s with fab := { s.fab with reqs := [], reads := [], waitq := [], wfails := [] } }
  if lvl < 2 then s else eachS clis (fun c s => complete s c 13 0) s

/-- The fabric interface and the mode (R333, R335). -/
def resetFab (lvl : Nat) (s : State) : State :=
  let s := freeTags lvl s
  if lvl = 0 then resetRegs 0x9000 0xA000 (resetRegs 0x7000 0x8000 (portsDown false { s with mode := {} }))
  else if lvl = 1 then resetRegs 0x9000 0xA000 { s with mode := {} }
  else eachS (upPorts s) (fun n s => startResync s n) s

/-- The adaptation unit (R358). -/
def resetRed (lvl : Nat) (s : State) : State :=
  if lvl = 0 then resetRegs 0x8000 0x8200 { s with red := [{}, {}] } else redReset (redReset s 0) 1

/-- A single-unit reset of unit u (R406). -/
def unitReset (u : Nat) (s : State) : State :=
  match u with
  | 0 => resetArr 3 s
  | 1 => resetAcc 3 s
  | 2 => resetGate 3 s
  | 3 => resetScan s
  | 4 => resetVec 3 s
  | 5 => resetSfu 3 s
  | 6 => resetSeq 3 s
  | 7 => resetSpad 3 s
  | 8 => resetMemp 3 false s
  | 9 => resetFab 3 s
  | 16 => resetRed 3 s
  | _ => s

/-- The engines and the edge at a level L0, L1 or L2 (R407). -/
def resetCore (lvl : Nat) (por : Bool) (s : State) : State :=
  let s := resetMemp lvl por s
  let s := resetSeq lvl (resetSfu lvl (resetVec lvl (resetScan (resetGate lvl (resetAcc lvl (resetArr lvl s))))))
  resetRed lvl (resetFab lvl (resetSpad lvl s))

/-- A STORE or FETCH in progress is abandoned (R380, R407); what a deletion has still to clean up stays noted (R379). -/
def dropJob (lvl : Nat) (s : State) : State :=
  match s.store.job with
  | none => s
  | some j =>
    let s := if j.fetch || 5 ≤ j.phase then s else writePhase s j (j.stop.getD (wordsBegun s j))
    let left := if j.phase = 6 then cleanFrames j else []
    let s := { s with store := { s.store with job := none, clean := s.store.clean ++ left } }
    if lvl < 2 || j.phase = 6 then s else storeDone s j.cli 8 0

/-- What L0 and L1 also clear: the mailboxes, start-up, the settings unit's registers, the watchdog (R407, R414, R415). L1 clears
CLK_CTRL.GATE, which wakes a GATED tile as a write of 0 does (DEDUCED, log 131); RST_UNIT_STATUS takes its reset value at L0 (DESIGN
CHOICE, log 131). -/
def resetTop (lvl : Nat) (s : State) : State :=
  let s := { s with clk := { s.clk with zero := s.clk.slot } }
  if lvl = 2 then s
  else
    let s := resetRegs 0x0100 0x0160 { s with mb := {}, perf := {} }
    let s := { s with
      boot := { st := if lvl = 0 then 0 else 3, fromL1 := lvl == 1 }
      store := { data := s.store.data, clean := s.store.clean }
      rst := { s.rst with wdog := 0, wdogWarned := false, wdogStop := false, reqCli := none, actCli := none } }
    let s := resetRegs 0x0218 0x0228 (resetRegs 0x020C 0x0210 s)
    let s := if lvl = 0 then resetRegs 0x0400 0x0800 s else resetRegs 0x0418 0x0800 (resetRegs 0x0400 0x0410 s)
    if lvl = 1 then wakeUp (setRegF s 0x0300 0 1 0)
    else
      resetRegs 0xE000 0xF000 (resetRegs 0x0800 0x1000 (resetRegs 0x0300 0x0400
        { s with
          clk := { t := s.clk.t, slot := s.clk.slot, zero := s.clk.slot }
          sup := {}
          ev := { routes := defaultRoutes }
          fuse := { outs := s.fuse.outs }
          rst := { s.rst with lastUnit := 0 }
          denied := 0 }))

-- Requests (R404 to R409).

/-- The level of a source (R405). -/
def levelOf (s : State) (src : Nat) : Nat :=
  let f := fieldN s.fuse.levels (2 * src) 2
  if src = 0 then 0 else if src = 4 then min f 1 else f

/-- The place of a source in the order of R409. -/
def srcRank (src : Nat) : Nat := lget [0, 4, 2, 3, 1, 5, 6] 7 src

/-- A dropped request (R409). -/
def dropReset (s : State) (c : Option Cli) : State := completeOpt (incReg s 0x0214 0 16) c 1

/-- Whether the single-unit reset was accepted in the present SCLK cycle, so that other requests of the cycle are settled with it (R409). -/
def unitFresh (s : State) (u : UnitRst) : Bool := u.phase == 0 && u.since == sclkOf s + 1

/-- A level reset accepted, with its own r: a STORE before phase 5 is abandoned (R380). -/
def levelBegin (s : State) (lvl src : Nat) (c : Option Cli) : State :=
  let s := storeAbandon s
  { s with rst := { s.rst with req := some (lvl, src), t := sclkOf s, reqCli := c } }

/-- A request for L0, L1 or L2 settled against what is in progress (R409). -/
def levelRequest (s : State) (lvl src : Nat) (c : Option Cli) : State :=
  match s.rst.req, s.rst.act with
  | some (l, k), _ =>
    if lvl < l || (lvl == l && s.rst.t == sclkOf s && decide (srcRank src < srcRank k)) then
      let s := if s.rst.t = sclkOf s then dropReset s s.rst.reqCli else completeOpt s s.rst.reqCli 1
      levelBegin s lvl src c
    else dropReset s c
  | none, some (l, _) => if lvl < l then levelBegin s lvl src c else dropReset s c
  | none, none =>
    match s.rst.unit with
    | some u =>
      let fresh := unitFresh s u
      let s := { s with rst := { s.rst with unit := none, lastUnit := u.unit, wdogWait := false } }
      levelBegin (if fresh then dropReset s u.cli else if lvl = 2 then completeOpt s u.cli 1 else s) lvl src c
    | none => levelBegin s lvl src c

/-- A single-unit reset accepted (R410): IDLE_REQ is raised in the next SCLK cycle. -/
def unitBegin (s : State) (u src : Nat) (c : Option Cli) : State :=
  { s with rst := { s.rst with unit := some { unit := u, phase := 0, src := src, cli := c, since := sclkOf s + 1 } } }

/-- A request for L3 settled (R409). -/
def unitRequest (s : State) (u src : Nat) (c : Option Cli) : State :=
  if s.rst.req.isSome || s.rst.act.isSome then dropReset s c
  else
    match s.rst.unit with
    | none => unitBegin s u src c
    | some x =>
      if unitFresh s x then
        if srcRank src < srcRank x.src then unitBegin (dropReset s x.cli) u src c else dropReset s c
      else if src = 3 then { s with rst := { s.rst with wdogWait := true } }
      else completeOpt s c 1

/-- A request from a source for its own level (R405, R406). -/
def resetRequest (s : State) (src unit : Nat) (c : Option Cli) : State :=
  if levelOf s src = 3 then unitRequest s (if src = 3 then 6 else unit) src c else levelRequest s (levelOf s src) src c

/-- A level reset asserted (R407, R408): RST_CAUSE is written and everything the level clears is cleared. -/
def assertLevel (s : State) (lvl src : Nat) : State :=
  let por := src == 0
  let s := if por then setReg s 0x0214 0 else s
  let s := setCause s lvl src 0
  let c := s.rst.reqCli
  let s := { s with rst := { s.rst with req := none, reqCli := none, act := some (lvl, src), actCli := c, t := sclkOf s
                                        unit := none, wdogWait := false, linksDown := false, hold := 0, holdBoot := false } }
  resetTop lvl (dropJob lvl (resetCore lvl por s))

/-- The watchdog's count restarts (R413); one that has stopped stays so until the reset it asked for is released. -/
def dogRestart (s : State) : State := { s with rst := { s.rst with wdog := 0, wdogWarned := false } }

/-- The release of a reset restarts the watchdog's count; it runs again unless its own request still waits (R409, R413). -/
def dogRelease (s : State) : State := dogRestart { s with rst := { s.rst with wdogStop := s.rst.wdogStop && s.rst.wdogWait } }

/-- A level reset released (R361, R362, R408, R412): the straps are sampled at L0, and start-up begins as the level
requires. -/
def releaseLevel (s : State) (lvl imgBase slot : Nat) : State :=
  let s := dogRelease s
  let s := { s with
    straps := if lvl = 0 then (imgBase % 2 ^ 36, slot % 256) else s.straps
    boot := { s.boot with t0 := sclkOf s }
    rst := { s.rst with act := none, actCli := none
                        holdBoot := decide (lvl < 2), hold := if lvl = 2 then sclkOf s + 16 else 0 } }
  if lvl = 1 then imgBegin s
  else if lvl = 0 then linksRest s
  else s

-- The single-unit handshake.

/-- IDLE_TO in SCLK cycles (R411). -/
def idleTo (s : State) : Nat := regF s 0x020C 0 10 * 50

/-- The controller resets the unit (R410). -/
def unitAct (s : State) (u : UnitRst) : State :=
  let s := if slotTimed u.unit then
      match s.seq.haltReq with
      | some h => haltNow s (s.clk.slot - 1) h
      | none => s
    else s
  unitReset u.unit { s with rst := { s.rst with unit := some { u with phase := 2, since := sclkOf s } } }

/-- A forced reset (R411). -/
def unitForce (s : State) (u : UnitRst) : State :=
  let s := raise (incReg (orReg s 0x0200 0x800) 0x0214 16 16) 0x69 u.unit
  unitAct s u

/-- The unit is released (R410): a link port resynchronises, the command completes, and a watchdog's request that waited
begins. -/
def unitRelease (s : State) (u : UnitRst) : State :=
  let s := dogRelease { s with rst := { s.rst with unit := none, lastUnit := u.unit, hold := sclkOf s + 16 } }
  let s := if decide (10 ≤ u.unit) && decide (u.unit < 16) && (portOf s (u.unit - 10)).st == 3 then
      startResync s (u.unit - 10) else s
  let s := completeOpt s u.cli 0
  if s.rst.wdogWait then unitBegin { s with rst := { s.rst with wdogWait := false } } 6 3 none else s

end Sys2Proof.Machine
end

