-- ==== Sys2Proof/Machine/Regs.lean ====
section
/-! DEFINITION. The register window (R15 to R20, R435 to R437, R446, R453 to R456): who may access which offset, the value each
register reads as, and what a write of one without an operation of its own stores. -/
namespace Sys2Proof.Machine

-- Ports.

/-- The class of a port in PORT_DENIED's ARG (R430). -/
def portArg (p : Port) : Nat := match p with | .hcp => 0 | .scp => 1 | .dbg => 2

/-- The debug port is open (R437). -/
def dbgOpen (s : State) : Bool := s.pins.lifecycle == 1 && !s.fuse.dbgDis

/-- The registers marked "SCP only", by offset (R20, R456). -/
def scpOnly (off : Nat) : Bool :=
  (decide (0x120 ≤ off) && decide (off < 0x160)) || off == 0x1C0 || off == 0x20C || off == 0x218 || off == 0x31C
    || off == 0x380 || off == 0x410 || off == 0x814 || off == 0x4000 || off == 0x4004
    || (decide (0x6000 ≤ off) && decide (off < 0x6040)) || off == 0x7004 || off == 0x7008
    || (decide (0x8000 ≤ off) && decide (off < 0x8200) && (decide (off % 256 < 0x18) || decide (0x20 ≤ off % 256 && off % 256 < 0x50)))
    || off == 0x9008
    || (decide (0x9010 ≤ off) && decide (off < 0x9028))

/-- The data that a port's access returns. -/
def setRdata (s : State) (p : Port) (v : W32) : State :=
  { s with mb := { s.mb with rdata := lupd s.mb.rdata (portArg p) fun _ => v } }

/-- PORT_DENIED for a port (R10, R20). -/
def portDenied (s : State) (p : Port) : State := raise s 0x6B (portArg p)

/-- A write that a table in use refuses. -/
def tableBusy (s : State) : State := raise s 0x0D 0

/-- An access through the closed debug port (R437). -/
def debugDenied (s : State) : State :=
  portDenied (setRdata { s with denied := satAdd 0xFFFF s.denied 1 } .dbg 0) .dbg

/-- An HCP access to an SCP-only register (R20). -/
def scpDenied (s : State) : State := portDenied (setRdata s .hcp 0) .hcp

/-- An access performed in the present PCLK cycle is acknowledged two cycles on, with what it returned (R435). -/
def portAck (p : Port) (s : State) : State :=
  let old := s.mb.acks.filter fun a => decide (pclkOf s ≤ a.t)
  { s with mb := { s.mb with acks := old ++ [⟨portArg p, pclkOf s + 2, lget s.mb.rdata 0 (portArg p)⟩] } }

/-- What the tile does with an access of a port to the register at `off`: `f` where it is performed (R20, R435, R437). -/
def gated (p : Port) (off : Nat) (f : State → State) (s : State) : State :=
  if accessHeld s then setRdata s p 0
  else if p == .dbg && !dbgOpen s then debugDenied s
  else if p == .hcp && scpOnly off then scpDenied s
  else f s

/-- An access of a port to the register at `off`, with its acknowledgement. -/
def access (p : Port) (off : Nat) (f : State → State) (s : State) : State := portAck p (gated p off f s)

/-- An access to a unit's register: one of an absent unit reads 0 and a write has no effect (R456). -/
def accessUnit (has : Bool) (p : Port) (off : Nat) (f : State → State) (s : State) : State :=
  access p off (fun s => if has then f s else setRdata s p 0) s

-- What registers read as.

/-- A word from fields: each a value and the place of its lowest bit. -/
def word (l : List (Nat × Nat)) : W32 := BitVec.ofNat 32 (l.foldl (fun a e => a + e.1 <<< e.2) 0)

/-- IDENT (R453). -/
def readIdent (s : State) (off : Nat) : W32 :=
  match off with
  | 0x00 => 0x06A70128
  | 0x04 => 0x00030100
  | 0x08 => caps s
  | 0x0C => word [(s.straps.2 % 256, 0)]
  | 0x10 => word [(s.straps.1 % 1048576, 12)]
  | 0x14 => word [(s.straps.1 / 1048576 % 65536, 0)]
  | _ => 0

/-- CTRL: the mailboxes and the memory port (R307, R454); MB_GO and MEMP_CMD read 0. -/
def readCtrl (s : State) (off : Nat) : W32 :=
  if off = 0x1C4 then
    word [(b2n s.memp.closed, 31), (s.memp.gen % 16, 24), (readsOut s, 16), (writesOut s, 0)]
  else reg s off

/-- RESET (R415). -/
def readReset (s : State) (off : Nat) : W32 :=
  match off with
  | 0x204 => s.fuse.levels &&& 0x3FFC
  | 0x208 => s.fuse.outs
  | 0x210 =>
    match s.rst.unit with
    | some u => word [(1, 31), (u.phase, 29), (u.unit, 0)]
    | none => word [(s.rst.lastUnit, 0)]
  | 0x220 => word [(s.rst.wdog, 0)]
  | off => reg s off

/-- DROOP_TRIM (R402): the entry that DROOP_SEL shows. -/
def droopTrim (s : State) : W32 :=
  let b := regF s 0x0314 4 2
  if b = 3 then 0
  else
    let w := mget s.clk.trims 0 (16 * b + regF s 0x0314 0 4)
    if lget s.clk.trimmed false b then w else w &&& 0x00003F3F

/-- CLOCK and SUPPLY (R402, R403). -/
def readClock (s : State) (off : Nat) : W32 :=
  match off with
  | 0x304 =>
    let t := b2n (lget s.clk.trimmed false 0) + 2 * b2n (lget s.clk.trimmed false 1) + 4 * b2n (lget s.clk.trimmed false 2)
    word [(s.clk.st, 30), (s.clk.band, 28), (t, 24), (b2n s.clk.cap, 23), (b2n s.clk.retrim, 22), (s.clk.retrimBand, 20),
      (s.clk.act, 0)]
  | 0x318 => droopTrim s
  | 0x31C => word [(b2n s.clk.dump.isSome, 30), (b2n s.clk.dumpErr, 29)] ||| reg s 0x31C
  | 0x384 => s.fuse.thresh
  | 0x388 => s.fuse.dwell
  | 0x38C =>
    word [(s.sup.st, 30), (b2n (s.sup.st != 0), 29), (b2n (s.sup.st != 0 && regF s 0x0380 0 1 == 1), 28), (s.sup.min, 8),
      (s.sup.level, 0)]
  | off => reg s off

/-- SETTINGS (R382). -/
def readSettings (s : State) (off : Nat) : W32 :=
  let f := regF s 0x41C 0 6
  let shown := s.store.indexed && decide (f < storeFrames s)
  match off with
  | 0x400 => word [(s.boot.st, 28), (s.boot.cause, 24), (s.boot.sect % 32, 16), (min 255 s.boot.applied, 8)]
  | 0x40C => word [(s.boot.time, 0)]
  | 0x414 =>
    let l := if s.store.indexed then [((liveKeys s).length, 8), ((freeFrames s).length, 0)] else []
    word ([(b2n (storeBusy s), 31), (s.store.last, 27)] ++ l)
  | 0x418 => word [(min 65535 s.store.bad, 16), (min 65535 s.store.skipped, 0)]
  | 0x420 => if shown then word [(fKey s f, 0)] else 0
  | 0x424 =>
    if shown then
      let l := validFrames s
      word [(b2n (l.contains f), 31), (b2n (isLive s l f), 30), (b2n (fFree s l f), 29), (fLen s f, 0)]
    else 0
  | 0x428 => if shown then word [(fSeq s f, 0)] else 0
  | 0x42C => if shown then word [(fWear s f, 0)] else 0
  | off => reg s off

/-- A log entry's EVT_LOG_HI (R432). -/
def logHi (e : LogEntry) : W32 := word [(b2n e.valid, 31), (e.cls, 29), (e.code, 16), (e.arg, 0)]

/-- EVT_PENDk: the pending bits that show. -/
def pendWord (s : State) (k : Nat) : W32 := BitVec.ofNat 32 ((natsTo 32).foldl (fun a i => a + b2n (pendShown s (32 * k + i)) <<< i) 0)

/-- EVENTS (R432). -/
def readEvents (s : State) (off : Nat) : W32 :=
  match off with
  | 0x800 => pendWord s 0
  | 0x804 => pendWord s 1
  | 0x808 => pendWord s 2
  | 0x80C => pendWord s 3
  | 0x814 =>
    let c := regF s 0x810 0 7
    word [((evClass c).getD 0, 8), (routeOf s c, 0)]
  | 0x818 => word [(s.ev.overwritten, 16), (s.ev.dropped, 8), (s.ev.head, 0)]
  | 0x820 => (mget s.ev.log {} (regF s 0x81C 0 6)).time
  | 0x824 => s.ev.hiCap
  | 0x828 => s.ev.time
  | 0x82C => word [(s.ev.count, 0)]
  | off => reg s off

/-- A channel's registers (R306). -/
def readStream (s : State) (off : Nat) : W32 :=
  let c := (off - 0x1000) / 32
  let h := chan s c
  let p := chanWhere h
  match off % 32 with
  | 0x00 =>
    word [(h.st, 29), (b2n h.pend.isSome, 28), (h.cause, 24), (h.src, 20), (h.ep, 16), (h.ring, 10), (h.op, 6), (chanOut s c, 0)]
  | 0x04 => word [(p.1 % 4294967296 / 32, 5)]
  | 0x08 => word [(p.2 % 65536, 16), (p.1 / 4294967296 % 65536, 0)]
  | 0x14 => word [(h.bell, 16)]
  | _ => reg s off

/-- A seam's registers (R122). -/
def readSeam (s : State) (off : Nat) : W32 :=
  let m := seam s ((off - 0x2000) / 16)
  if m.st = 0 then if off % 16 = 0 then word [(b2n m.held, 18)] else 0
  else
    match off % 16 with
    | 0x0 =>
      word [(1, 31), (m.st, 28), (m.sfmt, 26), (m.nvec - 1, 24), (m.nelig, 21), (b2n (seamPoisoned s ((off - 0x2000) / 16)), 20), (b2n m.stale, 19),
        (b2n m.held, 18), (m.deep, 8), (m.width % 128, 0)]
    | 0x4 => word [(m.channel, 24), (m.nrows, 10), (m.base, 0)]
    | 0x8 => m.step
    | _ => word [(m.evicts, 16), (m.reloads, 0)]

/-- BENCH (R239). -/
def readBench (s : State) (off : Nat) : W32 :=
  match off with
  | 0x3004 =>
    word [(s.seq.st, 29), (s.seq.lastBep, 24), (s.seq.prog, 20), (s.seq.frames.length, 16), (pcShown s % 16384, 0)] ||| reg s 0x3004
  | 0x3008 => if s.seq.lastLen = 0 then 0 else word [(min 4294967295 (s.clk.slot + b2n s.seq.resume - s.seq.lastStart), 0)]
  | 0x3030 => word [(lget s.seq.idx 0 0, 0)]
  | 0x3034 => word [(lget s.seq.idx 0 1, 0)]
  | 0x3038 => word [(lget s.seq.idx 0 2, 0)]
  | 0x303C => word [(lget s.seq.idx 0 3, 0)]
  | 0x3040 => match s.seq.replay with | some e => word [(1, 31), (e.bep % 16, 24), (e.pc % 16384, 0)] | none => 0
  | 0x3048 => mget s.seq.pram 0 (regF s 0x3044 0 14)
  | 0x304C =>
    let f := s.seq.frz
    let on := if s.seq.frozen then
        [(b2n (causeHolds s 0), 31), (b2n (causeHolds s 1), 30), (b2n (causeHolds s 2), 29), (b2n (f.ecc != 0), 28),
          (b2n (f.bank != 0), 27), (b2n (f.derrick != 0), 26)]
      else []
    word (on ++ [(s.seq.frzLen, 0)])
  | off => reg s off

/-- A ring's registers (R273). -/
def readRing (s : State) (off : Nat) : W32 :=
  let r := ringOf s ((off - 0x3C00) / 16)
  match off % 16 with
  | 0x0 =>
    word [(b2n r.en, 31), (b2n r.pooled, 30), (b2n r.psrc, 29), (r.relmode, 27), (r.rps % 16, 23), (r.seam, 15), (r.ep0, 11),
      (r.ep1, 7), (b2n (halfFull r 0), 6), (b2n (halfFull r 1), 5), (b2n r.landing, 4)]
  | 0x4 => word [(r.base / 32, 15), (r.rsize % 32, 10), (r.nrows % 1024, 0)]
  | 0x8 => word [(r.prod, 0)]
  | _ => word [(r.rel, 0)]

/-- Bit p of PLANE_STALE's two fields: whether some row of plane p is stale, or poisoned. -/
def planeBits (s : State) (f : PlaneRow → Bool) : Nat :=
  (natsTo 8).foldl (fun a p => a + b2n ((natsTo 128).any fun i => f (planeRow s p i)) <<< p) 0

/-- ARRAY and the derrick (R90). -/
def readArray (s : State) (off : Nat) : W32 :=
  match off with
  | 0x4014 => s.fuse.repair
  | 0x4018 => word [(b2n s.arr.active, 31), (s.arr.ldPlane, 24), (s.arr.ldNext % 128, 16), (s.arr.ldEpoch, 0)]
  | 0x401C => word ((natsTo 8).map fun p => (lget s.arr.planeEpoch 0 p, 4 * p))
  | 0x4020 => word [(planeBits s (·.poison), 8), (planeBits s (·.stale), 0)]
  | off => reg s off

/-- The upper half of a row's metadata (R121). -/
def metaHi (m : Meta) : W32 := word [(m.fmt, 5), (m.epoch, 1), (b2n m.stale, 0)]

/-- The lower half of the selected row's metadata (R121). -/
def metaLo (s : State) : W32 :=
  let r := regF s 0x4414 0 10
  let m := accMeta s r
  word [(b2n m.poison, 31), (b2n m.sat, 30), (b2n m.long, 29), (b2n (rowSeam s r), 28), (m.passes, 0)]

/-- Transfers requested and not yet started: those of the queue, the reloads that wait for an eviction and the evictions deferred (R114,
R116, R121). -/
def xfersQueued (s : State) : Nat :=
  (s.acc.xfers.filter fun x => !x.started).length + (s.seams.filter fun e => e.2.st == 2 || e.2.st == 6).length

/-- ACC (R121). -/
def readAcc (s : State) (off : Nat) : W32 :=
  match off with
  | 0x4410 => word [(deepUsed s, 0)]
  | 0x4418 => metaLo s
  | 0x441C => s.acc.hiCap
  | 0x4420 =>
    let on := s.acc.xfers.any (·.started)
    word [(b2n on, 31), (b2n (on && s.acc.xferDir), 30), (s.acc.xferSeam, 16), (xfersQueued s, 0)]
  | off => reg s off

/-- The directory entry that VEC_RCP_DIR_SEL shows. -/
def dirEntry (s : State) : RcpEntry := mget s.vec.dir {} (regF s 0x4814 0 6)

/-- VECTOR and the scan stage (R167, R192). -/
def readVector (s : State) (off : Nat) : W32 :=
  match off with
  | 0x4800 => word [(b2n s.vec.run.isSome, 31), (s.vec.lastEntry, 25), (s.vec.lastPc, 16), (s.vec.vl, 8)]
  | 0x480C => BitVec.ofNat 32 (mget s.vec.recipe 0 (regF s 0x4808 0 9)).toNat
  | 0x4810 => s.vec.hiCap
  | 0x4818 =>
    let e := dirEntry s
    word [(b2n e.valid, 31), (b2n e.pend, 30), (b2n e.checking, 29), (b2n e.err, 28), (e.len, 9), (e.start, 0)]
  | 0x4F04 => word [(b2n (!s.scan.chunks.isEmpty), 31), (s.scan.lastSeam, 8), (s.scan.lastNext, 0)]
  | off => reg s off

/-- The coefficient that GP_TBL_ADDR addresses, as stored (R131). -/
def gpTblWord (s : State) : W32 :=
  let a := reg s 0x5C0C
  let t := fieldN a 9 1
  let k := fieldN a 2 6
  let c := fieldN a 0 2
  (mget s.gate.tbl none (t * 512 + fieldN a 8 1 * 256 + k * 4 + c)).getD (gateBuilt (t == 1) k c)

/-- SFU and the gate tables (R150, R212). -/
def readSfu (s : State) (off : Nat) : W32 :=
  match off with
  | 0x5000 => word [(s.sfu.pend, 16), (s.sfu.bank, 0)]
  | 0x500C =>
    let a := reg s 0x5008
    if fieldN a 0 10 < 775 then sfuStored s (fieldN a 11 4) (fieldN a 10 1) (fieldN a 0 10) else 0
  | 0x5018 => mget s.sfu.uc 0 (regF s 0x5014 0 9)
  | 0x5C08 => word [(b2n s.gate.pendTnh, 3), (b2n s.gate.pendSig, 2), (b2n s.gate.bankTnh, 1), (b2n s.gate.bankSig, 0)]
  | 0x5C10 => if regF s 0x5C0C 0 2 = 3 then 0 else gpTblWord s
  | 0x5C1C => if bitB (reg s 0x5C18) 31 then reg s 0x5C1C else 0
  | off => reg s off

/-- A window entry's registers (R274). -/
def readWin (s : State) (off : Nat) : W32 :=
  let w := mget s.wins {} ((off - 0x6100) / 16)
  match off % 16 with
  | 0x0 =>
    word [(w.mode, 30), (b2n w.rd, 29), (b2n w.wr, 28), (b2n w.stale, 27), (b2n w.land, 26), (w.gen, 16), (w.peer, 8), (w.pwin, 4)]
  | 0x4 => word [(w.lring, 16), (w.base, 0)]
  | 0x8 => word [(w.size % 4096, 0)]
  | _ => word [(w.drops, 0)]

/-- SCRATCHPAD (R274). -/
def readSpad (s : State) (off : Nat) : W32 :=
  if off = 0x6040 then
    word [(pagesReserved s % 4096, 16), (if (poolRegion s).isSome then (freePages s).length else 0, 0)]
  else if 0x6100 ≤ off && off < 0x6200 then readWin s off
  else reg s off

/-- FABRIC (R336). -/
def readFabric (s : State) (off : Nat) : W32 :=
  if 0x7010 ≤ off && off < 0x7028 then
    let p := portOf s ((off - 0x7010) / 4)
    word [(if s.boot.st = 0 then 0 else p.st, 29), (b2n p.uplink, 28), (p.peerPort, 25), (p.trunk, 22), (p.peerId, 14)]
  else if 0x7030 ≤ off && off < 0x7048 then
    let p := portOf s ((off - 0x7030) / 4)
    word [(lget p.cred 0 2, 12), (lget p.cred 0 1, 6), (lget p.cred 0 0, 0)]
  else if 0x7100 ≤ off && off < 0x7160 then
    let k := (off - 0x7100) / 4
    word ((natsTo 8).map fun i => (routeFor s (8 * k + i), 4 * i))
  else
    match off with
    | 0x7000 => word [(b2n s.fab.idValid, 31), (s.fab.depth, 16), (s.fab.root, 8), (s.fab.id, 0)]
    | 0x700C => word [(s.fab.st, 29), (b2n s.fab.dup, 28), (s.fab.tiles, 0)]
    | off => reg s off

/-- REDUCE (R360). -/
def readReduce (s : State) (off : Nat) : W32 :=
  let g := grp s ((off - 0x8000) / 256)
  match off % 256 with
  | 0x50 => word [(g.st, 29), (gRole g % 4, 27), (g.cause, 25), (g.round % 65536, 0)]
  | 0x5C => word [(min 65535 g.retired, 16), (g.parTok, 8), (g.sumTok, 0)]
  | _ => reg s off

/-- MODE (R337). -/
def readMode (s : State) (off : Nat) : W32 :=
  let m := s.mode
  match off with
  | 0x9000 => word [(b2n m.joined, 31), (m.epoch, 16), (m.pepoch, 8), (m.rnd, 0)]
  | 0x9004 => word [(m.user, 0)]
  | 0x900C =>
    let st := if m.lead ≠ 0 then m.lead else if m.prepared.isSome then (if m.committed then 4 else 3) else 0
    let e := if m.lead ≠ 0 then m.leadE else if m.prepared.isSome then m.prepE else 0
    word [(st, 29), (e, 8)] ||| reg s 0x900C
  | 0x9048 => word [(regF s 0x9048 16 16, 16), (min 63 (heldNow s), 0)]
  | off => reg s off

/-- PERF (R433). -/
def readPerf (s : State) (off : Nat) : W32 :=
  if off < 0xE030 then
    let c := (off - 0xE000) / 8
    if off % 8 = 0 then BitVec.ofNat 32 (lget s.perf.frz 0 c) else word [(lget s.perf.caps 0 c, 0)]
  else if off = 0xE030 then BitVec.ofNat 32 s.perf.slots
  else if off = 0xE034 then word [(lget s.perf.caps 0 6, 0)]
  else reg s off

/-- The value that the register at an offset reads as (R17, R435); an offset that no register occupies reads 0. Reads with an
effect of their own are operations of the table. -/
def readReg (s : State) (off : Nat) : W32 :=
  if off % 4 ≠ 0 || 0x10000 ≤ off then 0
  else if off < 0x100 then readIdent s off
  else if off < 0x200 then readCtrl s off
  else if off < 0x300 then readReset s off
  else if off < 0x400 then readClock s off
  else if off < 0x800 then readSettings s off
  else if off < 0x1000 then readEvents s off
  else if off < 0x2000 then readStream s off
  else if off < 0x3000 then readSeam s off
  else if off < 0x3400 then readBench s off
  else if off < 0x3C00 then reg s off
  else if off < 0x4000 then readRing s off
  else if off < 0x4400 then readArray s off
  else if off < 0x4800 then readAcc s off
  else if off < 0x5000 then readVector s off
  else if off < 0x6000 then readSfu s off
  else if off < 0x7000 then readSpad s off
  else if off < 0x8000 then readFabric s off
  else if off < 0x9000 then (if hasAdapt s then readReduce s off else 0)
  else if off < 0xA000 then readMode s off
  else if off < 0xE000 then 0
  else if off < 0xF000 then readPerf s off
  else if off = 0xF000 then
    word [(b2n (dbgOpen s), 31), (b2n s.fuse.dbgDis, 30), (s.pins.lifecycle % 4, 28), (s.denied, 0)]
  else 0

-- What a write stores (R17).

/-- The bits that a write stores in a register that has no operation of its own: its RW fields. -/
def rwBits (s : State) (off : Nat) : W32 :=
  if 0x1000 ≤ off && off < 0x2000 then (if off % 32 = 0x10 then 0xFFFF0000 else 0)
  else if 0x3020 ≤ off && off < 0x3030 then 0xFFFF
  else if 0x8000 ≤ off && off < 0x8200 then
    if !hasAdapt s then 0
    else
      match off % 256 with
      | 0x00 => 0xFFFFFFFF
      | 0x04 => 0xFFFF07FF
      | 0x08 => 0x07FF07FF
      | 0x0C => 0x000007FF
      | 0x10 => 0x0FFF0FFF
      | 0x14 => 0x0FFF0FFF
      | o => if 0x20 ≤ o && o < 0x50 then 0xFFFFFFFF else 0
  else
    match off with
    | 0x314 => 0x0000003F
    | 0x380 => 0x00000701
    | 0x410 => 0x00000001
    | 0x41C => 0x0000003F
    | 0x810 => 0x0000007F
    | 0x81C => 0x0000003F
    | 0x3000 => 0x0000031F
    | 0x3044 => 0x00003FFF
    | 0x4000 => 0x00000003
    | 0x4004 => 0x0000FF1F
    | 0x4400 => 0x0000000F
    | 0x4408 => 0xFFFFE000
    | 0x440C => 0x0000FFFF
    | 0x4414 => 0x000003FF
    | 0x4808 => 0x000001FF
    | 0x4814 => 0x0000003F
    | 0x5008 => 0x00007FFF
    | 0x5014 => if hasUcode s then 0x000001FF else 0
    | 0x5C00 => 0x0000FF00
    | 0x5C0C => 0x000003FF
    | 0x7004 => 0x00FFFF01
    | 0x7008 => 0x0000FFFF
    | 0x9008 => 0x0000FFFF
    | _ => 0

/-- Whether the sequencer keeps its tables from being written (R237). -/
def seqTablesBusy (s : State) : Bool := decide (1 ≤ s.seq.st) && decide (s.seq.st ≤ 4)

/-- A write of 1 to MB_GO.GO (R446): the command is issued, to be accepted in the next PCLK cycle at the earliest (R447). -/
def mboxGo (s : State) (m : Nat) : State :=
  let b := mboxBase m
  let w0 := reg s b
  let s := setReg s (b + 0x14) (word [(1, 31), (fieldN w0 24 8, 16), (fieldN w0 16 8, 8)])
  { s with mb := { s.mb with st := lupd s.mb.st m fun _ => 1, goT := lupd s.mb.goT m fun _ => pclkOf s + 1 } }

/-- A write to a mailbox's registers (R446, R454). -/
def mboxWrite (s : State) (p : Port) (off : Nat) (val : W32) : State :=
  let m := (off - 0x100) / 32
  let o := off % 32
  if o = 0x18 then s
  else if o = 0x14 then (if bitB val 30 then hostReg s off (reg s off &&& 0xBFFFFFFF) else s)
  else if o = 0x10 && val.getLsbD 0 && portArg p ≠ m then portDenied s p
  else if lget s.mb.st 0 m ≠ 0 then tableBusy s
  else if o < 0x10 then putReg s off val
  else if o = 0x1C then putReg s off (val &&& 0x800000FF)
  else if val.getLsbD 0 then mboxGo s m
  else s

/-- A write of EVT_ROUTE (R427): a reserved code has no route. -/
def routeWrite (s : State) (val : W32) : State :=
  let c := regF s 0x810 0 7
  if (evClass c).isNone then s
  else { s with ev := { s.ev with routeNew := s.ev.routeNew ++ [(c, fieldN val 0 4)] } }

/-- A write of VEC_RCP_DIR that neither arms nor retires: START and LEN of an idle entry (R190). -/
def rcpDirWrite (s : State) (val : W32) : State :=
  let e := dirEntry s
  if e.valid || e.pend || e.checking then tableBusy s
  else
    { s with vec := { s.vec with
      dir := mset s.vec.dir {} (regF s 0x4814 0 6) { e with len := fieldN val 9 10, start := fieldN val 0 9 } } }

/-- What a performed write does to a register that has no operation of its own. -/
def plainWrite (s : State) (p : Port) (off : Nat) (val : W32) : State :=
  if off % 4 ≠ 0 || 0x10000 ≤ off then s
  else if 0x100 ≤ off && off < 0x160 then mboxWrite s p off val
  else if off = 0x814 then routeWrite s val
  else if off = 0x4818 then (if bitB val 27 || bitB val 26 then s else rcpDirWrite s val)
  else if off = 0x31C then (if bitB val 31 then s else putReg s 0x31C (val &&& 0x00FFFFE0))
  else if 0x3080 ≤ off && off < 0x30C0 then
    if seqTablesBusy s then tableBusy s else hostReg s off (val &&& 0x80003FFF)
  else if 0x3400 ≤ off && off < 0x3C00 then
    if seqTablesBusy s then tableBusy s else tdHost s ((off - 0x3400) / 32) (off % 32 / 4) val
  else
    let m := rwBits s off
    let c := w1cBits off
    if m = 0 && c &&& val = 0 then s
    else hostReg s off ((reg s off &&& ~~~m &&& ~~~(c &&& val)) ||| (val &&& m))

/-- Whether a register has writes that are operations of the table. -/
def ownRow (off : Nat) : Bool :=
  [0x1C0, 0x1D8, 0x20C, 0x218, 0x21C, 0x224, 0x300, 0x320, 0x394, 0x800, 0x804, 0x808, 0x80C, 0x830, 0x3048, 0x3050,
    0x4024, 0x480C, 0x4810, 0x4828, 0x4F10, 0x500C, 0x5010, 0x5018, 0x5020, 0x5C10, 0x5C14, 0x6044, 0x6064, 0x7058, 0x8060,
    0x8160, 0xE044].contains off
    || (decide (0x6000 ≤ off) && decide (off < 0x6040)) || (decide (0x9010 ≤ off) && decide (off < 0x9028))
    || (decide (0x1000 ≤ off) && decide (off < 0x2000) && off % 32 == 0x14)

end Sys2Proof.Machine
end

