-- ==== Sys2Proof/Machine/RegOps.lean ====
section
/-! DEFINITION. The writes and reads of registers that are operations of their own: tables, directories, regions, the cache,
counters, clocks, the watchdog, events (the register rules of chapters 3 to 18). Each is what the access does once its port
may make it. -/
namespace Sys2Proof.Machine

-- Clearing of counts.

/-- A field of a held register cleared. -/
def clearF (s : State) (off lo len : Nat) : State := setRegF s off lo len 0
/-- Held registers cleared. -/
def clearRegs (l : List Nat) (s : State) : State := eachS l (fun o s => setReg s o 0) s

-- The gate tables (R131, R150).

/-- GP_TBL_ADDR after an access: c0, c1, c2, then the next segment, around after the last. -/
def gpAddrNext (s : State) : State :=
  let c := regF s 0x5C0C 0 2
  let k := regF s 0x5C0C 2 6
  setRw s 0x5C0C 0xFF (BitVec.ofNat 32 (if c = 2 then (k + 1) % 64 * 4 else k * 4 + c + 1))

/-- A coefficient of a gate table stored; a failed parity goes with the old word. -/
def gpTblPut (s : State) (t bank k c : Nat) (v : W32) : State :=
  let key := t * 512 + bank * 256 + k * 4 + c
  { s with gate := { s.gate with
    tbl := mset s.gate.tbl none key (some v), badTbl := s.gate.badTbl.filter (· != key) } }

/-- A write of GP_TBL_DATA that is performed; COEF = 3 names no coefficient. -/
def gpTblStore (s : State) (v : W32) : State :=
  let a := reg s 0x5C0C
  if fieldN a 0 2 = 3 then s
  else gpAddrNext (gpTblPut s (fieldN a 9 1) (fieldN a 8 1) (fieldN a 2 6) (fieldN a 0 2) v)

/-- Whether GP_TBL_ADDR names the active bank of its table, or one whose switch is pending (R131). -/
def gpTblBusy (s : State) : Bool :=
  let a := reg s 0x5C0C
  let tanh := fieldN a 9 1 == 1
  fieldN a 8 1 == b2n (if tanh then s.gate.bankTnh else s.gate.bankSig) || (if tanh then s.gate.pendTnh else s.gate.pendSig)

/-- A write of GP_TBL_DATA (R131). -/
def gpTblWrite (s : State) (v : W32) : State :=
  if fieldN (reg s 0x5C0C) 0 2 ≠ 3 && gpTblBusy s then tableBusy s else gpTblStore s v

/-- A read of GP_TBL_DATA. -/
def gpTblRead (s : State) (p : Port) : State :=
  if regF s 0x5C0C 0 2 = 3 then setRdata s p 0 else gpAddrNext (setRdata s p (gpTblWord s))

/-- A switch of a gate table's bank requested (R131). -/
def gpSwap (s : State) (tanh : Bool) : State :=
  if tanh then { s with gate := { s.gate with pendTnh := true } } else { s with gate := { s.gate with pendSig := true } }

-- Recipes (R190, R192).

/-- VEC_RCP_ADDR after an access. -/
def rcpAddrNext (s : State) : State := setRw s 0x4808 0x1FF (reg s 0x4808 + 1)

/-- Whether an address lies in an entry that is VALID, PEND or under check. -/
def rcpInUse (s : State) (a : Nat) : Bool :=
  s.vec.dir.any fun e =>
    (e.2.valid || e.2.pend || e.2.checking) && decide (e.2.start ≤ a) && decide (a < e.2.start + e.2.len)

/-- An instruction stored. -/
def rcpPut (s : State) (a : Nat) (v : W64) : State :=
  { s with vec := { s.vec with recipe := mset s.vec.recipe 0 a v, badRcp := s.vec.badRcp.filter (· != a) } }

/-- A write of VEC_RCP_DATA_LO: held. -/
def rcpLoWrite (s : State) (v : W32) : State := { s with vec := { s.vec with loHold := v } }

/-- A read of VEC_RCP_DATA_LO: the low word, the high word captured. -/
def rcpLoRead (s : State) (p : Port) : State :=
  let w := mget s.vec.recipe 0 (regF s 0x4808 0 9)
  setRdata { s with vec := { s.vec with hiCap := BitVec.ofNat 32 (w.toNat >>> 32) } } p (BitVec.ofNat 32 w.toNat)

/-- A write of VEC_RCP_DATA_HI that is performed: the whole instruction. -/
def rcpHiStore (s : State) (v : W32) : State :=
  rcpAddrNext (rcpPut s (regF s 0x4808 0 9) (BitVec.ofNat 64 (s.vec.loHold.toNat + v.toNat <<< 32)))

/-- A write of VEC_RCP_DATA_HI (R190). -/
def rcpHiWrite (s : State) (v : W32) : State := if rcpInUse s (regF s 0x4808 0 9) then tableBusy s else rcpHiStore s v

/-- A read of VEC_RCP_DATA_HI. -/
def rcpHiRead (s : State) (p : Port) : State := rcpAddrNext (setRdata s p s.vec.hiCap)

/-- An entry of the directory replaced. -/
def setDir (s : State) (n : Nat) (e : RcpEntry) : State := { s with vec := { s.vec with dir := mset s.vec.dir {} n e } }

/-- A write of VEC_RCP_DIR with ARM (R190): an idle entry takes START and LEN, and its check begins. -/
def rcpArm (s : State) (val : W32) : State :=
  let n := regF s 0x4814 0 6
  let e := dirEntry s
  if e.valid || e.pend || e.checking then tableBusy s
  else
    let s := setDir s n { start := fieldN val 0 9, len := fieldN val 9 10, checking := true }
    { s with vec := { s.vec with
      checking := s.vec.checking ++ [n], checkT := if s.vec.checking.isEmpty then pclkOf s else s.vec.checkT } }

/-- A write of VEC_RCP_DIR with RETIRE (R190): a VALID entry becomes idle at the next boundary; any other entry takes the
write of its START and LEN. -/
def rcpRetire (s : State) (val : W32) : State :=
  let n := regF s 0x4814 0 6
  let e := dirEntry s
  if e.valid then setDir s n { e with retire := true } else rcpDirWrite s val

/-- A write of VEC_RCP_DIR. -/
def rcpDirAny (s : State) (val : W32) : State :=
  if bitB val 27 then rcpArm s val else if bitB val 26 then rcpRetire s val else rcpDirWrite s val

/-- The check of the first armed recipe ends (R190); it reads the recipe's words, and meets their failures of parity (R423). -/
def rcpChecked (s : State) (n : Nat) (e : RcpEntry) : State :=
  let s := ramParities s 2 ((natsFrom e.start (min e.len (512 - e.start))).filter s.vec.badRcp.contains)
  let s := { s with vec := { s.vec with checking := s.vec.checking.drop 1, checkT := pclkOf s } }
  match checkRecipe s e with
  | none => setDir s n { e with checking := false, pend := true }
  | some (why, a) =>
    let s := raise (setDir s n { e with checking := false, err := true }) 0x0C n
    if bitB (reg s 0x481C) 31 then s else setReg s 0x481C (word [(1, 31), (n, 20), (why, 16), (a % 512, 0)])

-- The special function unit (R202, R205, R212).

/-- SFU_TBL_ADDR after an access. -/
def sfuAddrNext (s : State) : State :=
  let w := regF s 0x5008 0 10
  setRw s 0x5008 0x3FF (if w = 774 then 0 else reg s 0x5008 + 1)

/-- A word of a slot's bank stored. -/
def sfuPut (s : State) (slot bank w : Nat) (v : W32) : State :=
  let k := sfuKey slot bank w
  { s with sfu := { s.sfu with tbl := mset s.sfu.tbl none k (some v), badTbl := s.sfu.badTbl.filter (· != k) } }

/-- A write of SFU_TBL_DATA that is performed; WORD above 774 names nothing. -/
def sfuTblStore (s : State) (v : W32) : State :=
  let w := regF s 0x5008 0 10
  if 775 ≤ w then s else sfuAddrNext (sfuPut s (regF s 0x5008 11 4) (regF s 0x5008 10 1) w v)

/-- A write of SFU_TBL_DATA (R202). -/
def sfuTblWrite (s : State) (v : W32) : State :=
  let slot := regF s 0x5008 11 4
  if regF s 0x5008 0 10 < 775 && (regF s 0x5008 10 1 == sfuBank s slot || s.sfu.pend.testBit slot) then tableBusy s
  else sfuTblStore s v

/-- A read of SFU_TBL_DATA. -/
def sfuTblRead (s : State) (p : Port) : State :=
  let w := regF s 0x5008 0 10
  if 775 ≤ w then setRdata s p 0
  else sfuAddrNext (setRdata s p (sfuStored s (regF s 0x5008 11 4) (regF s 0x5008 10 1) w))

/-- Bank switches requested (R202). -/
def sfuSwapReq (s : State) (val : W32) : State := { s with sfu := { s.sfu with pend := s.sfu.pend ||| fieldN val 0 16 } }

/-- Whether a bank of a slot names microcode program p. -/
def ucNamed (s : State) (slot bank p : Nat) : Bool :=
  let h := sfuStored s slot bank 768
  hKind h == 2 && hSel h == p

/-- Whether microcode program p is in use (R205). -/
def ucInUse (s : State) (p : Nat) : Bool :=
  (natsTo 16).any fun slot =>
    let b := sfuBank s slot
    ucNamed s slot b p || (s.sfu.pend.testBit slot && ucNamed s slot (1 - b) p)

/-- SFU_UC_ADDR after an access. -/
def ucAddrNext (s : State) : State := setRw s 0x5014 0x1FF (reg s 0x5014 + 1)

/-- A microcode step stored. -/
def ucPut (s : State) (a : Nat) (v : W32) : State :=
  { s with sfu := { s.sfu with uc := mset s.sfu.uc 0 a v, badUc := s.sfu.badUc.filter (· != a) } }

/-- A write of SFU_UC_DATA that is performed. -/
def ucStore (s : State) (v : W32) : State := ucAddrNext (ucPut s (regF s 0x5014 0 9) v)

/-- A write of SFU_UC_DATA (R205). -/
def ucWrite (s : State) (v : W32) : State := if ucInUse s (regF s 0x5014 0 9 / 16) then tableBusy s else ucStore s v

/-- A read of SFU_UC_DATA. -/
def ucRead (s : State) (p : Port) : State := ucAddrNext (setRdata s p (mget s.sfu.uc 0 (regF s 0x5014 0 9)))

-- The program RAM (R237, R239).

/-- BENCH_PRAM_ADDR after an access. -/
def pramNext (s : State) : State := setRw s 0x3044 0x3FFF (reg s 0x3044 + 1)

/-- A program word stored. -/
def pramPut (s : State) (a : Nat) (v : W32) : State :=
  { s with seq := { s.seq with pram := mset s.seq.pram 0 a v, badPram := s.seq.badPram.filter (· != a) } }

/-- A write of BENCH_PRAM_DATA that is performed. -/
def pramStore (s : State) (v : W32) : State := pramNext (pramPut s (regF s 0x3044 0 14) v)

/-- A write of BENCH_PRAM_DATA (R237). -/
def pramWrite (s : State) (v : W32) : State := if seqTablesBusy s then tableBusy s else pramStore s v

/-- A read of BENCH_PRAM_DATA. -/
def pramRead (s : State) (p : Port) : State := pramNext (setRdata s p (mget s.seq.pram 0 (regF s 0x3044 0 14)))

-- Regions and the cache (R250, R266, R267, R274).

/-- Whether the region table is sound: the conditions of R250, for a table given by its words. -/
def regionsOk (top : Nat) (ws : List W32) : Bool :=
  ws.all (fun w =>
    decide (fieldN w 29 2 < 2) && !(bitB w 28 && bitB w 27)
      && (!bitB w 28 || (fieldN w 12 11 % 8 == 0 && fieldN w 0 12 % 8 == 0))
      && (!bitB w 31 || decide (regionBase w + regionSize w ≤ top)))
    && decide ((ws.filter fun w => bitB w 31 && bitB w 27).length ≤ 1)

/-- A write of SPAD_REGIONn (R250). -/
def regionWrite (s : State) (n : Nat) (val : W32) : State :=
  let v := val &&& 0xF87FFFFF
  if !seqStopped s || !(pagesDrawn s).isEmpty then tableBusy s
  else if regionsOk (cacheStart s) ((natsTo 16).map fun i => if i = n then v else regionReg s i) then setReg s (0x6000 + 4 * n) v
  else raise s 0x21 n

/-- Whether something keeps the cache area from beginning at byte `a` (R267): an enabled region, or an enabled unpooled ring. -/
def cacheBlocked (s : State) (a : Nat) : Bool :=
  ((natsTo 16).any fun i => bitB (regionReg s i) 31 && decide (a < regionBase (regionReg s i) + regionSize (regionReg s i)))
    || s.rings.any fun e => e.2.en && !e.2.pooled && decide (a < e.2.base + e.2.nrows * rowBytes e.2)

/-- Whether a channel is running. -/
def chanRunning (s : State) : Bool := s.chans.any fun e => decide (1 ≤ e.2.st) && decide (e.2.st ≤ 3)

/-- Scratchpad bytes from `a` lose their contents: they are as bytes never written (log 6), and no buffered block of them stays
(R253). -/
def spadForget (s : State) (a : Nat) : State :=
  let m := spadBytes s
  let drop (b : XBuf) : XBuf := if a < b.blk + 16384 then { b with valid := false } else b
  { s with spad := { s.spad with
    xFeed := drop s.spad.xFeed, xDerr := drop s.spad.xDerr
    data := mclear s.spad.data a m, side := mclear s.spad.side (a / 32) (m / 32)
    cls := mclear s.spad.cls (a / 8) (m / 8), flips := mclear s.spad.flips (a / 8) (m / 8) } }

/-- A write of SPAD_CACHE (R267): a change of the area invalidates every line, and the bytes of both areas hold nothing. -/
def cacheSizeWrite (s : State) (val : W32) : State :=
  let c := fieldN val 0 3
  let a := spadBytes s - c * 262144
  if 4 < c then s
  else if chanRunning s || (c != 0 && cacheBlocked s a) then tableBusy s
  else if c = regF s 0x6044 0 3 then s
  else setReg (cacheClear (spadForget s (min a (cacheStart s)))) 0x6044 (BitVec.ofNat 32 c)

/-- The counters of the scratchpad cleared (R274). -/
def spadClear : State → State := clearRegs [0x6048, 0x604C, 0x6050, 0x6054, 0x605C, 0x6060]

-- Channels and the memory port (R285, R299, R302, R307).

/-- A write of CH_BELL.ADD (R285). -/
def bellAdd (s : State) (c : Nat) (val : W32) : State :=
  updChan s c fun h => { h with bell := satAdd 0xFFFF h.bell (fieldN val 0 16) }

/-- A write of MEMP_CTRL (R302). -/
def mempCtrlWrite (s : State) (val : W32) : State :=
  let pooled := s.rings.any fun e => e.2.en && e.2.pooled
  if fieldN val 0 1 ≠ regF s 0x1C0 0 1 && pooled then tableBusy s else setReg s 0x1C0 (val &&& 0x000FFC01)

/-- CLOSED cleared (R299). -/
def mempReopen (s : State) : State := { s with memp := { s.memp with closed := false } }

/-- The counters of the memory port and of every channel cleared (R307). -/
def mempClear (s : State) : State :=
  let s := foldTo 128 (fun c s => clearF (setReg s (chReg c 0x18) 0) (chReg c 0x1C) 16 16) s
  clearF (clearRegs [0x1CC, 0x1D0] s) 0x1D4 0 16

-- Fabric, mode, reduction (R336, R337, R360).

/-- The counters of the fabric cleared. -/
def fabClear : State → State := clearRegs [0x7048, 0x704C, 0x7050, 0x7054]

/-- A write of MODE_MEMBERSk (R337). -/
def membersWrite (s : State) (k : Nat) (val : W32) : State :=
  if s.mode.lead ≠ 0 then tableBusy s else setReg s (0x9010 + 4 * k) val

/-- The counters of a reduction group cleared. -/
def redClear (k : Nat) : State → State := clearRegs [0x8054 + 256 * k, 0x8058 + 256 * k]

-- Clocks and supply (R389, R390, R396, R402, R403).

/-- A write of CLK_CTRL.GATE: a 0 wakes the tile. -/
def gateCtrl (s : State) (val : W32) : State :=
  let s := setReg s 0x300 (val &&& 1)
  if val.getLsbD 0 then s else wakeUp s

/-- A write of CLK_DUMP with GO: a dump begins (R396), unless one is in progress. -/
def dumpGo (s : State) (val : W32) : State :=
  let s := setReg s 0x31C (val &&& 0x00FFFFE0)
  if s.clk.dump.isSome then s
  else { s with clk := { s.clk with dump := some (val.toNat, mclkOf s), dumpErr := false } }

/-- A write of CLK_DUMP. -/
def dumpWrite (s : State) (val : W32) : State :=
  if bitB val 31 then dumpGo s val else setReg s 0x31C (val &&& 0x00FFFFE0)

/-- The end of a dump (R396): 256 bytes with fresh checks, or ERR. -/
def dumpEnd (s : State) (v : Nat) : State :=
  let band := v >>> 22 % 4
  let off := v >>> 5 % 131072 * 32
  let s := { s with clk := { s.clk with dump := none } }
  if band = 3 || !lget s.clk.trimmed false band || !spadFits s off 256 then { s with clk := { s.clk with dumpErr := true } }
  else
    let bs := (natsTo 16).flatMap fun i => bytesLE 16 (mget s.clk.trims 0 (16 * band + i)).toNat
    dmaFreshBytes s (off / 32) 8 bs

/-- A band's trim set marked not valid, its re-trim abandoned, CAP lifted with it (R402). -/
def untrim (s : State) (band : Nat) : State :=
  let s := { s with clk := { s.clk with trimmed := lupd s.clk.trimmed band fun _ => false } }
  if s.clk.retrim && s.clk.retrimBand = band then
    { s with clk := { s.clk with retrim := false, cap := false, retrimSensor := 0, retrimGot := [] } }
  else s

/-- The stretch counters cleared. -/
def stretchClear : State → State := clearRegs [0x308, 0x30C, 0x310]

/-- SUP_CMD.CLR (R403). -/
def supClear (s : State) : State := setReg { s with sup := { s.sup with min := 255 } } 0x390 0

-- The watchdog and the reset controller (R413 to R415).

/-- A write of RST_WDOG_KICK (R413). -/
def kick (s : State) (p : Port) (val : W32) : State :=
  let may := p == .scp || (p == .hcp && regF s 0x218 1 1 == 1)
  if may && fieldN val 0 16 == 0x5AC3 then dogRestart s else portDenied s p

/-- A write of RST_WDOG_CTRL (R414): the write that sets EN restarts the count; once EN is 1 it stays, and a write of PERIOD is
not performed. -/
def dogCtrl (s : State) (val : W32) : State :=
  if regF s 0x218 0 1 = 1 then
    let s := setRegF s 0x218 1 1 (fieldN val 1 1)
    if fieldN val 16 16 = regF s 0x218 16 16 then s else tableBusy s
  else
    let s := setReg s 0x218 (val &&& 0xFFFF0003)
    if val.getLsbD 0 then dogRestart s else s

/-- A write of RST_CTRL (R415). -/
def rstCtrl (s : State) (val : W32) : State :=
  let v := fieldN val 0 10
  if v = 0 || 1000 < v then s else setReg s 0x20C (BitVec.ofNat 32 v)

-- Events (R428, R429, R432, R433).

/-- The bits of EVT_PEND that a port's write may clear: not those with SECURE = 1 for HCP, nor those raised in the PCLK cycle of the
write (R19, R428). -/
def mayClear (s : State) (p : Port) (c : Nat) : Bool :=
  (p != .hcp || !(routeOf s c).testBit 1) && decide (mget s.ev.setAt 0 c < pclkOf s)

/-- A write of EVT_PENDk (R428). -/
def pendClear (s : State) (p : Port) (k : Nat) (val : W32) : State :=
  let m := (natsTo 32).foldl (fun a i => if val.getLsbD i && mayClear s p (32 * k + i) then a ||| (1#128 <<< (32 * k + i)) else a) 0#128
  { s with ev := { s.ev with pend := s.ev.pend &&& ~~~m } }

/-- EVT_CMD.CLR_LOG (R432). -/
def logClear (s : State) : State :=
  { s with ev := { s.ev with
    log := s.ev.log.map fun e => (e.1, { e.2 with valid := false })
    overwritten := 0, dropped := 0, count := 0, head := 0 } }

/-- A read of EVT_LOG_LO (R432). -/
def logLoRead (s : State) (p : Port) : State :=
  let n := regF s 0x81C 0 6
  let e := mget s.ev.log {} n
  setRdata { s with ev := { s.ev with hiCap := logHi e, hiSel := n, hiOk := true } } p e.time

/-- A read of EVT_LOG_HI (R429): the entry that was captured counts as read, unless another has come into its place. -/
def logHiRead (s : State) (p : Port) : State :=
  setRdata { s with ev := { s.ev with log := mupd s.ev.log {} s.ev.hiSel fun e => { e with unread := e.unread && !s.ev.hiOk } } }
    p s.ev.hiCap

/-- A read of PERF LO register c, 6 being the slot count (R433). -/
def perfRead (s : State) (p : Port) (c : Nat) : State :=
  let n := if c = 6 then s.perf.slots else lget s.perf.frz 0 c
  setRdata { s with perf := { s.perf with caps := lupd s.perf.caps c fun _ => n >>> 32 } } p (BitVec.ofNat 32 n)

/-- PERF_CMD.CLR_FREEZE (R433). -/
def freezeClear (s : State) : State := { s with perf := { s.perf with frz := [0, 0, 0, 0, 0, 0], slots := 0 } }

/-- A read of ACC_META_LO (R121): the upper half is captured; an error of the metadata is met (R422). -/
def metaRead (s : State) (p : Port) : State :=
  let r := regF s 0x4414 0 10
  let s := accDecode s r (131072 + r)
  setRdata { s with acc := { s.acc with hiCap := metaHi (accMeta s r) } } p (metaLo s)

-- Any write (R367).

/-- The write of a command register: each of its bits that is 1 acts. -/
def cmdBits (val : W32) (l : List (Nat × (State → State))) (s : State) : State :=
  l.foldl (fun s e => if val.getLsbD e.1 then e.2 s else s) s

/-- A performed write of a port to any register (R17, R367). -/
def anyWrite (s : State) (p : Port) (off : Nat) (val : W32) : State :=
  if 0x6000 ≤ off && off < 0x6040 && off % 4 = 0 then regionWrite s ((off - 0x6000) / 4) val
  else if 0x9010 ≤ off && off < 0x9028 && off % 4 = 0 then membersWrite s ((off - 0x9010) / 4) val
  else if 0x1000 ≤ off && off < 0x2000 && off % 32 = 0x14 then bellAdd s ((off - 0x1000) / 32) val
  else
    match off with
    | 0x1C0 => mempCtrlWrite s val
    | 0x1D8 => cmdBits val [(1, mempReopen), (0, mempClear)] s
    | 0x20C => rstCtrl s val
    | 0x218 => dogCtrl s val
    | 0x21C => kick s p val
    | 0x224 => cmdBits val [(0, clearRegs [0x214])] s
    | 0x300 => gateCtrl s val
    | 0x31C => dumpWrite s val
    | 0x320 => cmdBits val [(2, (untrim · 2)), (1, (untrim · 1)), (0, stretchClear)] s
    | 0x394 => cmdBits val [(0, supClear)] s
    | 0x800 => pendClear s p 0 val
    | 0x804 => pendClear s p 1 val
    | 0x808 => pendClear s p 2 val
    | 0x80C => pendClear s p 3 val
    | 0x830 => cmdBits val [(0, logClear)] s
    | 0x3048 => pramWrite s val
    | 0x3050 => cmdBits val [(0, clearRegs [0x3018, 0x301C])] s
    | 0x4024 => cmdBits val [(0, clearRegs [0x400C])] s
    | 0x480C => rcpLoWrite s val
    | 0x4810 => rcpHiWrite s val
    | 0x4818 => rcpDirAny s val
    | 0x4828 => cmdBits val [(1, clearRegs [0x4824]), (0, clearRegs [0x4820])] s
    | 0x4F10 => cmdBits val [(1, clearRegs [0x4F0C]), (0, clearRegs [0x4F08])] s
    | 0x500C => sfuTblWrite s val
    | 0x5010 => sfuSwapReq s val
    | 0x5018 => if hasUcode s then ucWrite s val else s
    | 0x5020 => cmdBits val [(0, clearRegs [0x501C])] s
    | 0x5C10 => gpTblWrite s val
    | 0x5C14 => cmdBits val [(1, (gpSwap · true)), (0, (gpSwap · false))] s
    | 0x6044 => if hasCache s then cacheSizeWrite s val else s
    | 0x6064 => cmdBits val [(1, fun s => if hasCache s then cacheClear s else s), (0, spadClear)] s
    | 0x7058 => cmdBits val [(0, fabClear)] s
    | 0x8060 => cmdBits val [(0, fun s => if hasAdapt s then redClear 0 s else s)] s
    | 0x8160 => cmdBits val [(0, fun s => if hasAdapt s then redClear 1 s else s)] s
    | 0xE044 => cmdBits val [(1, clearRegs [0xE038, 0xE03C, 0xE040]), (0, freezeClear)] s
    | off => plainWrite s p off val

-- Accesses of one PCLK cycle (R436).

/-- The order in which the ports' writes to one register are performed. -/
def portRank (p : Port) : Nat := match p with | .scp => 0 | .dbg => 1 | .hcp => 2

/-- Whether the register is a mailbox's MB_GO. -/
def isGo (off : Nat) : Bool := decide (0x100 ≤ off) && decide (off < 0x160) && off % 32 == 0x10

/-- The register that a write of a data register moves on, or MB_STATUS, which a write of MB_GO changes; for any other register, itself. -/
def addrOf (off : Nat) : Nat :=
  match off with
  | 0x110 => 0x114
  | 0x130 => 0x134
  | 0x150 => 0x154
  | 0x3048 => 0x3044
  | 0x4810 => 0x4808
  | 0x500C => 0x5008
  | 0x5018 => 0x5014
  | 0x5C10 => 0x5C0C
  | o => o

/-- The register at `off` before the first write to it in the present PCLK cycle. -/
def beforeOf (s : State) (off : Nat) : Before :=
  match (cycNow s).before.find? fun b => b.off == off with
  | some b => b
  | none => ⟨off, readReg s off, reg s off, reg s (addrOf off)⟩

/-- The writes performed in this PCLK cycle that a write of port p to `off` should have come before, in their order. The doorbells'
additions are the same in every order. -/
def laterWrites (s : State) (p : Port) (off : Nat) : List PortWrite :=
  if 0x1000 ≤ off && off < 0x2000 && off % 32 = 0x14 then []
  else [Port.dbg, Port.hcp].flatMap fun q =>
    (cycNow s).wrote.filter fun w => w.off == off && w.port == q && w.done && decide (portRank p < portRank q)

/-- What later writes to `off` did taken back as far as a write before them can see it: the register, the address of its data, and
a command, an arm or a dump that they began. -/
def takeBack (off : Nat) (later : List PortWrite) (s : State) : State :=
  let b := beforeOf s off
  let s := hostReg s off b.held
  let s := if addrOf off = off then s else putReg s (addrOf off) b.addr
  if off = 0x4818 && later.any (bitB ·.val 27) then
    let n := regF s 0x4814 0 6
    setDir { s with vec := { s.vec with checking := s.vec.checking.filter (· != n) } } n { dirEntry s with checking := false }
  else if isGo off && later.any (·.val.getLsbD 0) then
    { s with mb := { s.mb with st := lupd s.mb.st ((off - 0x100) / 32) fun _ => 0 } }
  else if off = 0x31C && later.any (bitB ·.val 31) then
    match s.clk.dump with
    | some d => if d.2 / 4 = pclkOf s then { s with clk := { s.clk with dump := none } } else s
    | none => s
  else s

/-- Whether a write `f` is not performed: it is the cause of an event. -/
def refuses (f : State → State) (s : State) : Bool := !(f { s with ev := { s.ev with due := [] } }).ev.due.isEmpty

/-- A write of a port to a register in this PCLK cycle noted: `s` before it, `u` after it, and whether it was performed. -/
def noteWrite (p : Port) (off : Nat) (val : W32) (done : Bool) (s u : State) : State :=
  let c := cycNow u
  { u with cyc := { c with
    wrote := c.wrote ++ [⟨off, p, val, done⟩]
    before := if c.before.any (·.off == off) then c.before else c.before ++ [beforeOf s off] } }

/-- A write `f` of `val` by port p in the order of R436: those of the same PCLK cycle that belong after it are performed again. -/
def inOrder (p : Port) (off : Nat) (val : W32) (f : State → State) (s : State) : State :=
  let later := laterWrites s p off
  let r := takeBack off later s
  if later.isEmpty || refuses f r then noteWrite p off val (!refuses f s) s (f s)
  else eachS later (fun w s => anyWrite s w.port w.off w.val) (noteWrite p off val true s (f r))

/-- A write access of a port (R20, R435 to R437). -/
def accessW (p : Port) (off : Nat) (val : W32) (f : State → State) (s : State) : State := access p off (inOrder p off val f) s

/-- What a read of the register at `off` by port p returns in the present PCLK cycle (R20, R435 to R437): its value before the writes of
the cycle; 0 where a level reset holds the access, the debug port is closed, or HCP may not reach the register. The table of commands has
no row for the read of a register that a read leaves as it is. -/
def portRead (s : State) (p : Port) (off : Nat) : W32 :=
  if accessHeld s || (p == .dbg && !dbgOpen s) || (p == .hcp && scpOnly off) then 0 else (beforeOf s off).rd

/-- A read access of a port: it returns the value before the writes of its PCLK cycle (R436). -/
def accessR (p : Port) (off : Nat) (f : State → State) (s : State) : State :=
  access p off (fun s =>
    if (cycNow s).wrote.any (·.off == off) then setRdata (f s) p (beforeOf s off).rd else f s) s

/-- An access to a data register: a write of `wr`, or a read. -/
def accessData (p : Port) (off : Nat) (wr : Option W32) (write : State → W32 → State) (read : State → State) (s : State) : State :=
  match wr with
  | some v => accessW p off v (fun s => write s v) s
  | none => accessR p off read s

/-- Whether a write is of a register that has writes of its own among the operations. -/
def hasOwnWrite (off : Nat) (val : W32) : Bool :=
  ownRow off || (off == 0x31C && bitB val 31) || (off == 0x4818 && (bitB val 27 || bitB val 26))

end Sys2Proof.Machine
end

