-- ==== Sys2Proof/Machine/CmdOps.lean ====
section
/-! DEFINITION. Commands (R445 to R452): acceptance and its checks, and what each command does once it is accepted. A body
answers by completing the command, or by leaving whoever waits with the operation that completes it later. -/
namespace Sys2Proof.Machine

-- Arguments (R447, R450).

/-- Whether every bit that a command does not assign is 0: the assigned bits of ARG0 to ARG3. -/
def argsOk (w : CmdWords) (m0 m1 m2 m3 : Nat) : Bool :=
  let clean (x : W32) (m : Nat) : Bool := x &&& ~~~(BitVec.ofNat 32 m) == 0
  clean w.w0 (m0 + 0xFFFF0000) && clean w.w1 m1 && clean w.w2 m2 && clean w.w3 m3

/-- ARG0's lowest `n` bits. -/
def arg0 (w : CmdWords) (n : Nat) : Nat := fieldN w.w0 0 n

/-- The first check that fails decides a command's status (R447): pairs of a failing condition and a status, and what the
command does when none fails. -/
def firstFail (l : List (Bool × Nat)) (s : State) (c : Cli) (f : State → State) : State :=
  match l.find? (·.1) with
  | some e => complete s c e.2 0
  | none => f s

/-- Whether a slot-timed unit accepts no work (R410). -/
def slotUnitHeld (s : State) : Bool := (natsTo 7).any fun u => unitHeld s u

-- STREAM (R259, R281, R302).

/-- ARM. -/
def armBody (s : State) (c : Cli) (w : CmdWords) : State :=
  let k := arg0 w 7
  let h := chan s k
  let a : ArmReq := ⟨fieldN w.w1 5 27 * 32 + fieldN w.w2 0 16 * 4294967296, fieldN w.w2 16 4, fieldN w.w3 0 16⟩
  firstFail [(!argsOk w 0x7F 0xFFFFFFE0 0xFFFFF 0xFFFF, 2), (h.st == 4 || h.st == 5 || unitHeld s 8, 1)] s c fun s =>
    if h.pend.isSome then complete (raise s 0x2F k) c 1 0
    else if h.st = 0 then complete (chanStart s k a) c 0 0
    else complete (updChan s k fun h => { h with pend := some a }) c 0 0

/-- STOP of a channel; in FAULT and HALTED it drops a pending arm (R282). -/
def chStopBody (s : State) (c : Cli) (w : CmdWords) : State :=
  let k := arg0 w 7
  let h := chan s k
  firstFail [(!argsOk w 0x7F 0 0 0, 2)] s c fun s =>
    if h.st = 1 || h.st = 2 then
      let s := updChan s k fun h => { h with st := 3, pend := none, stopCli := h.stopCli ++ [c] }
      chanSettle (chanStopTo s k (h.stopTo.getD ⟨5, 1, 0, 0⟩)) k
    else if h.st = 4 || h.st = 5 then complete (updChan s k fun h => { h with pend := none }) c 0 0
    else complete s c 0 0

/-- RESUME of a channel. An arm whose first kibble has not been checked starts at it as ARM does (R277, R284; DEDUCED, log 133). -/
def chResumeBody (s : State) (c : Cli) (w : CmdWords) : State :=
  let k := arg0 w 7
  let h := chan s k
  firstFail [(!argsOk w 0x7F 0 0 0, 2), ((h.st != 4 && h.st != 5) || s.memp.closed || unitHeld s 8, 1)] s c fun s =>
    complete (updChan s k fun h => { fetchKib h h.posA h.posR h.unchecked (!h.unchecked) with st := 1 }) c 0 0

/-- ABORT of a channel. -/
def chAbortBody (s : State) (c : Cli) (w : CmdWords) : State :=
  let k := arg0 w 7
  firstFail [(!argsOk w 0x7F 0 0 0, 2)] s c fun s =>
    if (chan s k).st = 0 then complete s c 0 0
    else
      let p := chanDropHalf s k
      let s := updChan p.2 k fun h =>
        { h with pend := none, aborting := true, posA := p.1.1, posR := p.1.2, abortCli := h.abortCli ++ [c] }
      chanSettle (chanStopTo s k ⟨0, 0, 0, 0⟩) k

/-- Pages that a ring reserves (R302). -/
def ringReserve (r : Ring) : Nat := if r.en && r.pooled then 2 * pagesPerHalf r else 0

/-- Pages that the other rings reserve, RING_SETs that wait counted as in force. -/
def otherReserve (s : State) (n : Nat) : Nat :=
  s.rings.foldl (fun a e =>
    if e.1 = n then a else a + ringReserve (match e.2.pend with | some p => ringOfWords p.1 | none => e.2)) 0

/-- Whether a RING_SET's words are refused (R259). -/
def ringArgBad (s : State) (w : CmdWords) : Bool :=
  let r := ringOfWords w
  !argsOk w 0x3F 0xFFFF8000 0xFFFFFFFF 1 || r.nrows % 2 == 1 || r.relmode == 3
    || (!r.pooled && decide (cacheStart s < r.base + r.nrows * rowBytes r))
    || (r.pooled && ((poolRegion s).isNone || decide (16 < r.rsize) || decide (8 < pagesPerHalf r)))
    || (r.landing && (r.pooled || !r.psrc || r.relmode == 2))

/-- RING_SET. -/
def ringSetBody (s : State) (c : Cli) (w : CmdWords) : State :=
  let n := arg0 w 6
  let r := ringOfWords w
  let total := otherReserve s n + ringReserve r
  let top := if regF s 0x1C0 0 1 = 1 then 4095 else poolPages s
  firstFail [(ringArgBad s w, 2), (ringBusy s n || (ringOf s n).pend.isSome || unitHeld s 7, 1),
      (r.en && r.pooled && decide (top < total), 4)] s c fun s =>
    setRing s n { ringOf s n with pend := some (w, c) }

-- SEAM (R119).

/-- The layouts of the other seams, BINDs that wait included. -/
def otherSeams (s : State) (k : Nat) : List Seam :=
  (s.seams.filter (·.1 != k)).flatMap fun e =>
    (if e.2.st = 0 then [] else [e.2])
      ++ (match e.2.pend with | some p => if p.isBind then [bindSeam p.w] else [] | none => [])

/-- Whether two row sets overlap without being the same (R114, R119). -/
def partlyOver (a b : Seam) : Bool :=
  !(a.base == b.base && a.nrows == b.nrows) && decide (a.base < b.base + 2 * b.nrows) && decide (b.base < a.base + 2 * a.nrows)

/-- Deep groups of a layout (R109). -/
def deepOf (m : Seam) : Nat := popcount (BitVec.ofNat 8 m.deep) * m.nvec

/-- Deep groups that the other seams hold or wait for. -/
def otherDeep (s : State) (k : Nat) : Nat :=
  s.seams.foldl (fun a e =>
    if e.1 = k then a
    else
      a + (match e.2.pend with
        | some p => if p.isBind then deepOf (bindSeam p.w) else if e.2.st = 0 then 0 else deepOf e.2
        | none => if e.2.st = 0 then 0 else deepOf e.2)) 0

/-- Whether a BIND's words are refused. -/
def bindArgBad (s : State) (k : Nat) (w : CmdWords) : Bool :=
  let m := bindSeam w
  !argsOk w 0xFF 0x0FE0FF7F 0x7F0003FF 0 || decide (1024 < m.base + 2 * m.nrows) || decide (1 < m.sfmt) || decide (4 < m.nelig)
    || (natsTo 8).any (fun g => m.deep.testBit g && decide (m.width ≤ 16 * g)) || (otherSeams s k).any (partlyOver m)

/-- BIND. The rebind of a resident seam requests its eviction (R32, R114). BUSY while another rebind of the seam, a CLOSE included, waits
(R33). -/
def bindBody (s : State) (c : Cli) (w : CmdWords) : State :=
  let k := arg0 w 8
  let m := bindSeam w
  let old := seam s k
  firstFail [(bindArgBad s k w, 2), ((m.deep != 0 && !hasDeep s) || (m.nelig != 0 && !hasAdapt s), 3),
      (old.pend.isSome || old.closePend.isSome || old.st == 2 || old.st == 3 || unitHeld s 1, 1), (decide (256 < otherDeep s k + deepOf m), 4)] s c fun s =>
    let s := updSeam s k fun m => { m with pend := some ⟨true, w, c⟩ }
    if old.st = 4 then startEvict s k else if old.st = 5 then updSeam s k fun m => { m with st := 6 } else s

/-- The checks that every other SEAM command makes first: its words, and the seam bound. -/
def seamArgBad (s : State) (w : CmdWords) : Bool := !argsOk w 0xFF 0 0 0 || (seam s (arg0 w 8)).st == 0

/-- EVICT. -/
def evictBody (s : State) (c : Cli) (w : CmdWords) : State :=
  let k := arg0 w 8
  let st := (seam s k).st
  firstFail [(seamArgBad s w, 2), (st == 2 || st == 3 || unitHeld s 1, 1)] s c fun s =>
    let s := if st = 4 then startEvict s k else if st = 5 then updSeam s k fun m => { m with st := 6 } else s
    complete s c 0 0

/-- RELOAD. -/
def reloadBody (s : State) (c : Cli) (w : CmdWords) : State :=
  let k := arg0 w 8
  let m := seam s k
  firstFail [(seamArgBad s w, 2), (m.st == 2 || m.st == 3 || m.st == 7 || unitHeld s 1, 1)] s c fun s =>
    let s := if m.st = 1 then triggerReload s k
      else if m.st = 4 && (seamPoisoned s k || m.stale) then startReload s k else s
    complete s c 0 0

/-- ZERO. While a BIND or ZERO of the seam waits the model completes it with BUSY (DESIGN CHOICE, log 122). -/
def zeroBody (s : State) (c : Cli) (w : CmdWords) : State :=
  let k := arg0 w 8
  firstFail [(seamArgBad s w, 2), (zeroBusy s k || (seam s k).pend.isSome || unitHeld s 1, 1)] s c fun s =>
    updSeam s k fun m => { m with pend := some ⟨false, w, c⟩ }

/-- ACCEPT. -/
def acceptBody (s : State) (c : Cli) (w : CmdWords) : State :=
  firstFail [(seamArgBad s w, 2), (unitHeld s 1, 1)] s c fun s =>
    complete (updSeam s (arg0 w 8) fun m => { m with stale := false }) c 0 0

/-- SEAM_CLOSE. While another CLOSE of the seam waits R119 names no status; the model completes it with BUSY (DESIGN CHOICE, log 122). One
that comes in the commit window of a step of the seam takes effect in the slot after it (R113). -/
def closeBody (s : State) (c : Cli) (w : CmdWords) : State :=
  let k := arg0 w 8
  firstFail [(seamArgBad s w, 2), ((seam s k).closePend.isSome || unitHeld s 1, 1)] s c fun s =>
    match seamWindow s k with
    | some x => updSeam s k fun m => { m with closePend := some c, closeAt := x + 1 }
    | none => closeNow s k c

-- BENCH (R236).

/-- RUN. -/
def runBody (s : State) (c : Cli) (w : CmdWords) : State :=
  let n := arg0 w 4
  firstFail [(!argsOk w 0xF 0 0 0 || !bitB (reg s (0x3080 + 4 * n)) 31, 2), (s.seq.st != 0 || slotUnitHeld s, 1)] s c fun s =>
    runBegin s n c

/-- HALT. -/
def haltBody (s : State) (c : Cli) (w : CmdWords) : State := firstFail [(!argsOk w 0 0 0 0, 2)] s c fun s => haltCmd s c

/-- STOP of the sequencer. -/
def stopBody (s : State) (c : Cli) (w : CmdWords) : State := firstFail [(!argsOk w 0 0 0 0, 2)] s c fun s => stopCmd s c

/-- RESUME of the sequencer. -/
def resumeBody (s : State) (c : Cli) (w : CmdWords) : State :=
  firstFail [(!argsOk w 0 0 0 0, 2), (s.seq.st != 5 || slotUnitHeld s, 1)] s c fun s => resumeCmd s c

/-- ABORT of the sequencer. -/
def abortBody (s : State) (c : Cli) (w : CmdWords) : State :=
  firstFail [(!argsOk w 0 0 0 0, 2), (s.seq.st != 5, 1)] s c fun s => abortCmd s c

-- STORE (R378).

/-- The byte offset that STORE and FETCH name. -/
def storeOff (w : CmdWords) : Nat := fieldN w.w3 5 17 * 32

/-- Whether `n` bytes from a command's offset pass the scratchpad or reach the cache area. -/
def storeRangeBad (s : State) (w : CmdWords) (n : Nat) : Bool := !spadFits s (storeOff w) ((n + 31) / 32 * 32)

/-- Whether a STORE's words are refused. -/
def storeArgBad (s : State) (w : CmdWords) : Bool :=
  let cls := fieldN w.w1 24 8
  let len := fieldN w.w2 0 13
  !argsOk w 0 0xFFFFFFFF 0x1FFF 0x003FFFE0 || cls == 0 || decide (4096 < len) || (cls == 3 && (len == 0 || len % 128 != 0))
    || storeRangeBad s w len

/-- A status of a STORE or FETCH at acceptance, or what follows. -/
def storeFail (l : List (Bool × Nat)) (s : State) (c : Cli) (f : State → State) : State :=
  match l.find? (·.1) with
  | some e => storeDone s c e.2 0
  | none => f s

/-- STORE: its payload is taken from the scratchpad and verified, and phase 1 begins (R378, R379). -/
def storeBody (s : State) (c : Cli) (w : CmdWords) : State :=
  let key := w.w1
  let len := fieldN w.w2 0 13
  let free := (freeFrames s).length
  let live := (liveFrame s key.toNat).isSome
  storeFail [(storeArgBad s w, 2), (storeBusy s || decide (s.boot.st < 6), 1),
      (free == 0 || (!live && decide (free < 2)), 4), (s.sup.st != 0, 8)] s c
    fun s =>
      let r := storeRead (storeOff w) ((len + 31) / 32) s
      match r.1 with
      | none => storeDone r.2 c 10 0
      | some bs =>
        let s := finishClean r.2
        match targetFrame s none with
        | some f =>
          let j : StoreJob := { fetch := false, key := key, len := len, off := storeOff w, payload := bs.take len, frame := f
                                phase := 1, tries := 0, prev := newest s key.toNat, cli := c, t0 := sclkOf s }
          { s with store := { s.store with job := some j } }
        | none => storeDone s c 4 0

/-- FETCH. -/
def fetchBody (s : State) (c : Cli) (w : CmdWords) : State :=
  let key := w.w1
  let f := liveFrame s key.toNat
  let len := match f with | some f => fLen s f | none => 0
  storeFail [(!argsOk w 0 0xFFFFFFFF 0 0x003FFFE0 || fieldN key 24 8 == 0 || storeRangeBad s w len, 2),
      (storeBusy s || decide (s.boot.st < 6), 1),
      (f.isNone, 11)] s c fun s =>
    let f := f.getD 0
    let s := finishClean s
    let j : StoreJob := { fetch := true, key := key, len := len, off := storeOff w, payload := fPayload s f, frame := f
                          phase := 1, tries := 0, prev := none, cli := c, t0 := sclkOf s }
    { s with store := { s.store with job := some j } }

-- MODE (R326, R327, R345).

/-- Whether a barrier is in progress at the tile. -/
def barrierOn (s : State) : Bool := s.mode.lead != 0 || s.mode.prepared.isSome

/-- MODE_CHANGE. -/
def modeBody (s : State) (c : Cli) (w : CmdWords) : State :=
  let m : ModeWord := ⟨arg0 w 2, fieldN w.w1 0 8, fieldN w.w2 0 16, bitB w.w0 2⟩
  let l := modeMembers s
  let bad := !argsOk w 7 0xFF 0xFFFF 0 || m.rnd == 3 || l.any (fun t => routeFor s t == 7) || l.isEmpty
    || tileId s != leaderId s
  firstFail [(bad, 2), (m.applyRed && !hasAdapt s, 3), (barrierOn s || s.fab.st != 4 || unitHeld s 9, 1)] s c fun s =>
    modeStart s m c

/-- RESURVEY: OKAY when READY is reached; a tile that is ALONE has nothing to survey. -/
def resurveyBody (s : State) (c : Cli) (w : CmdWords) : State :=
  firstFail [(!argsOk w 0 0 0 0, 2), (barrierOn s || s.fab.resurveyCli.isSome || unitHeld s 9, 1)] s c fun s =>
    if s.fab.st = 5 then complete s c 0 0
    else resurvey { s with fab := { s.fab with resurveyCli := some c } }

/-- REDUCE_ROUND. -/
def reduceBody (s : State) (c : Cli) (w : CmdWords) : State :=
  let k := arg0 w 1
  let g := grp s k
  firstFail [(!hasAdapt s, 3), (!argsOk w 1 0 0 0, 2),
      (g.st != 0 || s.mode.prepared.isSome || gRole g != 1 || unitHeld s 16, 1)] s c fun s =>
    complete (roundStart s k) c 0 0

-- WINDOW (R268, R270).

/-- A window entry. -/
def winOf (s : State) (w : Nat) : Win := mget s.wins {} w

/-- Whether an export's range is refused: of a landing export its ring, of any other its bytes. -/
def exportBad (s : State) (w : Nat) (x : Win) : Bool :=
  (!x.rd && !x.wr) ||
    (if x.land then
      x.rd || !x.wr || !((ringOf s x.lring).en && (ringOf s x.lring).landing)
        || s.wins.any fun e => e.1 != w && e.2.mode == 1 && e.2.land && e.2.lring == x.lring
     else !spadFits s (x.base * 2048) (x.size * 2048))

/-- OPEN_EXPORT. -/
def openExportBody (s : State) (c : Cli) (w : CmdWords) : State :=
  let n := arg0 w 4
  let land := bitB w.w3 15
  let x : Win := { mode := 1, rd := bitB w.w0 4, wr := bitB w.w0 5, land := land, gen := (winOf s n).gen, peer := fieldN w.w3 0 8
                   lring := if land then fieldN w.w3 8 6 else 0, base := if land then 0 else fieldN w.w1 0 11
                   size := zeroIs 2048 (fieldN w.w2 0 12), stale := (winOf s n).stale, fin := (winOf s n).fin }
  firstFail [(!argsOk w 0x3F 0x7FF 0xFFF 0xBFFF || exportBad s n x, 2), ((winOf s n).mode != 0 || unitHeld s 7, 1)] s c fun s =>
    complete { s with wins := mset s.wins {} n x } c 0 0

/-- OPEN_IMPORT. -/
def openImportBody (s : State) (c : Cli) (w : CmdWords) : State :=
  let n := arg0 w 4
  let x : Win := { mode := 2, rd := bitB w.w0 4, wr := bitB w.w0 5, gen := fieldN w.w1 16 8, peer := fieldN w.w1 0 8
                   pwin := fieldN w.w1 8 4, size := zeroIs 2048 (fieldN w.w2 0 12), fin := (winOf s n).fin }
  firstFail [(!argsOk w 0x3F 0x00FF0FFF 0xFFF 0 || decide (191 < x.peer), 2), ((winOf s n).mode != 0 || unitHeld s 7, 1)] s c
    fun s => complete { s with wins := mset s.wins {} n x } c 0 0

/-- WINDOW_CLOSE: an import is CLOSED at once; an export waits for its EXPORT_CLOSE_EFFECT. -/
def winCloseBody (s : State) (c : Cli) (w : CmdWords) : State :=
  let n := arg0 w 4
  let x := winOf s n
  firstFail [(!argsOk w 0xF 0 0 0 || x.mode == 0, 2), (x.closing.isSome || unitHeld s 7, 1)] s c fun s =>
    if x.mode = 2 then complete { s with wins := mset s.wins {} n { gen := x.gen, drops := x.drops, stale := x.stale, fin := x.fin } } c 0 0
    else { s with wins := mset s.wins {} n { x with closing := some c } }

-- RESET (R404 to R411).

/-- The source of a RESET command (R404). -/
def resetSrc (o : Origin) : Nat :=
  match o with | .hcp => 1 | .scp => 2 | .image => 2 | .peer => 5 | .dbg => 6

/-- Whether the variant has unit u (R9, R406). -/
def hasUnit (s : State) (u : Nat) : Bool :=
  if u = 16 then hasAdapt s else if decide (10 ≤ u) && decide (u < 16) then hasLink s (u - 10) else true

/-- RESET. -/
def resetBody (s : State) (c : Cli) (w : CmdWords) : State :=
  let u := arg0 w 5
  let src := resetSrc c.o
  let l3 := levelOf s src == 3
  firstFail [(l3 && !hasUnit s u, 3), (!argsOk w 0x1F 0 0 0 || (l3 && decide (16 < u)), 2)] s c fun s =>
    resetRequest s src u (some c)

-- DEBUG (R463).

/-- The word that a DBG_PEEK of the scratchpad returns, with whether it is uncorrectable. -/
def peekSpad (s : State) (off : Nat) : (W32 × Bool) × State :=
  let wd := off / 8
  let at32 (f : W64) : W32 :=
    BitVec.ofNat 32 (ofBytesLE ((natsTo 4).map fun i => spadByte s (off + i)) ^^^ (f.toNat >>> (8 * (off % 8))))
  let f := flipsOf s wd
  match eccKind (wordClass s wd) (popcount f) with
  | 0 => ((at32 0, false), s)
  | 1 => ((at32 0, false), s)
  | 2 => ((at32 f, true), s)
  | _ =>
    let u := useFree s
    match Config.freeEcc u.1 % 3 with
    | 0 => ((at32 f, false), u.2)
    | 1 => ((at32 (f ^^^ Config.freeFlip u.1), false), u.2)
    | _ => ((at32 f, true), u.2)

/-- The entry that a DBG_PEEK of the accumulator memory returns, with whether it is uncorrectable. -/
def peekAcc (s : State) (row j : Nat) : (W32 × Bool) × State :=
  let p := pickCopy s row
  ((accDeliver p.2 p.1 j, decide (1 < popcount (mget p.2.acc.flips 0 (p.1 * 128 + j)))), p.2)

/-- Whether a byte offset of a DBG command lies outside the scratchpad or in the cache area. -/
def dbgOffBad (s : State) (off : Nat) : Bool := !spadFits s off 4

/-- DBG_PEEK. -/
def peekBody (s : State) (c : Cli) (w : CmdWords) : State :=
  let off := fieldN w.w1 2 20 * 4
  if arg0 w 1 = 0 then
    firstFail [(!argsOk w 1 0x003FFFFC 0 0 || dbgOffBad s off, 2), (unitHeld s 7, 1)] s c fun s =>
      let r := peekSpad s off
      complete r.2 c (if r.1.2 then 10 else 0) r.1.1.toNat
  else
    firstFail [(!argsOk w 1 0x1FFFF 0 0, 2), (unitHeld s 1, 1)] s c fun s =>
      let r := peekAcc s (fieldN w.w1 7 10) (fieldN w.w1 0 7)
      complete r.2 c (if r.1.2 then 10 else 0) r.1.1.toNat

/-- DBG_POKE: the sector is read, the word replaced, and the sector written back with a fresh check. -/
def pokeBody (s : State) (c : Cli) (w : CmdWords) : State :=
  let off := fieldN w.w1 2 20 * 4
  firstFail [(arg0 w 1 == 1 || !argsOk w 1 0x003FFFFC 0xFFFFFFFF 0 || dbgOffBad s off, 2), (!seqStopped s || unitHeld s 7, 1)]
    s c fun s =>
      let r := dmaRead s (off / 32)
      let sh := 8 * (off % 32)
      let d := (r.1.data &&& ~~~(BitVec.ofNat 256 (0xFFFFFFFF <<< sh))) ||| BitVec.ofNat 256 (w.w2.toNat <<< sh)
      complete (dmaFresh r.2 (off / 32) d) c 0 0

-- Acceptance (R445 to R452).

/-- Whether an origin may issue a command of an opcode's class (R445); the image issues as SCP (R367). -/
def classOk (s : State) (c : Cli) (op : Nat) : Bool :=
  let scp := c.o == .scp || c.o == .image
  match op / 16 with
  | 2 => true
  | 6 => true
  | 3 => scp
  | 4 => scp || (c.o == .peer && c.src == leaderId s)
  | 7 => c.o == .dbg
  | _ => c.o != .peer

/-- The port class of an origin in PORT_DENIED's ARG (R430). -/
def originArg (o : Origin) : Nat := match o with | .hcp => 0 | .scp => 1 | .image => 1 | .dbg => 2 | .peer => 3

/-- The checks that come before a command's own (R445, R447), and then its body. -/
def judged (op : Nat) (body : State → Cli → CmdWords → State) (s : State) (c : Cli) (w : CmdWords) : State :=
  if s.boot.st < 6 && c.o != .image then complete s c 1 0
  else if !classOk s c op then complete (raise s 0x6B (originArg c.o)) c 5 0
  else body s c w

/-- The waiting command of an origin, in the order of R447: its source, and the state that has taken it. -/
def taken (o : Origin) (w : CmdWords) (s : State) : Option (Cli × State) :=
  if !accepts s || decide (pclkOf s < s.mb.nextT) then none
  else
    let mine (m : Nat) : Bool := mboxDue s m && !mboxRemote s m && mboxWords s m == w
    match o with
    | .scp => if mine 1 then some ({ o := .scp }, mboxTake s 1) else none
    | .dbg => if mine 2 && !mboxDue s 1 then some ({ o := .dbg }, mboxTake s 2) else none
    | .hcp => if mine 0 && !mboxDue s 1 && !mboxDue s 2 then some ({ o := .hcp }, mboxTake s 0) else none
    | .peer =>
      match s.mb.peerQ with
      | p :: q =>
        if p.w == w && !s.mb.peerBusy && !mboxDue s 0 && !mboxDue s 1 && !mboxDue s 2 then
          some ({ o := .peer, src := p.src, tag := p.tag, bcast := p.bcast },
            { s with mb := { s.mb with peerQ := q, peerBusy := true, nextT := pclkOf s + 1 } })
        else none
      | [] => none
    | .image => none

/-- The acceptance of a command of opcode `op` from an origin (R447): nothing where it is not the command that waits (log 21). -/
def accept (op : Nat) (body : State → Cli → CmdWords → State) (o : Origin) (w : CmdWords) (s : State) : State :=
  if fieldN w.w0 24 8 ≠ op then s
  else
    match taken o w s with
    | some (c, s) => judged op body s c w
    | none => s

/-- The body of an opcode (R450). -/
def bodyOf (op : Nat) : Option (State → Cli → CmdWords → State) :=
  match op with
  | 0x00 => some armBody
  | 0x01 => some chStopBody
  | 0x02 => some chResumeBody
  | 0x03 => some chAbortBody
  | 0x04 => some ringSetBody
  | 0x10 => some bindBody
  | 0x11 => some evictBody
  | 0x12 => some reloadBody
  | 0x13 => some zeroBody
  | 0x14 => some acceptBody
  | 0x15 => some closeBody
  | 0x20 => some runBody
  | 0x21 => some haltBody
  | 0x22 => some stopBody
  | 0x23 => some resumeBody
  | 0x24 => some abortBody
  | 0x30 => some storeBody
  | 0x31 => some fetchBody
  | 0x40 => some modeBody
  | 0x41 => some resurveyBody
  | 0x42 => some reduceBody
  | 0x50 => some openExportBody
  | 0x51 => some openImportBody
  | 0x52 => some winCloseBody
  | 0x60 => some resetBody
  | 0x70 => some peekBody
  | 0x71 => some pokeBody
  | _ => none

/-- A command of the image (R367, R368): issued as from SCP. -/
def imageCmd (s : State) (w : CmdWords) : State :=
  let op := fieldN w.w0 24 8
  let c : Cli := { o := .image }
  match bodyOf op with
  | some f => judged op f s c w
  | none => complete s c 2 0

/-- The CMD packet of a remote command (R451). -/
def cmdHead (dst : Nat) (w : CmdWords) : Head :=
  { dst := dst, ty := 2
    payload := BitVec.ofNat 128 (w.w0.toNat + w.w1.toNat <<< 32 + w.w2.toNat <<< 64 + w.w3.toNat <<< 96) }

/-- Whether the first hop of a broadcast is a port that is not UP (R317, R319). -/
def bcastCut (s : State) : Bool := s.fab.parent != 7 && !portUp s s.fab.parent

/-- A remote command sent from the SCP mailbox (R319, R451); a duplicate tile sends no broadcast (R324). A broadcast completes when its
head leaves the tile, at once where it has no tree link to leave by. -/
def remoteSend (s : State) (w : CmdWords) : State :=
  let dst := regF s 0x13C 0 8
  let r : FReq := { isCmd := true, dst := dst, cli := some { o := .scp } }
  if s.boot.st < 6 then mboxDone s 1 1 0
  else if dst ≠ 255 then sendReqOn s none r (cmdHead dst w) []
  else if s.fab.dup || bcastCut s then answerFail s r 4
  else
    let u := onBcast s 7 (packetOf { cmdHead 255 w with src := tileId s } [])
    if s.fab.parent = 7 && (s.fab.kids.filter (portUp s)).isEmpty then mboxDone u 1 0 0 else u

/-- The acceptance of a remote command; a broadcast waits for READY (R326). -/
def remoteAccept (w : CmdWords) (s : State) : State :=
  let dst := regF s 0x13C 0 8
  if accepts s && decide (s.mb.nextT ≤ pclkOf s) && mboxDue s 1 && mboxRemote s 1 && mboxWords s 1 == w
      && (dst != 255 || s.boot.st < 6 || s.fab.st == 4 || s.fab.st == 5) then
    remoteSend (mboxTake s 1) w
  else s

/-- The PCLK cycle from which a waiting command of an origin may be accepted (R447). -/
def acceptT (s : State) (o : Origin) : Nat :=
  max s.mb.nextT (match mboxOf o with | some m => lget s.mb.goT 0 m | none => 0)

/-- Whether a command of an origin waits for its acceptance. -/
def waitsIn (s : State) (o : Origin) (w : CmdWords) : Bool :=
  match mboxOf o with
  | some m => mboxIssued s m && mboxWords s m == w
  | none => match s.mb.peerQ with | p :: _ => o == .peer && p.w == w | [] => false

end Sys2Proof.Machine
end

