-- ==== Sys2Proof/Machine/BootOps.lean ====
section
/-! DEFINITION. Start-up: the fuse map, the droop trim of step 2, the image's two passes, the overlay, and the end
(R361 to R377, R443, R444). -/
namespace Sys2Proof.Machine

-- Step 1 (R443, R444).

/-- Bits [1007:0] of the fuse map as 126 bytes. -/
def fuseBytes (m : BitVec 1024) : List Byte := (natsTo 126).map fun k => BitVec.ofNat 8 (fieldN m (8 * k) 8)

/-- The fuse map passes its check (R444). -/
def fuseOk (m : BitVec 1024) : Bool :=
  BitVec.ofNat 16 (fieldN m 1008 16) == (0x5A5A#16 ^^^ crc16 (fuseBytes m))
    && fieldN m 46 2 == 0 && fieldN m 62 2 == 0 && fieldN m 105 13 == 0

/-- The fields of a fuse map that passed (R443). -/
def fuseOf (m : BitVec 1024) : Fuse :=
  { repair := BitVec.ofNat 32 (fieldN m 0 32), levels := BitVec.ofNat 32 (fieldN m 32 14)
    outs := BitVec.ofNat 32 (fieldN m 48 14), thresh := BitVec.ofNat 32 (fieldN m 64 24)
    dwell := BitVec.ofNat 32 (fieldN m 88 16), dbgDis := bitB m 104, capDis := fieldN m 118 10 }

/-- Step 1 ends: the map is applied, a port it disables being ABSENT (R308), or start-up stops with cause 11, nothing is logged and every
line of the links is low (R362, R431, R444). -/
def fuseDone (s : State) (m : BitVec 1024) : State :=
  if fuseOk m then
    let s := { s with fuse := fuseOf m, boot := { s.boot with st := 1, t0 := sclkOf s } }
    { s with fab := { s.fab with ports := (natsTo 6).map fun n => { st := if hasLink s n then 1 else 0 } } }
  else
    { s with
      boot := { s.boot with st := 7, cause := 11, fuseFail := true }
      fab := { s.fab with ports := s.fab.ports.map fun p => { p with tx := .low, txCr := 0 } } }

-- Step 2 (R361, R392).

/-- The word of a sensor's trim: THRESH and CODE as trimmed, and SV, the supply code sampled then (R396). -/
def trimWord (code : W32) (level : Nat) : W32 := (code &&& 0x00003F3F) ||| BitVec.ofNat 32 (level % 256 * 65536)

/-- Step 2 ends: the light band's set is valid, and the survey begins. -/
def lightDone (s : State) (codes : List W32) : State :=
  let s := { s with clk := { s.clk with
    trims := msetFrom s.clk.trims 0 0 ((natsTo 16).map fun i => trimWord (lget codes 0 i) (lget s.clk.lightSv s.sup.level i))
    trimmed := lupd s.clk.trimmed 0 fun _ => true } }
  startHello { s with boot := { s.boot with st := 2 } }

-- The image's words (R364 to R367).

/-- Word at byte `off` of the lines held. -/
def imgWord (m : SMap Nat) (off : Nat) : Nat := (mget m 0 (off / 64) >>> (8 * (off % 64))) % m32

/-- n words from byte `off`. -/
def imgWords (m : SMap Nat) (off n : Nat) : List Nat := (natsTo n).map fun i => imgWord m (off + 4 * i)

/-- The bytes of words. -/
def wordBytes (l : List Nat) : List Nat := l.flatMap fun w => leBytes 4 w

/-- A word of the header. -/
def hdrWord (s : State) (off : Nat) : Nat := imgWord s.boot.hdr off

/-- Entries of the section table, as NSECT's low bits count them. -/
def hdrN (s : State) : Nat := hdrWord s 0x10 % 64

/-- A section as its table entry gives it (R366). -/
structure Sect where
  ty : Nat
  opt : Bool
  rsv : Bool
  off : Nat
  len : Nat
  crc : Nat
  deriving DecidableEq, Repr

/-- Entry i of the section table. -/
def sectOf (s : State) (i : Nat) : Sect :=
  let a := 0x100 + 16 * i
  let w := hdrWord s a
  { ty := w / 2 ^ 24, opt := w.testBit 23, rsv := w % 2 ^ 23 != 0, off := hdrWord s (a + 4), len := hdrWord s (a + 8)
    crc := hdrWord s (a + 12) }

/-- Every entry with its number. -/
def sectsOf (s : State) : List (Nat × Sect) := (natsTo (hdrN s)).map fun i => (i, sectOf s i)

/-- Whether a TYPE is one of R367. -/
def sectKnown (ty : Nat) : Bool := decide (1 ≤ ty) && decide (ty ≤ 9)

/-- The words of a section, its destination word first. -/
def sectWords (s : State) (x : Sect) : List Nat := imgWords s.boot.img x.off (x.len / 4)

-- The check pass (R365, R366, R367, R369, R370).

/-- MAGIC or the major version differs. -/
def hdrBad (s : State) : Option Nat :=
  if hdrWord s 0 ≠ 0x48534C4F then some 1 else if hdrWord s 4 / 65536 ≠ 1 then some 2 else none

/-- HDR_CRC over the bytes it covers (R365). -/
def hdrCrcOk (s : State) : Bool :=
  let l := imgWords s.boot.hdr 0 7 ++ imgWords s.boot.hdr 0x20 (56 + 4 * hdrN s)
  (crc32c (wordBytes l)).toNat == hdrWord s 0x1C

/-- A limit of the header is broken, or a reserved bit is not 0. -/
def hdrLayoutBad (s : State) : Bool :=
  let n := hdrWord s 0x10
  let len := hdrWord s 0xC
  n == 0 || decide (32 < n) || decide (4 ≤ hdrWord s 0x14) || (imgWords s.boot.hdr 0x20 56).any (· != 0)
    || len % 32 != 0 || decide (len < 256 + 16 * n) || decide (16777216 < len)

/-- A limit of R366 is broken by a section. -/
def sectLayoutBad (s : State) (x : Sect) : Bool :=
  x.rsv || (!sectKnown x.ty && !x.opt) || x.off % 32 != 0 || decide (x.off < 0x100 + 16 * hdrN s)
    || x.len % 4 != 0 || decide (x.len < 4) || decide (hdrWord s 0xC < x.off + x.len)

/-- A destination and a body obey R367: `d` is the destination word, `ws` the words after it. -/
def destOk (ty d : Nat) (ws : List Nat) : Bool :=
  let n := ws.length
  match ty with
  | 1 => d == 0 && n % 2 == 0 && (natsTo (n / 2)).all fun i => decide (lget ws 0 (2 * i) < 65536)
  | 2 => d == 0 && n % 4 == 0
  | 3 => d % 32 == 0 && decide (d < 2 ^ 22) && n % 8 == 0
  | 4 => decide (d < 2 ^ 14) && decide (d + n ≤ 16384)
  | 5 => decide (d < 512) && n % 2 == 0 && decide (d + n / 2 ≤ 512)
  | 6 => decide (d < 32) && n == 775
  | 7 => decide (d < 4) && n == 192
  | 8 => decide (d < 512) && decide (d + n ≤ 512)
  | 9 => d == 0 && n == 2
  | _ => true

/-- A section's data breaks a rule of R367. -/
def sectDataBad (s : State) (x : Sect) : Bool :=
  match sectWords s x with
  | [] => true
  | d :: ws => !destOk x.ty d ws

/-- A section's CRC differs from its table entry. -/
def sectCrcBad (s : State) (x : Sect) : Bool := (crc32c (wordBytes (sectWords s x))).toNat != x.crc

/-- A capability that the image requires and the tile lacks (R8, R370). -/
def capMissing (s : State) : Bool :=
  BitVec.ofNat 32 (hdrWord s 8) &&& ~~~(caps s) != 0 || (!hasUcode s && (sectsOf s).any fun e => e.2.ty == 8)

/-- The faults of the header and the table (R369), with the section. -/
def tableFault (s : State) : Option (Nat × Nat) :=
  match hdrBad s with
  | some c => some (c, 0)
  | none =>
    if !hdrCrcOk s then some (3, 0)
    else if hdrLayoutBad s then some (4, 0)
    else ((sectsOf s).find? fun e => sectLayoutBad s e.2).map fun e => (4, e.1)

/-- The first fault that the check pass finds (R369). -/
def checkFault (s : State) : Option (Nat × Nat) :=
  if s.boot.fail7 then some (7, 0)
  else
    match tableFault s with
    | some f => some f
    | none =>
      match (sectsOf s).find? fun e => sectDataBad s e.2 with
      | some e => some (4, e.1)
      | none =>
        match (sectsOf s).find? fun e => sectCrcBad s e.2 with
        | some e => some (5, e.1)
        | none => if capMissing s then some (6, 0) else none

/-- The reads of every section, in table order. -/
def askSects (s : State) : State := eachS (sectsOf s) (fun e s => imgAsk s e.2.off e.2.len) s

/-- A part of the pass has arrived: what is read next (R364). A fault that is certain ends the check pass. -/
def imgNext (s : State) : State :=
  match s.boot.stage with
  | 1 =>
    let s := { s with boot := { s.boot with hdr := s.boot.img } }
    if (hdrBad s).isSome || hdrN s = 0 then { s with boot := { s.boot with stage := 4 } }
    else imgAsk { s with boot := { s.boot with stage := 2 } } 0x100 (16 * hdrN s)
  | 2 =>
    let s := { s with boot := { s.boot with hdr := s.boot.img } }
    if (tableFault s).isSome then { s with boot := { s.boot with stage := 4 } }
    else askSects { s with boot := { s.boot with stage := 3 } }
  | _ => { s with boot := { s.boot with stage := 4 } }

/-- Whether a request of the image is still to be answered. -/
def imgPending (s : State) : Bool :=
  (mempWaits s).any (·.who == .image) || s.memp.out.any (·.2.who == .image)

/-- Whether the present pass of the image is over: everything has arrived, or the fault is certain. -/
def passOver (s : State) : Bool := s.boot.fail7 || s.boot.stage == 4 || s.boot.loadBad.isSome || (s.boot.st == 5 && s.boot.refused)

/-- The check pass ends (R369, R371). -/
def checkDone (s : State) : State :=
  let s := if s.boot.hdr.isEmpty then s
    else setReg (setReg s 0x404 (BitVec.ofNat 32 (hdrWord s 0x18))) 0x408 (BitVec.ofNat 32 (hdrWord s 4))
  match checkFault s with
  | some f => bootFail s f.1 f.2
  | none => { s with boot := { s.boot with st := 4, stage := 0, img := [], t0 := sclkOf s } }

-- Applying items (R367, R368).

/-- The events by which a register write is refused: TABLE_BUSY, REGION_BAD and PORT_DENIED. -/
def refusals : List Nat := [0x0D, 0x21, 0x6B]

/-- A write that its owning chapter does not perform and that raises nothing. -/
def silentRefusal (s : State) (off v : Nat) : Bool :=
  (off == 0x20C && (v % 1024 == 0 || decide (1000 < v % 1024))) || (off == 0x6044 && hasCache s && decide (4 < v % 8))

/-- A write of a table's, the microcode's, the program's or a recipe's data register: the load pass reaches either bank (R368). -/
def imgStore (s : State) (off : Nat) (v : W32) : Option State :=
  match off with
  | 0x3048 => some (pramStore s v)
  | 0x4810 => some (rcpHiStore s v)
  | 0x500C => some (sfuTblStore s v)
  | 0x5018 => if hasUcode s then some (ucStore s v) else none
  | 0x5C10 => some (gpTblStore s v)
  | _ => none

/-- A register write of the image or of a record, as from SCP: whether it was performed (R368). -/
def imgReg (s : State) (off v : Nat) : Bool × State :=
  if silentRefusal s off v then (false, s)
  else if 0x800 ≤ off && off < 0x810 then (true, anyWrite s .scp off (BitVec.ofNat 32 v))
  else if let some s := imgStore s off (BitVec.ofNat 32 v) then (true, s)
  else
    let old := cycNow s
    let n := s.ev.due.length
    let s := anyWrite { s with cyc := {} } .scp off (BitVec.ofNat 32 v)
    (!(s.ev.due.drop n).any fun e => refusals.contains e.1, eachS s.cyc.upd (fun e s => tileUpd s e.1 e.2) { s with cyc := old })

/-- Items applied in order until one is refused. -/
def eachOk {α : Type} (f : State → α → Bool × State) : List α → State → Bool × State
  | [], s => (true, s)
  | a :: l, s =>
    let r := f s a
    if r.1 then eachOk f l r.2 else r

/-- Words in groups of n. -/
def groupsOf (n : Nat) (l : List Nat) : List (List Nat) := (natsTo (l.length / n)).map fun i => (l.drop (n * i)).take n

/-- A command of a CMD section: whether it was not refused. -/
def imgCmd (s : State) (l : List Nat) : Bool × State :=
  let w (i : Nat) : W32 := BitVec.ofNat 32 (lget l 0 i)
  let s := imageCmd s ⟨w 0, w 1, w 2, w 3⟩
  (!s.boot.refused, s)

/-- Words of an item of a section's body, by TYPE. -/
def sectItem (ty : Nat) : Nat := match ty with | 1 => 2 | 2 => 4 | 3 => 8 | 5 => 2 | 9 => 2 | _ => 1

/-- Item k of a section or an OVERRIDE record applied: its TYPE, destination and words (R367, R368, R376). Answers whether it was not
refused. -/
def applyItem (s : State) (ty d k : Nat) (l : List Nat) : Bool × State :=
  let w := BitVec.ofNat 32 (lget l 0 0)
  match ty with
  | 1 => imgReg s (lget l 0 0) (lget l 0 1)
  | 2 => imgCmd s l
  | 3 =>
    if spadFits s (d + 32 * k) 32 then (true, dmaFreshBytes s (d / 32 + k) 1 ((wordBytes l).map (BitVec.ofNat 8))) else (false, s)
  | 4 => (true, pramPut s (d + k) w)
  | 5 => (true, rcpPut s (d + k) (BitVec.ofNat 64 (lget l 0 0 + lget l 0 1 * m32)))
  | 6 => (true, sfuPut s (d % 16) (d / 16) k w)
  | 7 => (true, gpTblPut s (d % 2) (d / 2) (k / 3) (k % 3) w)
  | 8 => (true, ucPut s (d + k) w)
  | 9 => eachOk (fun s e => imgReg s e.1 e.2) [(0x7008, lget l 0 0), (0x7004, lget l 0 1)] s
  | _ => (true, s)

/-- The items of an OVERRIDE record applied in order until one is refused (R376). -/
def applyItems (s : State) (ty d : Nat) (ws : List Nat) : Bool × State :=
  let l := groupsOf (sectItem ty) ws
  eachOk (fun s k => applyItem s ty d k (lget l [] k)) (natsTo l.length) s

-- The load pass (R364, R368).

/-- Whether a request of the image is still to bring the line of byte `off`. -/
def lineWaits (s : State) (off : Nat) : Bool :=
  let b := imgBase s
  let waits (r : MReq) : Bool := r.who == .image
    && (natsTo r.beats).any fun i => (lineAddr r i + m48 - b) % m48 / 64 == off / 64
  (mempWaits s).any waits || s.memp.out.any fun e => waits e.2

/-- The load pass goes on with section `i`, of which `w` words have been taken. -/
def loadAt (s : State) (i w : Nat) : State := { s with boot := { s.boot with sectI := i, sectW := w } }

/-- The load pass has met a fault: 8 CHANGED, 9 APPLY. -/
def loadStop (s : State) (cause : Nat) : State := { s with boot := { s.boot with loadBad := some (cause, s.boot.sectI) } }

/-- The sections are applied as they arrive, in table order; the CRC of one is compared once all of it is applied (R364, R368). `fuel`
bounds the items. -/
def loadGo (fuel : Nat) (s : State) : State :=
  match fuel with
  | 0 => s
  | n + 1 =>
    let i := s.boot.sectI
    let w := s.boot.sectW
    if s.boot.loadBad.isSome || hdrN s ≤ i then s
    else
      let x := sectOf s i
      let ty := if sectKnown x.ty then x.ty else 0
      let k := if w = 0 then 1 else sectItem ty
      if x.len / 4 ≤ w then (if sectCrcBad s x then loadStop s 8 else loadGo n (loadAt s (i + 1) 0))
      else if lineWaits s (x.off + 4 * (w + k - 1)) || lineWaits s (x.off + 4 * w) then s
      else if w = 0 then loadGo n (loadAt s i 1)
      else
        let r := applyItem (loadAt s i (w + k)) ty (imgWord s.boot.img x.off) ((w - 1) / k) (imgWords s.boot.img (x.off + 4 * w) k)
        if r.1 then loadGo n r.2 else loadStop r.2 9

/-- Items that the load pass has at most. -/
def loadItems (s : State) : Nat := hdrWord s 0xC / 4 + 2 * hdrN s

/-- The lines of an image request arrive. -/
def imgTake (s : State) (r : MReq) : State :=
  let k := (r.addr + m48 - imgBase s) % m48 / 64
  let s := { s with boot := { s.boot with img := msetFrom s.boot.img 0 k (r.got.map BitVec.toNat) } }
  let s := if s.boot.st = 5 && !s.boot.fail7 then loadGo (loadItems s) s else s
  if imgPending s then s else imgNext s

/-- A request of the image failed, or the port closed (R364): no more is read. -/
def imgFail (s : State) : State :=
  dropCand { s with boot := { s.boot with fail7 := true } } fun w => w == .image

-- The overlay (R374 to R377, R396).

/-- A record that is skipped or stops early (R376). -/
def recSkip (s : State) (f : Nat) : State :=
  raise { s with store := { s.store with skipped := s.store.skipped + 1 } } 0x63 f

/-- A record applied. -/
def recDone (s : State) : State := { s with boot := { s.boot with applied := s.boot.applied + 1 } }

/-- The words of frame f's payload. -/
def recWords (s : State) (f : Nat) : List Nat := (natsTo (fLen s f / 4)).map fun i => leN (((fPayload s f).drop (4 * i)).take 4)

/-- A TRIM record is sound (R396). -/
def trimOk (s : State) (key f : Nat) : Bool :=
  decide (key % 2 ^ 24 ≤ 2) && fLen s f == 256
    && (natsTo 64).all fun i =>
      let w := BitVec.ofNat 32 (lget (recWords s f) 0 i)
      if i % 4 = 0 then w &&& 0xFF00C0C0 == 0 else w == 0

/-- A TRIM record applied in step 7 (R377, R396). -/
def trimApply (s : State) (key f : Nat) : State :=
  if trimOk s key f then
    let b := key % 2 ^ 24
    let ws := recWords s f
    recDone { s with clk := { s.clk with
      trims := msetFrom s.clk.trims 0 (16 * b) ((natsTo 16).map fun i => BitVec.ofNat 32 (lget ws 0 (4 * i)))
      trimmed := lupd s.clk.trimmed b fun _ => true } }
  else recSkip s f

/-- Whether an OVERRIDE record may be applied: its TYPE and shape (R375), and a unit that the tile has. -/
def overrideOk (s : State) (f ty d : Nat) (ws : List Nat) : Bool :=
  decide (4 ≤ fLen s f) && fLen s f % 4 == 0 && [1, 3, 6, 7, 8, 9].contains ty && destOk ty d ws && (ty != 8 || hasUcode s)

/-- An OVERRIDE record (R376). -/
def overrideApply (s : State) (f : Nat) : State :=
  let l := recWords s f
  let ty := lget l 0 0 / 2 ^ 24
  let d := lget l 0 0 % 2 ^ 24
  if overrideOk s f ty d (l.drop 1) then
    let r := applyItems s ty d (l.drop 1)
    if r.1 then recDone r.2 else recSkip r.2 f
  else recSkip s f

/-- A PARAM record (R376): written to copy 0 by the staged registers of its group. -/
def paramApply (s : State) (key f : Nat) : State :=
  let k := key / 65536 % 256
  let b := key % 65536
  let n := fLen s f / 128
  let g : Group := { live := stagedRed s k }
  let a := 2048 * fieldN g.live.param 0 11 + 128 * b
  if hasAdapt s && decide (k < 2) && fLen s f % 128 == 0 && decide (1 ≤ n) && decide (b + n ≤ gNblk g) && spadFits s a (128 * n) then
    recDone (dmaFreshBytes s (a / 32) (4 * n) ((fPayload s f).map (BitVec.ofNat 8)))
  else recSkip s f

/-- The scan of the store ends (R374, R377): bad frames are counted, the index is built, TRIM records applied after L0. -/
def scanDone (s : State) : State :=
  let bad := (natsTo (storeFrames s)).filter fun f => fCommitted s f && !fCrcOk s f
  let s := { s with store := { s.store with bad := bad.length, indexed := true } }
  let s := eachS bad (fun f s => raise s 0x63 f) s
  let s := if s.boot.fromL1 then s
    else eachS ((liveKeys s).filter fun e => e.1 / 2 ^ 24 == 1) (fun e s => trimApply s e.1 e.2) s
  askSects { s with boot := { s.boot with
    st := 5, img := [], stage := 3, sectI := 0, sectW := 0, loadBad := none, refused := false } }

/-- SCLK cycles of the scan (R363, R377): the header of every frame, and the payload of each whose COMMIT matches. -/
def scanLen (s : State) : Nat :=
  (natsTo (storeFrames s)).foldl (fun a f => a + 8 + (if fCommitted s f then (min 4096 (fLen s f) + 7) / 8 else 0)) 0

/-- Override and parameter records in ascending KEY order, unless a flag keeps them out (R376). -/
def overlayApply (s : State) : State :=
  if (hdrWord s 0x14).testBit 0 || regF s 0x410 0 1 = 1 then s
  else
    eachS ((liveKeys s).filter fun e => e.1 / 2 ^ 24 == 2 || e.1 / 2 ^ 24 == 3)
      (fun e s => if e.1 / 2 ^ 24 = 2 then overrideApply s e.2 else paramApply s e.1 e.2) s

/-- Steps 8 and 9 end (R323, R361): a changed FAB_ROOT starts a RESURVEY, and RUN 0 is accepted unless NO_RUN. -/
def loadEnd (s : State) : State :=
  let s := if regF s 0x7008 0 8 ≠ s.fab.surveyRoot then resurvey s else s
  let s := { s with boot := { s.boot with st := 6, stage := 0, recipeWait := false, img := [], refused := false } }
  if (hdrWord s 0x14).testBit 1 then raise s 0x60 0
  else bootRunOver (judged 0x20 runBody { s with boot := { s.boot with run0 := true } } { o := .image } ⟨0x20000000, 0, 0, 0⟩)

/-- The section of a command of the image that completed with another status than OKAY after its item was applied (R368): the last CMD
section that the pass has come to. -/
def cmdSect (s : State) : Nat := (((sectsOf s).filter fun e => e.2.ty == 2 && decide (e.1 ≤ s.boot.sectI)).getLast?.map (·.1)).getD 0

/-- Step 8 goes on once no armed recipe is under check; a command of the image that was refused meanwhile fails it (R368). -/
def loadWait (s : State) : State :=
  if s.boot.recipeWait && s.boot.refused then bootFail s 9 (cmdSect s)
  else if s.boot.recipeWait && s.vec.checking.isEmpty then loadEnd s
  else s

/-- The load pass ends (R364, R368, R376): start-up fails at the first fault it met, or goes on to the records. -/
def loadDone (s : State) : State :=
  match s.boot.loadBad with
  | some f => bootFail s f.1 f.2
  | none =>
    if s.boot.refused then bootFail s 9 (cmdSect s)
    else if s.boot.fail7 then bootFail s 7 0
    else
      let s := overlayApply s
      loadWait { s with boot := { s.boot with recipeWait := true } }

end Sys2Proof.Machine
end

