-- ==== Sys2Proof/Machine/SupplyOps.lean ====
section
/-! DEFINITION. The activity monitor, the droop controller, the power states and the supply guard (R389 to R401). -/
namespace Sys2Proof.Machine

-- The activity monitor and the droop controller (R391 to R394).

/-- The band of a window (R391): light below 30 %, full above 70 %; a window with no slots counts 0 %. -/
def windowBand (busy slots : Nat) : Nat :=
  if slots = 0 || 100 * busy < 30 * slots then 0 else if 70 * slots < 100 * busy then 2 else 1

/-- The set that a window's band uses (R392): its own if valid, else the highest valid one below. -/
def bandUsed (trimmed : List Bool) (b : Nat) : Nat :=
  if lget trimmed false b then b else if b = 2 && lget trimmed false 1 then 1 else 0

/-- A re-trim in progress abandoned, with its codes (R394). -/
def retrimDrop (s : State) : State :=
  { s with clk := { s.clk with retrim := false, retrimSensor := 0, retrimGot := [] } }

/-- CAP lifted. -/
def capLift (s : State) : State := { s with clk := { s.clk with cap := false } }

/-- A re-trim begins with sensor 0 in SCLK cycle t0, where the supply guard is OK (R393, R394). -/
def retrimStart (s : State) (b t0 : Nat) : State :=
  { s with clk := { s.clk with
    retrim := s.sup.st == 0, retrimBand := b, retrimSensor := 0, retrimGot := [], retrimT := t0 } }

/-- CAP in force for a band, and its re-trim (R393). -/
def capStart (s : State) (b : Nat) : State :=
  retrimStart { s with clk := { s.clk with cap := true, capPhase := 0 } } b (sclkOf s + 1)

/-- A window of the activity monitor ends (R391 to R394). -/
def windowEnd (s : State) : State :=
  let b := windowBand s.clk.winBusy s.clk.winSlots
  let n := if b = s.clk.sustBand then min 21 (s.clk.sust + 1) else 1
  let s := { s with clk := { s.clk with
    winSclk := 0, winSlots := 0, winBusy := 0, band := b, sustBand := b, sust := n
    act := if s.clk.winSlots = 0 then 0 else 100 * s.clk.winBusy / s.clk.winSlots
    useBand := bandUsed s.clk.trimmed b } }
  let s := if s.clk.cap && s.clk.retrimBand ≠ b then capLift (retrimDrop s) else s
  if n = 20 && b ≠ 0 && !lget s.clk.trimmed false b && !s.clk.cap then capStart s b else s

/-- A sensor of the re-trim in progress is trimmed; with the last one the set is valid and CAP is lifted (R393). -/
def retrimNext (s : State) (code : W32) : State :=
  let got := s.clk.retrimGot ++ [trimWord code s.sup.level]
  let b := s.clk.retrimBand
  if s.clk.retrimSensor < 15 then
    { s with clk := { s.clk with retrimGot := got, retrimSensor := s.clk.retrimSensor + 1 } }
  else
    let s := { s with clk := { s.clk with
      trims := msetFrom s.clk.trims 0 (16 * b) got, trimmed := lupd s.clk.trimmed b fun _ => true } }
    raise (capLift (retrimDrop s)) 0x66 b

/-- The SCLK cycle in which the sensor being trimmed is done. -/
def retrimDue (s : State) : Nat := s.clk.retrimT + 3072 * (s.clk.retrimSensor + 1)

/-- A sensor reports droop, or reports it no more (R386). -/
def droopSet (s : State) (n : Nat) (on : Bool) : State :=
  let m := 2 ^ (n % 16)
  let rest := s.clk.droop - (if s.clk.droop.testBit (n % 16) then m else 0)
  { s with clk := { s.clk with droop := if on then rest + m else rest } }

-- Power states (R389, R390).

/-- The tile enters GATED: ACLK stops. -/
def gateEnter (s : State) : State := { s with clk := { s.clk with st := 1, idleSclk := 0, half := false } }

/-- Something that wakes the tile waits: a command in a mailbox or the peer queue, a VC0 packet, a VC2 flit. -/
def wakeCause (s : State) : Bool :=
  s.mb.st.any (· != 0) || !s.mb.peerQ.isEmpty || s.fab.ports.any fun p => !p.held.isEmpty || !p.inVc2.isEmpty

/-- The tile is ACTIVE again. -/
def wakeDone (s : State) : State := { s with clk := { s.clk with st := 0, wakeSclk := 0, idleSclk := 0 } }

-- The supply guard (R397 to R401).

/-- RESET threshold. -/
def svReset (s : State) : Nat := fieldN s.fuse.thresh 0 8
/-- WARN threshold. -/
def svWarn (s : State) : Nat := fieldN s.fuse.thresh 8 8
/-- The level of recovery: WARN and the hysteresis. -/
def svGood (s : State) : Nat := svWarn s + fieldN s.fuse.thresh 16 8
/-- FILT. -/
def svFilt (s : State) : Nat := zeroIs 8 (regF s 0x380 8 3)
/-- DWELL. -/
def svDwell (s : State) : Nat := fieldN s.fuse.dwell 0 16

/-- Whether the guard has its thresholds: they come from the fuse map that step 1 of start-up reads (R361, R397, R443). -/
def svKnown (s : State) : Bool := s.boot.st != 0

/-- A sample of sv_level, the only one of its SCLK cycle (R397, R398): the counts of consecutive samples that the guard's transitions rest
on. -/
def svSample (s : State) (lv : Nat) : State :=
  let l := lv % 256
  { s with sup := { s.sup with
    level := l, min := min s.sup.min l, sampleT := sclkOf s + 1
    nWarn := if svKnown s && decide (l < svWarn s) then min 8 (s.sup.nWarn + 1) else 0
    nReset := if svKnown s && decide (l < svReset s) then min 8 (s.sup.nReset + 1) else 0
    dwell := if s.sup.st = 2 && svGood s ≤ l then min 65536 (s.sup.dwell + 1) else 0 } }

/-- The guard leaves OK (R380, R390, R394, R398). -/
def guardLow (s : State) : State :=
  let s := { s with sup := { s.sup with st := 1, dwell := 0 } }
  let s := incReg (raise s 0x67 0) 0x390 16 16
  wakeUp (retrimDrop (storeAbandon s))

/-- The guard enters OK (R394, R398, R401): the first entry raises nothing, and step 2 of start-up goes on from it. -/
def guardOk (s : State) : State :=
  let first := !s.sup.firstOk
  let s := { s with
    sup := { s.sup with st := 0, dwell := 0, nWarn := 0, firstOk := true }
    boot := if first && s.boot.st < 2 then { s.boot with t0 := sclkOf s } else s.boot }
  let s := if first then s else incReg (raise s 0x68 0) 0x390 0 16
  if s.clk.cap && !s.clk.retrim then
    if s.clk.band = s.clk.retrimBand then retrimStart s s.clk.retrimBand (sclkOf s) else capLift s
  else s

end Sys2Proof.Machine
end

