-- ==== Sys2Proof/Machine/Clocks.lean ====
section
/-! DEFINITION. The meanings of the events of the clocks, the droop controller, the power states and the supply guard
(R385 to R401), of the settings store (R378 to R381), and of the event log and evt_pulse (R427, R429). -/
namespace Sys2Proof.Machine

/-- ACTIVITY_WINDOW_END (R391 to R394): 500 SCLK cycles of a window are over. -/
def execActivityWindowEnd (s : State) : Out :=
  act s (guardS (clocksOn s && s.clk.st == 0)
    (awaitS (40 * (500 - s.clk.winSclk) + 1) (fun u => decide (500 ≤ u.clk.winSclk)) windowEnd))

/-- RETRIM_SENSOR_DONE (R393): the sensor being trimmed has its code. -/
def execRetrimSensorDone (code : W32) (s : State) : Out :=
  act s (guardS s.clk.retrim (atSclk (retrimDue s) fun s => if s.clk.retrim then retrimNext s code else s))

/-- DROOP_DETECT (R386): a sensor reports droop below its threshold. -/
def execDroopDetect (sensor : Nat) (s : State) : Out :=
  act s (guardS (decide (sensor < 16) && clocksOn s) fun s => droopSet s sensor true)

/-- DROOP_CLEAR (R386): the sensor reports it no more. -/
def execDroopClear (sensor : Nat) (s : State) : Out := act s (guardS (decide (sensor < 16)) fun s => droopSet s sensor false)

/-- GATE_ENTER (R389): the conditions have held for 1,000 SCLK cycles. -/
def execGateEnter (s : State) : Out :=
  act s (guardS (s.clk.st == 0 && gateIdle s)
    (awaitS (40 * (1000 - s.clk.idleSclk) + 1) (fun u => decide (1000 ≤ u.clk.idleSclk)) gateEnter))

/-- WAKE (R390): something that wakes the tile waits. -/
def execWake (s : State) : Out := act s (guardS (s.clk.st == 1 && wakeCause s) wakeUp)

/-- WAKE_DONE (R390): 100 SCLK cycles of WAKING are over. -/
def execWakeDone (s : State) : Out :=
  act s (guardS (s.clk.st == 2)
    (awaitS (40 * (100 - s.clk.wakeSclk) + 1) (fun u => decide (100 ≤ u.clk.wakeSclk)) wakeDone))

/-- Whether an L0 reset holds the supply guard. -/
def guardHeld (s : State) : Bool := s.rst.act.map (·.1) == some 0

/-- SV_LEVEL_SAMPLE (R397): the level of an SCLK cycle. -/
def execSvLevelSample (lv : Nat) (s : State) : Out := act s (guardS (!guardHeld s) (atSclk s.sup.sampleT fun s => svSample s lv))

/-- GUARD_ENTER_LOW (R398): FILT consecutive samples below WARN. -/
def execGuardEnterLow (s : State) : Out := act s (guardS (s.sup.st == 0 && decide (svFilt s ≤ s.sup.nWarn)) guardLow)

/-- The guard begins its recovery: the dwell count starts at 1. -/
def guardRecover (s : State) : State := { s with sup := { s.sup with st := 2, dwell := 1 } }

/-- GUARD_ENTER_RECOVER (R398): a sample at or above WARN + HYST. -/
def execGuardEnterRecover (s : State) : Out :=
  act s (guardS (!guardHeld s && svKnown s && s.sup.st == 1 && decide (svGood s ≤ s.sup.level)) guardRecover)

/-- The guard falls back to LOW. -/
def guardLost (s : State) : State := { s with sup := { s.sup with st := 1, dwell := 0 } }

/-- GUARD_DWELL_LOST (R398): a sample below WARN + HYST. -/
def execGuardDwellLost (s : State) : Out := act s (guardS (s.sup.st == 2 && decide (s.sup.level < svGood s)) guardLost)

/-- GUARD_ENTER_OK (R398, R401): DWELL consecutive samples at or above WARN + HYST. -/
def execGuardEnterOk (s : State) : Out :=
  act s (guardS (s.sup.st == 2 && decide (svGood s ≤ s.sup.level) && decide (max 1 (svDwell s) ≤ s.sup.dwell)) guardOk)

/-- The trip: a reset with source SUPPLY is requested. -/
def supplyTrip (s : State) : State := resetRequest { s with sup := { s.sup with nReset := 0 } } 4 0 none

/-- SUPPLY_RESET_TRIP (R398): FILT consecutive samples below RESET. -/
def execSupplyResetTrip (s : State) : Out := act s (guardS (decide (svFilt s ≤ s.sup.nReset)) supplyTrip)

/-- CLK_DUMP_DONE (R396); MCLK stands still in GATED and WAKING (R389). -/
def execClkDumpDone (s : State) : Out :=
  act s fun s => match s.clk.dump with | some d => if clocksOn s && s.clk.st == 0 then dumpEnd s d.1 else s | none => s

-- The settings store.

/-- The job in progress, if it may go on. -/
def storeJob (s : State) (fetch : Bool) : Option StoreJob := s.store.job.filter fun j => j.fetch == fetch && (fetch || phaseMay s j)

/-- The end of the present phase of a STORE. -/
def storeStep (s : State) : State := match storeJob s false with | some j => storePhase s j | none => s

/-- STORE_PHASE_DONE (R379): the phase's writes or reads are over. -/
def execStorePhaseDone (s : State) : Out :=
  act s fun s => match storeJob s false with | some j => atSclk (j.t0 + phaseLen s j) storeStep s | none => s

/-- The end of a FETCH. -/
def fetchStep (s : State) : State := match storeJob s true with | some j => fetchEnd s j | none => s

/-- FETCH_DONE (R378). -/
def execFetchDone (s : State) : Out :=
  act s fun s => match storeJob s true with | some j => atSclk (j.t0 + phaseLen s j) fetchStep s | none => s

-- The event log and evt_pulse.

/-- The log writes the entry at the head of its queue (R429). -/
def logPut (s : State) : State :=
  match s.ev.queue with
  | [] => s
  | e :: q =>
    let old := mget s.ev.log {} s.ev.head
    let new : LogEntry := { valid := true, cls := e.cls, code := e.code, arg := e.arg, time := e.time, unread := true }
    { s with ev := { s.ev with
      queue := q, log := mset s.ev.log {} s.ev.head new, head := (s.ev.head + 1) % 64, logT := pclkOf s + 1
      hiOk := s.ev.hiOk && s.ev.head != s.ev.hiSel
      overwritten := if old.valid && old.unread then satAdd 0xFFFF s.ev.overwritten 1 else s.ev.overwritten } }

/-- LOG_WRITE (R429): one entry in a PCLK cycle, from that of its raise on. -/
def execLogWrite (s : State) : Out :=
  act s fun s => awaitS (8 * (s.ev.logT - pclkOf s) + 8) (fun u => decide (s.ev.logT ≤ pclkOf u) && !u.ev.queue.isEmpty) logPut s

/-- A phase of the pulse generator ends (R427): the high time gives way to the low time, and that to the pulse of the raises
merged meanwhile, or to rest. -/
def pulseNext (s : State) : State :=
  let v := s.ev
  { s with ev :=
    if v.pulse = 1 then { v with pulse := 2, pulseT := pclkOf s }
    else if v.pulse = 2 && v.merged then { v with pulse := 1, merged := false, pulseT := pclkOf s }
    else { v with pulse := 0 } }

/-- EVT_PULSE_END (R427): four PCLK cycles of the high or the low time are over. -/
def execEvtPulseEnd (s : State) : Out := act s (guardS (s.ev.pulse != 0) (atPclk (s.ev.pulseT + 4) pulseNext))

end Sys2Proof.Machine
end

