-- ==== Sys2Proof/Machine/Commands.lean ====
section
/-! DEFINITION. The meanings of the commands that arrive through a mailbox, from a peer or from the image: each row is the
acceptance of the waiting command of its opcode (R445 to R452). -/
namespace Sys2Proof.Machine

/-- A command's acceptance in the first PCLK cycle that may have it (R447, log 20). -/
def acceptIn (op : Nat) (body : State → Cli → CmdWords → State) (o : Origin) (w : CmdWords) (s : State) : State :=
  if fieldN w.w0 24 8 == op && waitsIn s o w then atPclk (acceptT s o) (accept op body o w) s else s

/-- ARM (opcode 0x00; R281, R447, R450). -/
def execArm (o : Origin) (w : CmdWords) (s : State) : Out := act s (acceptIn 0x00 armBody o w)

/-- CH_STOP (opcode 0x01; R281, R447, R450). -/
def execChStop (o : Origin) (w : CmdWords) (s : State) : Out := act s (acceptIn 0x01 chStopBody o w)

/-- CH_RESUME (opcode 0x02; R281, R447, R450). -/
def execChResume (o : Origin) (w : CmdWords) (s : State) : Out := act s (acceptIn 0x02 chResumeBody o w)

/-- CH_ABORT (opcode 0x03; R281, R447, R450). -/
def execChAbort (o : Origin) (w : CmdWords) (s : State) : Out := act s (acceptIn 0x03 chAbortBody o w)

/-- RING_SET (opcode 0x04; R259, R447, R450). -/
def execRingSet (o : Origin) (w : CmdWords) (s : State) : Out := act s (acceptIn 0x04 ringSetBody o w)

/-- BIND (opcode 0x10; R119, R447, R450). -/
def execBind (o : Origin) (w : CmdWords) (s : State) : Out := act s (acceptIn 0x10 bindBody o w)

/-- EVICT (opcode 0x11; R119, R447, R450). -/
def execEvict (o : Origin) (w : CmdWords) (s : State) : Out := act s (acceptIn 0x11 evictBody o w)

/-- RELOAD (opcode 0x12; R119, R447, R450). -/
def execReload (o : Origin) (w : CmdWords) (s : State) : Out := act s (acceptIn 0x12 reloadBody o w)

/-- ZERO (opcode 0x13; R119, R447, R450). -/
def execZero (o : Origin) (w : CmdWords) (s : State) : Out := act s (acceptIn 0x13 zeroBody o w)

/-- ACCEPT (opcode 0x14; R119, R447, R450). -/
def execAccept (o : Origin) (w : CmdWords) (s : State) : Out := act s (acceptIn 0x14 acceptBody o w)

/-- SEAM_CLOSE (opcode 0x15; R119, R447, R450). -/
def execSeamClose (o : Origin) (w : CmdWords) (s : State) : Out := act s (acceptIn 0x15 closeBody o w)

/-- RUN (opcode 0x20; R236, R447, R450). -/
def execRun (o : Origin) (w : CmdWords) (s : State) : Out := act s (acceptIn 0x20 runBody o w)

/-- HALT (opcode 0x21; R236, R447, R450). -/
def execHalt (o : Origin) (w : CmdWords) (s : State) : Out := act s (acceptIn 0x21 haltBody o w)

/-- BENCH_STOP (opcode 0x22; R236, R447, R450). -/
def execBenchStop (o : Origin) (w : CmdWords) (s : State) : Out := act s (acceptIn 0x22 stopBody o w)

/-- BENCH_RESUME (opcode 0x23; R234, R447, R450). -/
def execBenchResume (o : Origin) (w : CmdWords) (s : State) : Out := act s (acceptIn 0x23 resumeBody o w)

/-- BENCH_ABORT (opcode 0x24; R236, R447, R450). -/
def execBenchAbort (o : Origin) (w : CmdWords) (s : State) : Out := act s (acceptIn 0x24 abortBody o w)

/-- STORE (opcode 0x30; R378, R447, R450). -/
def execStore (o : Origin) (w : CmdWords) (s : State) : Out := act s (acceptIn 0x30 storeBody o w)

/-- FETCH (opcode 0x31; R378, R447, R450). -/
def execFetch (o : Origin) (w : CmdWords) (s : State) : Out := act s (acceptIn 0x31 fetchBody o w)

/-- MODE_CHANGE (opcode 0x40; R327, R447, R450). -/
def execModeChange (o : Origin) (w : CmdWords) (s : State) : Out := act s (acceptIn 0x40 modeBody o w)

/-- RESURVEY (opcode 0x41; R326, R447, R450). -/
def execResurvey (o : Origin) (w : CmdWords) (s : State) : Out := act s (acceptIn 0x41 resurveyBody o w)

/-- REDUCE_ROUND (opcode 0x42; R345, R447, R450). -/
def execReduceRound (o : Origin) (w : CmdWords) (s : State) : Out := act s (acceptIn 0x42 reduceBody o w)

/-- OPEN_EXPORT (opcode 0x50; R268, R447, R450). -/
def execOpenExport (o : Origin) (w : CmdWords) (s : State) : Out := act s (acceptIn 0x50 openExportBody o w)

/-- OPEN_IMPORT (opcode 0x51; R268, R447, R450). -/
def execOpenImport (o : Origin) (w : CmdWords) (s : State) : Out := act s (acceptIn 0x51 openImportBody o w)

/-- WINDOW_CLOSE (opcode 0x52; R268, R447, R450). -/
def execWindowClose (o : Origin) (w : CmdWords) (s : State) : Out := act s (acceptIn 0x52 winCloseBody o w)

/-- RESET (opcode 0x60; R406, R447, R450). -/
def execReset (o : Origin) (w : CmdWords) (s : State) : Out := act s (acceptIn 0x60 resetBody o w)

/-- DBG_PEEK (opcode 0x70; R463, R447, R450). -/
def execDbgPeek (o : Origin) (w : CmdWords) (s : State) : Out := act s (acceptIn 0x70 peekBody o w)

/-- DBG_POKE (opcode 0x71; R463, R447, R450). -/
def execDbgPoke (o : Origin) (w : CmdWords) (s : State) : Out := act s (acceptIn 0x71 pokeBody o w)

/-- REMOTE_COMMAND (R451): the SCP mailbox's command goes to another tile, or to all. -/
def execRemoteCommand (w : CmdWords) (s : State) : Out := act s fun s =>
  if mboxRemote s 1 && waitsIn s .scp w then atPclk (acceptT s .scp) (remoteAccept w) s else s

end Sys2Proof.Machine
end

