-- ==== Sys2Proof/Machine/MempOps.lean ====
section
/-! DEFINITION. The memory port at work: requests accepted, responses placed by their tag, timeouts, and the break of a mutual
wait (R292 to R303, R438 to R440). -/
namespace Sys2Proof.Machine

-- Outstanding requests.

/-- Slot k freed. -/
def dropSlot (s : State) (k : Nat) : State := { s with memp := { s.memp with out := mset s.memp.out {} k {} } }

/-- The outstanding request that a response's tag names, if any (R300). -/
def tagged (s : State) (tag : Nat) : Option MReq :=
  let r := mget s.memp.out {} (tag % 128)
  if tag / 128 % 16 = s.memp.gen && r.who != .none then some r else none

/-- A response that names nothing outstanding (R300). -/
def spurious (s : State) : State := raise (incReg s 0x1CC 0 32) 0x2C 0

/-- The status of a response so far: FAULT before ERROR before OKAY (R440). -/
def worse (a b : Nat) : Nat :=
  let b := if b % 4 = 3 then 1 else b % 4
  if a = 2 || b = 2 then 2 else max a b

-- Channels (R280, R297).

/-- The address of a request that met FAULT, ERROR or a timeout. -/
def xaddr (s : State) (c a : Nat) : State :=
  setRegF (setReg s (chReg c 0xC) (BitVec.ofNat 32 (a % m32 / 32 * 32))) (chReg c 0x10) 0 16 (a / m32)

/-- The state that a failing response brings a channel to: FAULT, or HALTED with CAUSE ERROR. -/
def failStop (status addr row : Nat) : ChStop := if status = 2 then ⟨4, 0, addr, row⟩ else ⟨5, 2, addr, row⟩

/-- XLATE_FAULT or MEM_ERR for a request of channel c. -/
def failEvent (s : State) (c : Nat) (r : MReq) (status : Nat) : State :=
  raise (xaddr s c r.addr) (if status = 2 then 0x29 else 0x2A) c

/-- A channel stops for a failing response of a row, unless it already stops for one or is being aborted. -/
def rowFail (s : State) (c : Nat) (r : MReq) (status : Nat) : State :=
  let s := failEvent s c r status
  let h := chan s c
  let busy := match h.stopTo with | some t => t.st == 4 || t.cause != 1 | none => false
  if h.aborting || busy then s else chanStopTo s c (failStop status 0 0)

/-- The side-band word that half i of a line brings. -/
def lineKept (l : LineIn) (i : Nat) : Option Side := l.sides.map fun p => if i % 2 = 0 then p.1 else p.2

/-- The lines of a row's read placed in the row, with what those of the read cache bring (R283, R290, R418). -/
def rowPut (rw : RowFl) (size addr : Nat) (ls : List LineIn) : RowFl :=
  (natsTo (2 * ls.length)).foldl (fun rw i =>
    let k := (addr + 32 * i + m48 - rw.ext % m48) % m48 / 32
    let l := lget ls {} (i / 2)
    if 32 * k < size then { rw with data := mset rw.data 0 k (lineSector l.data i), kept := mset rw.kept none k (lineKept l i) } else rw) rw

/-- The size of the rows of a row's kibble. -/
def rowSize (h : Chan) (rw : RowFl) : Nat := ((h.kibs.find? (·.kid == rw.kid)).map (·.size)).getD 0

/-- Lines arrive for row `id` of channel c. -/
def rowArrive (s : State) (c id addr : Nat) (ls : List LineIn) : State :=
  let h := chan s c
  chanSettle (updRow s c id fun rw => rowPut { rw with outN := rw.outN - 1, beatT := mclkOf s } (rowSize h rw) addr ls) c

/-- A request of row `id` of channel c is answered with a failing status; the channel may hold the row no more (R303). -/
def rowLost (s : State) (c id : Nat) (r : MReq) (status : Nat) : State :=
  if (chan s c).rows.any (·.id == id) then
    chanSettle (rowFail (updRow s c id fun rw => { rw with outN := rw.outN - 1, failed := true }) c r status) c
  else chanSettle (failEvent s c r status) c

/-- A kibble arrives at channel c and is checked (R277, R278). -/
def kibArrive (s : State) (c : Nat) (f : KibFetch) (d : BitVec 512) : State :=
  let s := updChan s c fun h => { h with fetch := none, nextId := h.nextId + 1 }
  let k := { kibOf f.addr (lineSector d (f.addr / 32)) with kid := (chan s c).nextId }
  if kibBad s c k f.first f.row0 then
    chanSettle (updChan s c fun h => { h with tail := some ⟨5, 5, f.addr, 0⟩ }) c
  else
    chanSettle (updChan s c fun h =>
      { h with kibs := h.kibs ++ [kibTake s k f.row0 f.resumed], unchecked := h.unchecked && !f.first }) c

/-- The read of a kibble fails (R297): the kibbles held complete first. -/
def kibLost (s : State) (c : Nat) (f : KibFetch) (r : MReq) (status : Nat) : State :=
  let s := failEvent s c r status
  chanSettle (updChan s c fun h => { h with fetch := none, tail := some (failStop status f.addr f.row0) }) c

/-- The answer to a kibble read. A channel that stops, fails or is aborted takes no kibble, and one that holds the read no more nothing
(R297, R303). -/
def kibAnswer (s : State) (c : Nat) (r : MReq) : State :=
  let h := chan s c
  match h.fetch.filter (·.id == r.row) with
  | none => chanSettle (if r.worst = 0 then s else failEvent s c r r.worst) c
  | some f =>
    if r.worst ≠ 0 then kibLost s c f r r.worst
    else if h.aborting || h.stopTo.isSome then chanSettle (updChan s c fun h => { h with fetch := none }) c
    else kibArrive s c f (lget r.got 0 0)

-- Responses (R295, R297, R440).

/-- The home of the transfer in progress. -/
def xferHome (s : State) : Nat := (s.acc.xfers.head?.map (·.home)).getD 0

/-- A read is complete. The sectors of a reload are verified as they enter the accumulator memory (R420). -/
def readDone (s : State) (r : MReq) : State :=
  match r.who with
  | .chanKib c => kibAnswer s c r
  | .chanRow c id =>
    if r.worst = 0 then
      let s := if r.cache && !r.noalloc then
        foldTo r.beats (fun i s => cacheFill s (lineAddr r i) (lget r.got 0 i)) s else s
      rowArrive s c id r.addr (r.got.map fun d => { data := d })
    else rowLost s c id r r.worst
  | .seam k =>
    let bad := if r.worst = 0 then badSectors r.got r.checks fun _ => true else 0
    let s := foldTo bad (fun _ s => checkFail s false false 4) s
    let ok := r.worst == 0 && bad == 0
    xferPart (if ok then reloadLines s k r.row (xferHome s) r.addr r.got else s) k r.beats ok
  | .image => if r.worst = 0 then imgTake s r else imgFail s
  | _ => s

/-- A request with one more line received; a reload's gets its checks at ingress (R417, R440). -/
def takeBeat (r : MReq) (data : BitVec 512) (status : Nat) : MReq :=
  { r with
    got := r.got ++ [data], worst := worse r.worst status
    checks := match r.who with | .seam _ => r.checks ++ lineChecks [data] | _ => r.checks }

/-- A beat of a read response arrives (R440). -/
def readBeat (s : State) (tag : Nat) (r : MReq) (data : BitVec 512) (status : Nat) (last : Bool) : State :=
  let r := takeBeat r data status
  if last then readDone (dropSlot s (tag % 128)) r
  else { s with memp := { s.memp with out := mset s.memp.out {} (tag % 128) r } }

/-- A write response arrives (R295). -/
def writeDone (s : State) (r : MReq) (status : Nat) : State :=
  match r.who with
  | .chanRow c id =>
    if status = 0 then chanSettle (updRow s c id fun rw => { rw with outN := rw.outN - 1 }) c
    else rowLost s c id r status
  | .seam k => xferPart s k r.beats (status == 0)
  | .writer src => if status = 0 then s else raise s (if status = 2 then 0x29 else 0x2A) (0x8000 + src % 16)
  | _ => s

-- Acceptance (R266, R288, R292).

/-- The request that the port presents is accepted (R292, R438): a write invalidates the cached lines it covers (R266), and its beats follow
(R439). -/
def acceptReq (s : State) : State :=
  match s.memp.req with
  | none => s
  | some (k, r) =>
    let s := takeBell { s with memp := { s.memp with req := none } } r
    let s := if r.write then foldTo r.beats (fun i s => cacheDrop s (lineAddr r i)) s else s
    let s := takeSlot s k r
    { s with memp := { s.memp with beats := s.memp.beats ++ (if r.write then writeBeats r else []) } }

/-- A hit of the read cache is delivered to channel c (R265). -/
def hitDeliver (s : State) (h : CacheHit) : State :=
  rowArrive { s with spad := { s.spad with hits := s.spad.hits.erase h } } h.c h.id h.addr h.lines

-- Timeouts (R298, R299).

/-- MEMP_TO_LOG of a request (R307). -/
def toLogWord (r : MReq) : W32 :=
  let who := match r.who with
    | .seam k => [(1, 28), (k, 8)]
    | .lost k => [(1, 28), (k, 8)]
    | .writer _ => [(2, 28)]
    | .image => [(3, 28)]
    | .chanKib c => [(c, 16)]
    | .chanRow c _ => [(c, 16)]
    | _ => []
  word ([(1, 31), (b2n r.write, 30), (r.src, 24)] ++ who)

/-- Writer writes that the port has not accepted. -/
def writerWaits (s : State) : Nat :=
  ((mempWaits s).filter fun r => match r.who with | .writer _ => true | _ => false).length

/-- A request's timer expires (R299). -/
def timeOut (s : State) (r : MReq) : State :=
  let s := if bitB (reg s 0x1C8) 31 then s else setReg s 0x1C8 (toLogWord r)
  let s := match chanOfReq r with | some c => xaddr s c r.addr | none => s
  let s := addReg s 0x1D0 0 32 (writerWaits s)
  let image := imgPending s
  let s := freeSlots { s with memp := { s.memp with closed := true } }
  let s := xferAbort (haltChans (raise s 0x2B 0) (fun st => st != 0 && st != 4) 3 false)
  if image then imgFail s else s

/-- The MCLK cycle in which a request's timer expires (R298). -/
def timerEnd (r : MReq) : Nat := r.t0 + r.timeout

/-- The timer of slot k has expired. -/
def slotTimeOut (k : Nat) (s : State) : State :=
  let r := mget s.memp.out {} k
  if r.who == .none then s else timeOut s r

-- Ring space and mutual waits (R257, R261, R303).

/-- Whether a channel in WAIT may go on. -/
def waitMay (s : State) (c : Nat) : Bool :=
  let h := chan s c
  h.st == 2 && (match kibToIssue h with
    | some i =>
      let k := lget h.kibs {} i
      rowBegun (ringOf s k.ring) (nextQ s c i k) || mayBegin s k.ring
    | none => true)

/-- Channel c is RUNNING again. -/
def waitEnd (s : State) (c : Nat) : State := updChan s c fun h => { h with st := 1 }

/-- The first row of the earliest half of a ring of which no row is released. -/
def freshHalf (r : Ring) : Nat :=
  let h := halfRows r
  if r.rel % h = 0 then r.rel else add32 r.rel (h - r.rel % h)

/-- Whether a channel may be broken (R303): an ingress channel, its chain done or not, whose ring holds a half with no row released. -/
def breakable (s : State) (h : Chan) : Bool :=
  match fillRing h with
  | some n =>
    let r := ringOf s n
    r.en && !r.psrc && decide (0 < sub32 r.beg (freshHalf r)) && decide (sub32 r.beg (freshHalf r) ≤ r.nrows)
  | none => false

/-- The most recently armed channel that may be broken. -/
def breakChan (s : State) : Option Nat :=
  (s.chans.filter fun e => breakable s e.2).foldl (fun a e =>
    match a with
    | none => some e.1
    | some c => if (chan s c).armOrd < e.2.armOrd then some e.1 else some c) none

/-- The halves of the broken channel's ring are dropped, its tag counter returns, and it halts (R303). -/
def breakNow (s : State) (c : Nat) : State :=
  let h := chan s c
  match fillRing h with
  | none => s
  | some n =>
    let r := ringOf s n
    let q := freshHalf r
    let full := decide (sub32 r.prod q ≥ halfRows r) && decide (sub32 r.prod q ≤ r.nrows)
    let ep := if full then halfTag r (halfOf r q) else h.ep
    let w := match h.halves.find? fun x => x.ring == n && x.q == q with | some x => (x.addr, x.row) | none => chanWhere h
    let s := setRing (dropAhead s c) n (trimPages { r with prod := q, beg := q })
    let s := updChan s c fun h => { h with ep := ep, halves := h.halves.filter (·.ring != n) }
    let s := incReg (if bitB (reg s 0x1D4) 31 then s else setReg s 0x1D4 (word [(1, 31), (c, 16), (regF s 0x1D4 0 16, 0)])) 0x1D4 0 16
    chanEnter (raise s 0x2E c) c 5 4 w.1 w.2

/-- The break of a mutual wait (R303). -/
def deadlockBreak (s : State) : State :=
  match breakChan s with
  | some c => breakNow { s with memp := { s.memp with mwait := 0 } } c
  | none => s

end Sys2Proof.Machine
end

