-- ==== Sys2Proof/Machine/MemPort.lean ====
section
/-! DEFINITION. The meanings of the events of the memory port, the stream channels and the read cache (R245, R265, R292 to
R303, R440). -/
namespace Sys2Proof.Machine

/-- MEM_REQUEST_ISSUE (R292, R438): the request that the port presents is accepted, in the first MCLK cycle that presents one (log 20); the next
one follows in a later cycle (R291). -/
def execMemRequestIssue (s : State) : Out :=
  act s (guardS (clocksOn s && s.clk.st == 0 && !accessHeld s) (awaitS 4 (fun s => s.memp.req.isSome) acceptReq))

/-- Whether the port takes a response beat in the present MCLK cycle: it sends no write beat, and no other has come (R291, R440). -/
def beatMay (s : State) : Bool := s.memp.beat.isNone && decide (s.memp.beatT ≤ mclkOf s)

/-- A response beat, in the first MCLK cycle that may have it (log 20). -/
def beatIn (f : State → State) (s : State) : State :=
  awaitS (2 * s.memp.beats.length + 4) beatMay (fun s => f { s with memp := { s.memp with beatT := mclkOf s + 1 } }) s

/-- A beat for the request that its tag names, or for none; a read's beats are as many as its lines (R440). -/
def beatArrive (tag : Nat) (data : BitVec 512) (status : Nat) (last : Bool) (s : State) : State :=
  match tagged s tag with
  | some r => if !r.write && last == decide (r.got.length + 1 = r.beats) then readBeat s tag r data status last else s
  | none => spurious s

/-- MEM_READ_BEAT (R440). -/
def execMemReadBeat (tag : Nat) (data : BitVec 512) (status : Nat) (last : Bool) (s : State) : Out :=
  act s (beatIn (beatArrive tag data status last))

/-- A write response for the request that its tag names, or for none. -/
def responseArrive (tag status : Nat) (s : State) : State :=
  match tagged s tag with
  | some r => if r.write then writeDone (dropSlot s (tag % 128)) r (worse 0 status) else s
  | none => spurious s

/-- MEM_WRITE_RESPONSE (R295). -/
def execMemWriteResponse (tag : Nat) (status : Nat) (s : State) : Out := act s (beatIn (responseArrive tag status))

/-- MEM_TIMEOUT (R299). -/
def execMemTimeout (slot : Nat) (s : State) : Out :=
  act s fun s =>
    let r := mget s.memp.out {} slot
    if r.who == .none then s else atMclk (timerEnd r) (slotTimeOut slot) s

/-- CH_WAIT_END (R257, R261): the space or the pages that a channel waits for are there. -/
def execChWaitEnd (c : Nat) (s : State) : Out := act s (guardS (waitMay s c) fun s => waitEnd s c)

/-- DEADLOCK_BREAK (R303): a mutual wait has held for 4,096 ACLK cycles. -/
def execDeadlockBreak (s : State) : Out := act s (guardS (decide (4096 ≤ s.memp.mwait)) deadlockBreak)

/-- The oldest DMA request of a bank that lost 64 pairs wins the present one, and counts among its accesses (R245). -/
def dmaWin (bank : Nat) (s : State) : State :=
  let a := s.spad.arb
  incReg { s with spad := { s.spad with arb := { a with
    acc := mupd a.acc 0 bank (· + 1), dma := mupd a.dma 0 bank (· - 1), starve := mset a.starve 0 bank 0
    won := a.won ++ [bank] } } } 0x605C 0 32

/-- DMA_WIN (R245). -/
def execDmaWin (bank : Nat) (s : State) : Out :=
  act s (guardS (decide (bank < 32) && mget s.spad.arb.starve 0 bank == 64 && decide (0 < mget s.spad.arb.dma 0 bank)) (dmaWin bank))

/-- CACHE_HIT_DELIVERY (R265): four MCLK cycles after the request. -/
def execCacheHitDelivery (c : Nat) (s : State) : Out :=
  act s fun s =>
    match s.spad.hits.find? (·.c == c) with
    | some h => atMclk h.due (fun u => if u.spad.hits.contains h then hitDeliver u h else u) s
    | none => s

end Sys2Proof.Machine
end

