-- ==== Sys2Proof/Machine/Packets.lean ====
section
/-! DEFINITION. The meanings of the packets and control flits that arrive at a link port, and of the timers of the survey, of the
barrier and of the links (R309 to R333). -/
namespace Sys2Proof.Machine

/-- Whether port n is there and the link layer runs: a reset below L0 leaves it working (R335), and one of L0 holds the ports DOWN from the
SCLK cycle before it is asserted (R408). -/
def linkIn (s : State) (n : Nat) : Bool := clocksOn s && hasLink s n && (portOf s n).st != 0 && !s.rst.linksDown

/-- A packet of type `ty` arrives at port n. -/
def onPacket (ty n : Nat) (head : Flit) (body : List Flit) (s : State) : State :=
  guardS (linkIn s n && packetRow ty head body) (fun s => packetArrive s n head body) s

/-- READ (R314, R315). -/
def execRead (n : Nat) (head : Flit) (s : State) : Out := act s (onPacket 0 n head [])
/-- WRITE. -/
def execWrite (n : Nat) (head : Flit) (body : List Flit) (s : State) : Out := act s (onPacket 1 n head body)
/-- CMD. -/
def execCmd (n : Nat) (head : Flit) (s : State) : Out := act s (onPacket 2 n head [])
/-- READ_DATA. -/
def execReadData (n : Nat) (head : Flit) (body : List Flit) (s : State) : Out := act s (onPacket 3 n head body)
/-- WRITE_ACK. -/
def execWriteAck (n : Nat) (head : Flit) (s : State) : Out := act s (onPacket 4 n head [])
/-- CMD_DONE. -/
def execCmdDone (n : Nat) (head : Flit) (s : State) : Out := act s (onPacket 5 n head [])

/-- A control flit arrives at port n with its CR field: the credit counts (R334), the flit itself is dropped at a port in reset (R410). -/
def onCtl (n cr : Nat) (f : State → State) (s : State) : State :=
  guardS (linkIn s n) (fun s => guardS (!unitHeld s (10 + n)) f (rxFlit s n cr)) s

/-- A control flit for the fabric interface, which drops it in reset, and before the survey (R361, R410). -/
def onFabCtl (n cr : Nat) (f : State → State) : State → State := onCtl n cr fun s => guardS (decide (2 ≤ s.boot.st) && !fabHeld s) f s

/-- IDLE (R309). -/
def execIdle (n cr : Nat) (s : State) : Out := act s (onCtl n cr fun s => s)
/-- HELLO (R322). -/
def execHello (n cr id port : Nat) (s : State) : Out := act s (onFabCtl n cr fun s => onHello s n id port)
/-- TREE (R322, R323). -/
def execTree (n cr root depth sender : Nat) (restart : Bool) (s : State) : Out :=
  act s (onFabCtl n cr fun s => onTree s n root depth sender restart)
/-- REPORT (R322). -/
def execReport (n cr id : Nat) (links : List LinkEnd) (s : State) : Out := act s (onFabCtl n cr fun s => onReport s (some n) id links)
/-- TOPO (R322, R325). -/
def execTopo (n cr : Nat) (links : List LinkEnd) (tiles dups : List Nat) (s : State) : Out :=
  act s (onFabCtl n cr fun s => onTopo s ⟨links, tiles, dups⟩)
/-- RESYNC_REQ (R332). -/
def execResyncReq (n cr : Nat) (s : State) : Out := act s (onCtl n cr fun s => onResyncReq s n)
/-- RESYNC_ACK (R332): the credit that its own flit returns comes on top of its counts. -/
def execResyncAck (n cr c0 c1 c2 : Nat) (s : State) : Out :=
  act s (guardS (linkIn s n) fun s => rxFlit (guardS (!unitHeld s (10 + n)) (fun s => onResyncAck s n c0 c1 c2) s) n cr)
/-- LINK_RESET (R333). -/
def execLinkReset (n cr : Nat) (s : State) : Out := act s (onCtl n cr fun s => onLinkReset s n)
/-- RESERVED_CTYPE_FLIT (R309): discarded, and counted in FAB_HDR_ERR. -/
def execReservedCtypeFlit (n cr ctype : Nat) (s : State) : Out :=
  act s (guardS (decide (9 ≤ ctype) && decide (ctype ≤ 15)) (onCtl n cr fun s => incReg s 0x7050 0 32))

/-- PREPARE (R328). -/
def execPrepare (n cr src dst e e1 : Nat) (m : ModeWord) (s : State) : Out :=
  act s (onFabCtl n cr fun s => onBarrier s { ctype := 8, sub := bPrepare, a := src, b := dst, c := e, d := e1, m := m })
/-- BARRIER_ACK (R328). -/
def execBarrierAck (n cr src dst : Nat) (s : State) : Out :=
  act s (onFabCtl n cr fun s => onBarrier s { ctype := 8, sub := bAck, a := src, b := dst })
/-- BARRIER_NAK (R328). -/
def execBarrierNak (n cr src dst : Nat) (s : State) : Out :=
  act s (onFabCtl n cr fun s => onBarrier s { ctype := 8, sub := bNak, a := src, b := dst })
/-- COMMIT (R328). -/
def execCommit (n cr src dst e1 : Nat) (s : State) : Out :=
  act s (onFabCtl n cr fun s => onBarrier s { ctype := 8, sub := bCommit, a := src, b := dst, d := e1 })
/-- BARRIER_ABORT (R328). -/
def execBarrierAbort (n cr src dst : Nat) (s : State) : Out :=
  act s (onFabCtl n cr fun s => onBarrier s { ctype := 8, sub := bAbort, a := src, b := dst })
/-- BARRIER_DONE (R328). -/
def execBarrierDone (n cr src dst : Nat) (s : State) : Out :=
  act s (onFabCtl n cr fun s => onBarrier s { ctype := 8, sub := bDone, a := src, b := dst })

/-- BARRIER_TIMEOUT (R328): no ACK of every member within TIMEOUT of the first PREPARE. -/
def execBarrierTimeout (s : State) : Out :=
  act s (guardS (s.mode.lead == 1) (atMclk (s.mode.t0 + barrierTo s) leaderAbort))
/-- COMMIT_RESEND (R328). -/
def execCommitResend (s : State) : Out :=
  act s (guardS (s.mode.lead == 2) (atMclk (s.mode.t0 + barrierTo s) (commitAgain s.mode.t0)))

/-- Whether a survey may run: from the end of step 2 of start-up, while no reset holds the fabric interface (R361, R410). -/
def surveyOn (s : State) : Bool := clocksOn s && decide (2 ≤ s.boot.st) && !fabHeld s
/-- Whether the survey is in state `st`. -/
def surveyIn (s : State) (st : Nat) : Bool := surveyOn s && s.fab.st == st
/-- Whether HELLO is sent: in the HELLO state, and for a port that a RESURVEY has put back to HELLO (R322, R331). -/
def helloOn (s : State) : Bool := surveyOn s && (s.fab.st == 0 || s.fab.ports.any (·.st == 2))

/-- HELLO sent on every port in HELLO, and in the HELLO state on those that are UP already. -/
def helloAll (s : State) : State :=
  eachS ((natsTo 6).filter fun n => (portOf s n).st == 2 || (s.fab.st == 0 && (portOf s n).st == 3))
    (fun n s => pushCtl s n { ctype := 1, a := propId s, b := n }) s

/-- HELLO_TIMER (R322): every microsecond of the HELLO state. -/
def execHelloTimer (s : State) : Out :=
  act s (guardS (helloOn s) (awaitS 2001 (fun u => (mclkOf u - u.fab.phaseT) % 1000 == 0) helloAll))

/-- The ports in HELLO that have heard no peer are DOWN (R331). -/
def noPeers (s : State) : State :=
  { s with fab := { s.fab with ports := s.fab.ports.map fun p => if p.st = 2 && !p.heard then { p with st := 1 } else p } }

/-- The end of HELLO: TREE, or READY alone. -/
def helloEnd (s : State) : State :=
  let s := noPeers s
  if (upPorts s).isEmpty then readyAlone s else startTree s false

/-- HELLO_PHASE_END (R322): after 20 µs. -/
def execHelloPhaseEnd (s : State) : Out := act s (guardS (surveyIn s 0) (atMclk (s.fab.phaseT + 20000) helloEnd))

/-- TREE_PHASE_END (R322): 8 µs without a change. -/
def execTreePhaseEnd (s : State) : Out := act s (guardS (surveyIn s 1) (atMclk (s.fab.phaseT + 8000) startReport))

/-- The MCLK cycle in which port n is declared FAILED if nothing arrives, or if its resync is not answered (R331). -/
def linkDue (s : State) (n : Nat) : Option Nat :=
  let p := portOf s n
  let lim := zeroIs 256 (regF s 0x7004 8 8) * 64
  match p.st == 3, p.resync with
  | true, true => some (min p.lastRx p.resyncT + lim)
  | true, false => some (p.lastRx + lim)
  | false, true => some (p.resyncT + lim)
  | false, false => none

/-- LINK_TIMEOUT (R331). -/
def execLinkTimeout (n : Nat) (s : State) : Out :=
  act s fun s =>
    match linkDue s n with
    | some d => guardS (linkIn s n) (atMclk d fun s => linkFail s n) s
    | none => s

/-- The request of a tag is answered locally, unless its answer has come meanwhile (R318). -/
def reqExpire (tag : Nat) (r : FReq) (s : State) : State :=
  guardS (mget s.fab.reqs {} tag == r) (fun s => freeReq (incReg (answerFail s r 4) 0x7054 0 32) tag) s

/-- REQ_TIMEOUT (R318). -/
def execReqTimeout (tag : Nat) (s : State) : Out :=
  act s (guardS (mget s.fab.reqs {} tag).act
    (atMclk ((mget s.fab.reqs {} tag).t0 + zeroIs 256 (regF s 0x7004 16 8) * 1024) (reqExpire tag (mget s.fab.reqs {} tag))))

end Sys2Proof.Machine
end

