-- ==== Sys2Proof/Machine/Program.lean ====
section
/-! DEFINITION. The meanings of the sequencer's events: the items of a program, the start of a bench, the end of a record, and
freezes (R214 to R236, R461). -/
namespace Sys2Proof.Machine

/-- Whether the sequencer reads an item of this type, well formed, next (R217). -/
def itemIs (ty : Nat) (s : State) : Bool :=
  (itemDue s).isSome && !itemBad s && itemType (pramWord s s.seq.pc) == ty

/-- The item of type `ty` and `n` words is read in its slot. -/
def onItem (ty n : Nat) (f : State → State) (s : State) : State :=
  guardS (itemIs ty s) (inSlot itemDue fun s => itemRead s n f) s

/-- A record read (R218, R224). -/
def onRecord (ty n : Nat) : State → State := onItem ty n fun s => recordItem s ty n

/-- ARRAY_RECORD. -/
def execArrayRecord (s : State) : Out := act s (onRecord 0x01 6)
/-- DERRICK_RECORD. -/
def execDerrickRecord (s : State) : Out := act s (onRecord 0x02 2)
/-- DRAIN_RECORD. -/
def execDrainRecord (s : State) : Out := act s (onRecord 0x03 2)
/-- GATE_RECORD. -/
def execGateRecord (s : State) : Out := act s (onRecord 0x04 4)
/-- SCAN_RECORD. -/
def execScanRecord (s : State) : Out := act s (onRecord 0x05 4)
/-- VECTOR_RECORD. -/
def execVectorRecord (s : State) : Out := act s (onRecord 0x06 4)
/-- PROG_START: START (R218). -/
def execProgStart (s : State) : Out := act s (onItem 0x20 2 startItem)
/-- PROG_LOOP: LOOP (R228). -/
def execProgLoop (s : State) : Out := act s (onItem 0x21 1 loopItem)
/-- ENDLOOP (R228). -/
def execEndloop (s : State) : Out := act s (onItem 0x22 1 endloopItem)
/-- CNTSET (R228). -/
def execCntset (s : State) : Out := act s (onItem 0x23 1 cntsetItem)
/-- TDSET (R227). -/
def execTdset (s : State) : Out := act s (onItem 0x24 2 tdsetItem)
/-- TDADD (R227). -/
def execTdadd (s : State) : Out := act s (onItem 0x25 2 tdaddItem)
/-- PROG_END: END (R236). -/
def execProgEnd (s : State) : Out := act s (onItem 0x26 1 endItem)

/-- RESERVED_ITEM (R461): a reserved ITYPE, or an item that would pass word 16,383. -/
def execReservedItem (s : State) : Out :=
  act s (guardS ((itemDue s).isSome && itemBad s) (inSlot itemDue fun s => itemRead s 1 itemHalt))

/-- BENCH_START (R218, R219): the staged bench at its boundary, once its records fit (R221). -/
def execBenchStart (s : State) : Out := act s (guardS (benchFits s) (inSlot benchDue benchStart))

/-- Whether record `pos` of bench `b` has done its last engine action. In the slot in which a halt is decided no record
finishes any more: the halt finds it in progress (R220, R232, log 112). -/
def recReady (b pos : Nat) (s : State) : Bool :=
  match recOf s b pos with
  | some (x, r) => seqActive s && !s.seq.frozen && s.seq.haltReq.isNone && recOver s x r
  | none => false

/-- The record finishes. -/
def recEnd (b pos : Nat) (s : State) : State :=
  match recOf s b pos with
  | some (x, r) => recFinish s x r
  | none => s

/-- RECORD_FINISH (R220): what is still on its way to its place arrives first. -/
def execRecordFinish (b pos : Nat) (s : State) : Out := act s (awaitS 512 (recReady b pos) (recEnd b pos))

/-- FREEZE_END (R214, R215): the fixed causes run out, and what the others wait for is there. -/
def execFreezeEnd (s : State) : Out :=
  act s (guardS s.seq.frozen (awaitS (2 * (s.seq.frz.ecc + s.seq.frz.bank + s.seq.frz.derrick) + 2) frzOver frzEnd))

/-- 2^FREEZE_LIM (R216). -/
def frzLim (s : State) : Nat := 2 ^ regF s 0x3000 0 5

/-- Whether a freeze has lasted longer than its limit. -/
def frzTooLong (s : State) : Bool := s.seq.frozen && decide (frzLim s < s.seq.frzLen)

/-- FREEZE_LONG is raised once for a freeze, and halts the sequencer under FREEZE_HALT (R216, R232). -/
def frzReport (s : State) : State :=
  let s := raise { s with seq := { s.seq with longDone := true } } 0x07 0
  if bitB (reg s 0x3000) 8 then reqHaltSeq s 8 else s

/-- FREEZE_LONG (R216). -/
def execFreezeLong (s : State) : Out :=
  act s (guardS (s.seq.frozen && regF s 0x3000 0 5 != 0 && !s.seq.longDone)
    (awaitS (2 * (frzLim s - s.seq.frzLen) + 4) frzTooLong frzReport))

end Sys2Proof.Machine
end

