-- ==== Sys2Proof/Machine/Slots.lean ====
section
/-! DEFINITION. The meanings of the slot-timed events of the array, the derrick, the drains, the gate pipe, the scan stage and
the special function unit (R64 to R90, R105 to R108, R113, R135 to R158, R193). An event comes in its slot (log 20). -/
namespace Sys2Proof.Machine

/-- The tile as a record finds it that reads next: records that started earlier keep the read ports that they still take in the present
slot (R97). -/
def inTurn (s : State) (uid pos : Nat) : State := setAhead s (stagesAhead s uid pos + vecAhead s uid pos)

/-- What a record of a bench in progress does next, in the slot that `due` gives, if it is of type `ty`. -/
def onRec (ty uid pos : Nat) (due : State → Bench → Rec → Option Nat) (f : State → Bench → Rec → State) : State → State :=
  inSlot (fun s =>
      match recOf s uid pos with
      | some (b, r) => if r.ty = ty && seqActive s then due s b r else none
      | none => none)
    fun s =>
      match recOf s uid pos with
      | some (b, r) => setAhead (f (inTurn s uid pos) b r) s.acc.ahead
      | none => s

/-- A slot, where a condition holds. -/
def dueIf (c : Bool) (slot : Nat) : Option Nat := if c then some slot else none

/-- WAVEFRONT_ISSUE (R64). -/
def execWavefrontIssue (b pos : Nat) (s : State) : Out :=
  act s (onRec 1 b pos (fun _ b r => dueIf (decide (r.n < aWaves r)) (aDue b r r.n)) waveIssue)

/-- The oldest wavefront comes to the write port, 256 slots after it entered row 0. -/
def waveDue (s : State) : Option Nat := s.arr.waves.head?.map fun w => w.entry + 256

/-- The oldest wavefront at the write port. -/
def waveOut (s : State) : State :=
  match s.arr.waves with
  | w :: _ => wavePort s w
  | [] => s

/-- WAVEFRONT_WRITE_PORT (R93, R95). -/
def execWavefrontWritePort (s : State) : Out := act s (inSlot waveDue waveOut)

/-- The slot of the first comparison that is due. -/
def csumDue (s : State) : Option Nat := s.arr.csums.head?.map (·.due)

/-- The first comparison. -/
def csumOut (s : State) : State :=
  match s.arr.csums with
  | c :: _ => csumStep s c
  | [] => s

/-- CSUM_COMPARE (R88). -/
def execCsumCompare (s : State) : Out := act s (inSlot csumDue csumOut)

/-- DERRICK_ROW (R77). -/
def execDerrickRow (b pos : Nat) (s : State) : Out :=
  act s (onRec 2 b pos (fun _ b r => dueIf (decide (r.n < dRows r)) (dDue b r r.n)) derrickRowStep)

/-- DRAIN_READ (R106, R108). -/
def execDrainRead (b pos : Nat) (s : State) : Out :=
  act s (onRec 3 b pos (fun _ b r => dueIf (decide (r.n < drRows r)) (drDue b r r.n)) drainStep)

/-- GATE_PARAM_READ (R135). -/
def execGateParamRead (b pos : Nat) (s : State) : Out :=
  act s (onRec 4 b pos
    (fun _ b r => dueIf (decide (r.par.length < gParRows r)) (b.start + gIssue r - 13 + r.par.length)) gateParam)

/-- GATE_STREAM_START (R136). -/
def execGateStreamStart (b pos : Nat) (s : State) : Out :=
  act s (onRec 4 b pos (fun _ b r => dueIf (decide (r.n < gN r) && r.par.length == gParRows r) (gDue b r r.n)) gateStart)

/-- The commit slot of the first step in flight of a record (R136). -/
def gateCommitDue (s : State) (b : Bench) (r : Rec) : Option Nat := (firstStep s b r).map fun t => t.g + 25

/-- The commit of the first step in flight of a record. -/
def gateCommitFirst (s : State) (b : Bench) (r : Rec) : State :=
  match firstStep s b r with
  | some t => gateCommitNext s b r t
  | none => s

/-- GATE_COMMIT (R113, R136). -/
def execGateCommit (b pos : Nat) (s : State) : Out := act s (onRec 4 b pos gateCommitDue gateCommitFirst)

/-- SCAN_PARAM_READ (R153). -/
def execScanParamRead (b pos : Nat) (s : State) : Out :=
  act s (onRec 5 b pos
    (fun _ b r => dueIf (decide (r.par.length < sParRows r)) (b.start + sIssue r - 24 + r.par.length)) scanParam)

/-- SCAN_CHUNK_DISPATCH (R157). -/
def execScanChunkDispatch (b pos : Nat) (s : State) : Out :=
  act s (onRec 5 b pos (fun _ b r => dueIf (decide (r.n < sN r) && r.par.length == sParRows r) (sDue b r r.n)) scanDispatch)

/-- The slot of the next row of a record's chunks (R156). -/
def scanReadDue (s : State) (b : Bench) (r : Rec) : Option Nat :=
  (scanNextRead s b r).map fun c => c.s + scanR r c.e * c.steps.length

/-- The next row of a record's chunks. -/
def scanReadNext (s : State) (b : Bench) (r : Rec) : State :=
  match scanNextRead s b r with
  | some c => scanRead s b r c
  | none => s

/-- SCAN_STEP (R156). -/
def execScanStep (b pos : Nat) (s : State) : Out := act s (onRec 5 b pos scanReadDue scanReadNext)

/-- The commit slot of a record's first chunk in flight, once its rows have been read (R157). -/
def scanFirstDue (s : State) (b : Bench) (r : Rec) : Option Nat :=
  match firstChunk s b r with
  | some c => dueIf (c.steps.length == sLen r) (scanCommitDue r c)
  | none => none

/-- The commit of a record's first chunk in flight. -/
def scanCommitFirst (s : State) (b : Bench) (r : Rec) : State :=
  match firstChunk s b r with
  | some c => scanCommitStep s b r c
  | none => s

/-- SCAN_COMMIT (R158). -/
def execScanCommit (b pos : Nat) (s : State) : Out := act s (onRec 5 b pos scanFirstDue scanCommitFirst)

/-- The slot of the special function unit's next result. -/
def sfuDue (s : State) : Option Nat := (sfuTake s).map fun x => x.1.due

/-- The special function unit's next result. -/
def sfuOut (s : State) : State :=
  match sfuTake s with
  | some (q, t) => sfuDeliver t q
  | none => s

/-- SFU_RESULT (R193). -/
def execSfuResult (s : State) : Out := act s (inSlot sfuDue sfuOut)

end Sys2Proof.Machine
end

