-- ==== Sys2Proof/Machine/Recipes.lean ====
section
/-! DEFINITION. The meanings of the vector engine's events: the start of a recipe and the instructions that it issues, one for
each opcode (R168 to R192). -/
namespace Sys2Proof.Machine

/-- RECIPE_START (R173). -/
def execRecipeStart (b pos : Nat) (s : State) : Out :=
  act s (onRec 6 b pos (fun _ b r => dueIf (r.n == 0 && !r.slipped) (vDue b r)) vStart)

/-- The slot in which the running recipe issues an instruction of opcode `op`, if that is its next one. -/
def instrDue (op : Nat) (s : State) : Option Nat :=
  match s.vec.run with
  | some run => dueIf (seqActive s && vF (vWord s run) 58 6 == op) run.next
  | none => none

/-- An instruction of opcode `op` is issued in its slot. -/
def onInstr (op : Nat) (f : State → Running → State) : State → State :=
  inSlot (instrDue op) fun s =>
    match s.vec.run with
    | some run => f s run
    | none => s

/-- An instruction that always issues. -/
def vIssue (op : Nat) (f : VFn) : State → State :=
  onInstr op fun s run => vIssueWith s run fun s b r w => (true, f s b r w)

/-- RECIPE_END: END (R173, R182). A word that fails its parity issues nothing (R423). -/
def execRecipeEnd (s : State) : Out :=
  act s (onInstr 0x00 fun s run =>
    if vWordBad s run then vAdvance (ramParity s 2) run run.loops (run.pc + 1) else vFinish s run)

/-- NOP (R182). -/
def execNop (s : State) : Out := act s (vIssue 0x01 fun s _ _ _ => s)

/-- RECIPE_LOOP: LOOP (R183). -/
def execRecipeLoop (s : State) : Out :=
  act s (onInstr 0x02 fun s run =>
    if vWordBad s run then vAdvance (ramParity s 2) run run.loops (run.pc + 1)
    else
      match recOf s run.uid run.pos with
      | some (_, r) => vLoopStart s run r (vWord s run)
      | none => s)

/-- The vector length that a SETVL sets: a count, or a K register; at most 128. -/
def newVl (s : State) (w : W64) : Nat :=
  if vF w 46 2 = 3 then min 128 (lget s.vec.k 0 (vF w 48 2)) else min 128 (vF w 48 10)

/-- SETVL (R182). -/
def execSetvl (s : State) : Out :=
  act s (vIssue 0x03 fun s _ _ w => { s with vec := { s.vec with vl := newVl s w } })

/-- VCOMMIT (R180, R181). -/
def execVcommit (s : State) : Out := act s (vIssue 0x04 vCommit)
/-- VLD (R188): it waits for data that is not yet there. -/
def execVld (s : State) : Out := act s (onInstr 0x08 fun s run => vIssueWith s run vLoad)
/-- VST (R181, R188). -/
def execVst (s : State) : Out := act s (vIssue 0x09 vStore)
/-- VMOV. -/
def execVmov (s : State) : Out := act s (vIssue 0x0A (vOp 2 none 1 fun _ _ a _ _ => pure a))
/-- VSEL. -/
def execVsel (s : State) : Out := act s (vIssue 0x0B vSelect)
/-- VADDI. -/
def execVaddi (s : State) : Out := act s (vIssue 0x10 (vInt 2 (· + ·)))
/-- VSUBI. -/
def execVsubi (s : State) : Out := act s (vIssue 0x11 (vInt 2 (· - ·)))
/-- VMULI. -/
def execVmuli (s : State) : Out := act s (vIssue 0x12 (vInt 3 (· * ·)))
/-- VMINI. -/
def execVmini (s : State) : Out := act s (vIssue 0x13 (vInt 2 min))
/-- VMAXI. -/
def execVmaxi (s : State) : Out := act s (vIssue 0x14 (vInt 2 max))
/-- VSRA. -/
def execVsra (s : State) : Out := act s (vIssue 0x15 vShiftRight)
/-- VSHL: times 2^IMM[4:0]. -/
def execVshl (s : State) : Out :=
  act s (vIssue 0x16 (vOp 2 (some 1) 1 fun _ w a _ _ => lSat (i32 a * 2 ^ vF w 0 5)))
/-- VAND. -/
def execVand (s : State) : Out := act s (vIssue 0x17 (vBits (· &&& ·)))
/-- VOR. -/
def execVor (s : State) : Out := act s (vIssue 0x18 (vBits (· ||| ·)))
/-- VXOR. -/
def execVxor (s : State) : Out := act s (vIssue 0x19 (vBits (· ^^^ ·)))
/-- VADD. -/
def execVadd (s : State) : Out := act s (vIssue 0x20 (vOp 3 (some 4) 2 fun _ _ a b _ => lAdd a b))
/-- VSUB. -/
def execVsub (s : State) : Out := act s (vIssue 0x21 (vOp 3 (some 4) 2 fun _ _ a b _ => lSub a b))
/-- VMUL. -/
def execVmul (s : State) : Out := act s (vIssue 0x22 (vOp 3 (some 4) 2 fun _ _ a b _ => lMul a b))
/-- VFMA: one rounding. -/
def execVfma (s : State) : Out := act s (vIssue 0x23 (vOp 3 (some 4) 3 fun _ _ a b c => lFma a b c))
/-- VMIN. -/
def execVmin (s : State) : Out := act s (vIssue 0x24 (vMinMax false))
/-- VMAX. -/
def execVmax (s : State) : Out := act s (vIssue 0x25 (vMinMax true))
/-- VABS: the sign cleared. -/
def execVabs (s : State) : Out := act s (vIssue 0x26 (vSign fun a => a &&& 0x7FFFFFFF#32))
/-- VNEG: the sign inverted. -/
def execVneg (s : State) : Out := act s (vIssue 0x27 (vSign fun a => a ^^^ 0x80000000#32))
/-- VCVTFI. -/
def execVcvtfi (s : State) : Out := act s (vIssue 0x28 vToInt)
/-- VCVTIF. -/
def execVcvtif (s : State) : Out := act s (vIssue 0x29 vToFloat)
/-- VRND. -/
def execVrnd (s : State) : Out := act s (vIssue 0x2A vRound)
/-- VRMAXF (R186). -/
def execVrmaxf (s : State) : Out := act s (vIssue 0x2B (vReduce 4 redMaxF))
/-- VCMPI. -/
def execVcmpi (s : State) : Out := act s (vIssue 0x30 (vCompare cmpInt))
/-- VCMPF. -/
def execVcmpf (s : State) : Out := act s (vIssue 0x31 (vCompare cmpFloat))
/-- MAND. -/
def execMand (s : State) : Out := act s (vIssue 0x32 (vMaskLogic (· &&& ·)))
/-- MOR. -/
def execMor (s : State) : Out := act s (vIssue 0x33 (vMaskLogic (· ||| ·)))
/-- MXOR. -/
def execMxor (s : State) : Out := act s (vIssue 0x34 (vMaskLogic (· ^^^ ·)))
/-- MNOT. -/
def execMnot (s : State) : Out := act s (vIssue 0x35 (vMaskLogic fun a _ => ~~~a))
/-- MCNT. -/
def execMcnt (s : State) : Out := act s (vIssue 0x36 vCount)
/-- MFLG. -/
def execMflg (s : State) : Out := act s (vIssue 0x37 vFlagMask)
/-- MFCLR. -/
def execMfclr (s : State) : Out := act s (vIssue 0x38 vFlagClear)
/-- VCPRS (R184). -/
def execVcprs (s : State) : Out := act s (vIssue 0x3A vCompress)
/-- VEXPD (R185). -/
def execVexpd (s : State) : Out := act s (vIssue 0x3B vExpand)
/-- VRSUMI (R186). -/
def execVrsumi (s : State) : Out := act s (vIssue 0x3C (vReduce 1 redSumI))
/-- VRMAXI (R186). -/
def execVrmaxi (s : State) : Out := act s (vIssue 0x3D (vReduce 1 redMaxI))
/-- VRSUMF (R186): the tree of R107 over the acting lanes. -/
def execVrsumf (s : State) : Out := act s (vIssue 0x3E (vReduce 4 treeLanes))
/-- VSFU (R189, R193). -/
def execVsfu (s : State) : Out := act s (vIssue 0x3F vSfu)

end Sys2Proof.Machine
end

