-- ==== Sys2Proof/Machine/Registers.lean ====
section
/-! DEFINITION. The meanings of the accesses to the register window: the write of a register without a row of its own, the
refused accesses, and the accesses that are operations (R17, R20, R435, R437 and the chapters' register tables). -/
namespace Sys2Proof.Machine

/-- REG_WRITE (R17, R19): a write to a register whose writes are no operation of their own. -/
def execRegWrite (p : Port) (off : Nat) (val : W32) (s : State) : Out :=
  act s (if hasOwnWrite off val then access p off id else accessW p off val fun s => plainWrite s p off val)

/-- SCP_ONLY_DENIED (R20): an access of HCP to a register marked "SCP only". -/
def execScpOnlyDenied (off : Nat) (_we : Bool) (s : State) : Out := act s (guardS (!accessHeld s && scpOnly off) (access .hcp off id))

/-- DEBUG_PORT_DENIED (R437): an access through the closed debug port. -/
def execDebugPortDenied (off : Nat) (_we : Bool) (s : State) : Out :=
  act s (guardS (!accessHeld s && !dbgOpen s) (access .dbg off id))

/-- LIFECYCLE_CHANGE (R437): the lifecycle inputs change; the change takes effect in the next PCLK cycle. -/
def execLifecycleChange (lc : Nat) (s : State) : Out := act s fun s => { s with pins := { s.pins with lifeIn := lc % 4 } }

/-- CLR_CSUM_COUNT (R90): bit 0 of ARRAY_CMD. -/
def execClrCsumCount (p : Port) (s : State) : Out := act s (access p 0x4024 (clearRegs [0x400C]))

/-- ACC_META_LO_READ (R121): a read of ACC_META_LO captures the upper half. -/
def execAccMetaLoRead (p : Port) (s : State) : Out := act s (access p 0x4418 fun s => metaRead s p)

/-- GP_TBL_DATA_ACCESS (R131): a read or a write of the data register. -/
def execGpTblDataAccess (p : Port) (wr : Option W32) (s : State) : Out := 
  act s (accessData p 0x5C10 wr gpTblWrite (gpTblRead · p))

/-- SWAP_SIG (R131): GP_TBL_CMD.SWAP_SIG. -/
def execSwapSig (p : Port) (s : State) : Out := act s (access p 0x5C14 (gpSwap · false))

/-- SWAP_TANH (R131): GP_TBL_CMD.SWAP_TNH. -/
def execSwapTanh (p : Port) (s : State) : Out := act s (access p 0x5C14 (gpSwap · true))

/-- VEC_RCP_DATA_LO_ACCESS (R192): a read or a write of the data register. -/
def execVecRcpDataLoAccess (p : Port) (wr : Option W32) (s : State) : Out := 
  act s (accessData p 0x480C wr rcpLoWrite (rcpLoRead · p))

/-- VEC_RCP_DATA_HI_ACCESS (R192): a read or a write of the data register. -/
def execVecRcpDataHiAccess (p : Port) (wr : Option W32) (s : State) : Out := 
  act s (accessData p 0x4810 wr rcpHiWrite (rcpHiRead · p))

/-- RECIPE_ARM (R190): a write of VEC_RCP_DIR with ARM. -/
def execRecipeArm (p : Port) (val : W32) (s : State) : Out := act s (if bitB val 27 then accessW p 0x4818 val (rcpDirAny · val) else access p 0x4818 id)

/-- RECIPE_RETIRE (R190): a write of VEC_RCP_DIR with RETIRE and without ARM. -/
def execRecipeRetire (p : Port) (val : W32) (s : State) : Out := act s (if bitB val 26 && !bitB val 27 then accessW p 0x4818 val (rcpDirAny · val) else access p 0x4818 id)

/-- CLR_RUNS (R192): VEC_CMD.CLR_RUNS. -/
def execClrRuns (p : Port) (s : State) : Out := act s (access p 0x4828 (clearRegs [0x4820]))

/-- CLR_DROP (R192): VEC_CMD.CLR_DROP. -/
def execClrDrop (p : Port) (s : State) : Out := act s (access p 0x4828 (clearRegs [0x4824]))

/-- CLR_CHUNKS (R167): SCAN_CMD.CLR_CHUNKS. -/
def execClrChunks (p : Port) (s : State) : Out := act s (access p 0x4F10 (clearRegs [0x4F08]))

/-- CLR_SPOILED (R167): SCAN_CMD.CLR_SPOILED. -/
def execClrSpoiled (p : Port) (s : State) : Out := act s (access p 0x4F10 (clearRegs [0x4F0C]))

/-- SFU_TBL_DATA_ACCESS (R202): a read or a write of the data register. -/
def execSfuTblDataAccess (p : Port) (wr : Option W32) (s : State) : Out := 
  act s (accessData p 0x500C wr sfuTblWrite (sfuTblRead · p))

/-- SFU_SWAP (R202): bank switches of the table slots. -/
def execSfuSwap (p : Port) (val : W32) (s : State) : Out := act s (access p 0x5010 fun s => sfuSwapReq s val)

/-- SFU_UC_DATA_ACCESS (R205): a read or a write of the data register. -/
def execSfuUcDataAccess (p : Port) (wr : Option W32) (s : State) : Out := 
  act s fun s =>
    if hasUcode s then accessData p 0x5018 wr ucWrite (ucRead · p) s else accessUnit false p 0x5018 id s

/-- CLR_CLAMPS (R212): SFU_CMD.CLR_CLAMPS. -/
def execClrClamps (p : Port) (s : State) : Out := act s (access p 0x5020 (clearRegs [0x501C]))

/-- BENCH_PRAM_DATA_ACCESS (R237): a read or a write of the data register. -/
def execBenchPramDataAccess (p : Port) (wr : Option W32) (s : State) : Out := 
  act s (accessData p 0x3048 wr pramWrite (pramRead · p))

/-- BENCH_CLR_COUNTS (R239): BENCH_CMD.CLR_COUNTS. -/
def execBenchClrCounts (p : Port) (s : State) : Out := act s (access p 0x3050 (clearRegs [0x3018, 0x301C]))

/-- SPAD_REGION_WRITE (R250): a write of SPAD_REGIONn. -/
def execSpadRegionWrite (p : Port) (n : Nat) (val : W32) (s : State) : Out := 
  act s (guardS (decide (n < 16)) (accessW p (0x6000 + 4 * n) val fun s => regionWrite s n val))

/-- SPAD_CACHE_WRITE (R267): a write of SPAD_CACHE. -/
def execSpadCacheWrite (p : Port) (val : W32) (s : State) : Out := act s (accessUnit (hasCache s) p 0x6044 (inOrder p 0x6044 val (cacheSizeWrite · val)))

/-- CACHE_INV (R266): SPAD_CMD.CACHE_INV. -/
def execCacheInv (p : Port) (s : State) : Out := act s (accessUnit (hasCache s) p 0x6064 cacheClear)

/-- SPAD_CLR_COUNTS (R274): SPAD_CMD.CLR_COUNTS. -/
def execSpadClrCounts (p : Port) (s : State) : Out := act s (access p 0x6064 spadClear)

/-- CH_BELL_ADD (R285): a write of CH_BELL.ADD of channel c. -/
def execChBellAdd (p : Port) (c : Nat) (val : W32) (s : State) : Out := 
  act s (guardS (decide (c < 128)) (access p (chReg c 0x14) fun s => bellAdd s c val))

/-- OVERCOMMIT_WRITE (R302): a write of MEMP_CTRL. -/
def execOvercommitWrite (p : Port) (val : W32) (s : State) : Out := act s (accessW p 0x1C0 val fun s => mempCtrlWrite s val)

/-- REOPEN (R299): MEMP_CMD.REOPEN. -/
def execReopen (p : Port) (s : State) : Out := act s (access p 0x1D8 mempReopen)

/-- MEMP_CLR_COUNTS (R307): MEMP_CMD.CLR_COUNTS. -/
def execMempClrCounts (p : Port) (s : State) : Out := act s (access p 0x1D8 mempClear)

/-- FAB_CLR_COUNTS (R336): FAB_CMD.CLR_COUNTS. -/
def execFabClrCounts (p : Port) (s : State) : Out := act s (access p 0x7058 fabClear)

/-- MODE_MEMBERS_WRITE (R337): a write of MODE_MEMBERSk. -/
def execModeMembersWrite (p : Port) (k : Nat) (val : W32) (s : State) : Out := 
  act s (guardS (decide (k < 6)) (accessW p (0x9010 + 4 * k) val fun s => membersWrite s k val))

/-- RED_CLR_COUNTS (R360): RED_CMD.CLR_COUNTS of group k. -/
def execRedClrCounts (p : Port) (k : Nat) (s : State) : Out := 
  act s (guardS (decide (k < 2)) (accessUnit (hasAdapt s) p (0x8060 + 256 * k) (redClear k)))

/-- GATE_WRITE (R390): a write of CLK_CTRL. -/
def execGateWrite (p : Port) (val : W32) (s : State) : Out := act s (accessW p 0x300 val fun s => gateCtrl s val)

/-- CLK_DUMP_GO (R396): a write of CLK_DUMP with GO. -/
def execClkDumpGo (p : Port) (val : W32) (s : State) : Out := act s (if bitB val 31 then accessW p 0x31C val (dumpGo · val) else access p 0x31C id)

/-- UNTRIM_FULL (R402): CLK_CMD.UNTRIM_FULL. -/
def execUntrimFull (p : Port) (s : State) : Out := act s (access p 0x320 (untrim · 2))

/-- UNTRIM_MED (R402): CLK_CMD.UNTRIM_MED. -/
def execUntrimMed (p : Port) (s : State) : Out := act s (access p 0x320 (untrim · 1))

/-- CLK_CLR_COUNTS (R402): CLK_CMD.CLR_COUNTS. -/
def execClkClrCounts (p : Port) (s : State) : Out := act s (access p 0x320 stretchClear)

/-- SUP_CLR (R403): SUP_CMD.CLR. -/
def execSupClr (p : Port) (s : State) : Out := act s (access p 0x394 supClear)

/-- WDOG_KICK (R413): a write of RST_WDOG_KICK. -/
def execWdogKick (p : Port) (val : W32) (s : State) : Out := act s (access p 0x21C fun s => kick s p val)

/-- WDOG_CTRL_WRITE (R414): a write of RST_WDOG_CTRL. -/
def execWdogCtrlWrite (p : Port) (val : W32) (s : State) : Out := act s (accessW p 0x218 val fun s => dogCtrl s val)

/-- RST_CTRL_WRITE (R415): a write of RST_CTRL. -/
def execRstCtrlWrite (p : Port) (val : W32) (s : State) : Out := act s (accessW p 0x20C val fun s => rstCtrl s val)

/-- RST_CLR_COUNTS (R415): RST_CMD.CLR_COUNTS. -/
def execRstClrCounts (p : Port) (s : State) : Out := act s (access p 0x224 (clearRegs [0x214]))

/-- EVT_PEND_WRITE (R428): a write of EVT_PENDk. -/
def execEvtPendWrite (p : Port) (k : Nat) (val : W32) (s : State) : Out := 
  act s (guardS (decide (k < 4)) (access p (0x800 + 4 * k) fun s => pendClear s p k val))

/-- CLR_LOG (R432): EVT_CMD.CLR_LOG. -/
def execClrLog (p : Port) (s : State) : Out := act s (access p 0x830 logClear)

/-- EVT_LOG_LO_READ (R432): a read of EVT_LOG_LO captures the entry. -/
def execEvtLogLoRead (p : Port) (s : State) : Out := act s (access p 0x820 fun s => logLoRead s p)

/-- EVT_LOG_HI_READ (R429): a read of EVT_LOG_HI: the captured entry counts as read. -/
def execEvtLogHiRead (p : Port) (s : State) : Out := act s (access p 0x824 fun s => logHiRead s p)

/-- PERF_LO_READ (R433): a read of the lower half of count c (6: the slot count) captures the upper half. -/
def execPerfLoRead (p : Port) (c : Nat) (s : State) : Out := 
  act s (guardS (decide (c < 7)) (access p (0xE000 + 8 * c) fun s => perfRead s p c))

/-- CLR_CHECKS (R433): PERF_CMD.CLR_CHECKS. -/
def execClrChecks (p : Port) (s : State) : Out := act s (access p 0xE044 (clearRegs [0xE038, 0xE03C, 0xE040]))

/-- CLR_FREEZE (R433): PERF_CMD.CLR_FREEZE. -/
def execClrFreeze (p : Port) (s : State) : Out := act s (access p 0xE044 freezeClear)

end Sys2Proof.Machine
end

