-- ==== Sys2Proof/Machine/Resets.lean ====
section
/-! DEFINITION. The meanings of the events of the reset controller and the watchdog (R404 to R413). -/
namespace Sys2Proof.Machine

/-- por_n is sampled low: the reset in progress ends without completing, and an L0 reset is asserted at once (R408, R409). -/
def porStart (s : State) : State :=
  assertLevel { s with rst := { s.rst with req := none, reqCli := none, actCli := none, por := true } } 0 0

/-- POR_ASSERT (R408, R409). -/
def execPorAssert (s : State) : Out := act s (guardS (!s.rst.por) porStart)

/-- por_n is sampled high: the hold of 16 SCLK cycles begins (R408). -/
def porEnd (s : State) : State := { s with rst := { s.rst with por := false, t := sclkOf s } }

/-- POR_DEASSERT (R408). -/
def execPorDeassert (s : State) : Out := act s (guardS s.rst.por porEnd)

/-- The accepted request is asserted. -/
def resetAssertNow (s : State) : State :=
  match s.rst.req with
  | some (l, k) => if resetDeferred s then s else assertLevel s l k
  | none => s

/-- RESET_ASSERT (R408): two SCLK cycles after the request, or after the deferral. -/
def execResetAssert (s : State) : Out := act s (guardS s.rst.req.isSome (atSclk (max s.rst.t s.rst.after + 2) resetAssertNow))

/-- Whether the reset in force may be released once its hold is over. -/
def releasable (s : State) : Bool := s.rst.act.isSome && s.rst.req.isNone && !s.rst.por

/-- The reset in force is released (R408): a command that asked for an L2 reset completes. -/
def resetReleaseNow (imgBase slot : Nat) (s : State) : State :=
  match s.rst.act with
  | some (l, _) =>
    let c := s.rst.actCli
    releaseLevel (if l = 2 then completeOpt s c 0 else s) l imgBase slot
  | none => s

/-- RESET_RELEASE (R408): after 16 SCLK cycles of hold; the straps' values are the event's. -/
def execResetRelease (imgBase slot : Nat) (s : State) : Out :=
  act s (guardS (releasable s) (atSclk (s.rst.t + 16) (resetReleaseNow imgBase slot)))

/-- The single-unit reset in progress, if it is in a phase. -/
def unitIn (s : State) (phase : Nat) : Option UnitRst := s.rst.unit.filter fun u => u.phase == phase

/-- What is done of a single-unit reset in a phase, where it still is in that phase. -/
def onUnit (phase : Nat) (f : State → UnitRst → State) (s : State) : State :=
  match unitIn s phase with
  | some u => f s u
  | none => s

/-- Whether IDLE_ACK was raised in an earlier SCLK cycle. -/
def ackReady (s : State) : Bool :=
  match unitIn s 1 with
  | some u => (match u.ack with | some c => decide (c < sclkOf s) | none => false)
  | none => false

/-- UNIT_IDLE_ACK (R410): the unit is reset in the cycle after IDLE_ACK. IDLE_REQ, the end of the slot and IDLE_ACK are waited for. -/
def execUnitIdleAck (s : State) : Out :=
  act s fun s => if s.rst.unit.isSome then awaitS 200 ackReady (onUnit 1 unitAct) s else s

/-- UNIT_IDLE_TIMEOUT (R411): the timer expires, and the reset is forced. -/
def execUnitIdleTimeout (s : State) : Out :=
  act s fun s =>
    match s.rst.unit with
    | some u => guardS (u.phase != 2) (atSclk (u.since + idleTo s) (onUnit 1 fun s u => if u.ack.isSome then s else unitForce s u)) s
    | none => s

/-- UNIT_RESET_RELEASE (R410): four SCLK cycles in reset are over. -/
def execUnitResetRelease (s : State) : Out :=
  act s (onUnit 2 fun s u => atSclk (u.since + 4) (onUnit 2 unitRelease) s)

/-- The watchdog's period in SCLK cycles (R413). -/
def dogPeriod (s : State) : Nat := zeroIs 65536 (regF s 0x218 16 16) * 1024

/-- Whether the watchdog runs. -/
def dogOn (s : State) : Bool := regF s 0x218 0 1 == 1 && !s.rst.wdogStop

/-- Time until the watchdog's count reaches n, and then `f`. -/
def atDog (n : Nat) (f : State → State) (s : State) : State :=
  awaitS (40 * (n - s.rst.wdog) + 1) (fun u => decide (n ≤ u.rst.wdog)) (fun u => if dogOn u then f u else u) s

/-- The warning at half the period. -/
def dogWarn (s : State) : State := raise { s with rst := { s.rst with wdogWarned := true } } 0x6A 0

/-- WDOG_WARN (R413). -/
def execWdogWarn (s : State) : Out :=
  act s (guardS (dogOn s && !s.rst.wdogWarned) (atDog (dogPeriod s / 2) dogWarn))

/-- The expiry: the count stops, and a reset is requested. -/
def dogExpire (s : State) : State := resetRequest { s with rst := { s.rst with wdogStop := true } } 3 6 none

/-- WDOG_EXPIRE (R413). -/
def execWdogExpire (s : State) : Out := act s (guardS (dogOn s) (atDog (dogPeriod s) dogExpire))

end Sys2Proof.Machine
end

