-- ==== Sys2Proof/Machine/Rounds.lean ====
section
/-! DEFINITION. The meanings of the events of ring reduction: blocks formed, passes started, flits arriving, and the end of a
round's time (R341 to R354). -/
namespace Sys2Proof.Machine

/-- A VC2 flit enters the buffer of port n: a port in reset drops it (R410); at a tile that is not ACTIVE it wakes the tile and
waits (R390). -/
def vc2Enter (n : Nat) (f : Flit) (s : State) : State :=
  let s := rxFlit s n (fieldN f.side 28 2)
  if unitHeld s (10 + n) then oweCredit s n 2 1
  else
    let s := updPort s n fun p => { p with inVc2 := p.inVc2 ++ [f] }
    if s.clk.st ≠ 0 then wakeUp s else vc2Drain s

/-- A VC2 flit arrives at port n (R338). -/
def onVc2 (par : Nat) (n : Nat) (f : Flit) (s : State) : State :=
  guardS (linkIn s n && fieldN f.side 30 2 == 2 && flRch f % 2 == par) (vc2Enter n f) s

/-- SUM_FLIT (R347, R348). -/
def execSumFlit (n : Nat) (fl : Flit) (s : State) : Out := act s (onVc2 0 n fl)
/-- PARAM_FLIT (R353). -/
def execParamFlit (n : Nat) (fl : Flit) (s : State) : Out := act s (onVc2 1 n fl)

/-- Whether group k is RUNNING and its unit works. -/
def redRuns (s : State) (k : Nat) : Bool := clocksOn s && !unitHeld s 16 && decide (k < 2) && (grp s k).st == 1

/-- Whether the tile may start the sum pass of block b (R343, R347): its own, formed, and a token held. -/
def sumMay (s : State) (k b : Nat) : Bool :=
  let g := grp s k
  let c := mget g.blks {} b
  redRuns s k && decide (b < gNblk g) && gOwns g b && c.formed && !c.passed && decide (0 < g.sumTok)

/-- SUM_PASS_START (R347). -/
def execSumPassStart (k b : Nat) (s : State) : Out := act s (guardS (sumMay s k b) fun s => sumStart s k b)

/-- Whether the tile may send the parameter pass of block b (R343, R353): its own, updated, and the token held. -/
def parMay (s : State) (k b : Nat) : Bool :=
  let g := grp s k
  let c := mget g.blks {} b
  redRuns s k && decide (b < gNblk g) && gOwns g b && c.updated && !c.parSent && decide (0 < g.parTok)

/-- PARAM_PASS_START (R353). -/
def execParamPassStart (k b : Nat) (s : State) : Out := act s (guardS (parMay s k b) fun s => parStart s k b)

/-- REDUCE_TIMEOUT (R354): cause 1. -/
def execReduceTimeout (k : Nat) (s : State) : Out :=
  act s (guardS (redRuns s k) (atMclk ((grp s k).t0 + zeroIs 256 (fieldN (grp s k).live.size 24 8) * 65536)
    fun s => redAbort s k 1))

/-- BLOCK_FORMED (R345): one block in 8 MCLK cycles, in ascending order. -/
def execBlockFormed (k : Nat) (s : State) : Out :=
  act s (guardS (redRuns s k && decide ((grp s k).formed < gNblk (grp s k)))
    (atMclk ((grp s k).t0 + 8 * ((grp s k).formed + 1)) fun s => formNext s k))

end Sys2Proof.Machine
end

