-- ==== Sys2Proof/Machine/Startup.lean ====
section
/-! DEFINITION. The meanings of the events of start-up (R361 to R377, R443, R444), and of the checks of programs and armed
recipes that it waits for (R190, R223). -/
namespace Sys2Proof.Machine

/-- No level reset holds start-up. -/
def bootRuns (s : State) (st : Nat) : Bool := s.boot.st == st && !accessHeld s

/-- FUSE_READ_DONE (R443, R444): 1,024 SCLK cycles of step 1 are over; the map is the event's. -/
def execFuseReadDone (map : BitVec 1024) (s : State) : Out :=
  act s (guardS (bootRuns s 0) (atSclk (s.boot.t0 + 1024) fun s => fuseDone s map))

/-- LIGHT_TRIM_DONE (R361, R392): the clocks have started and 16 sensors are trimmed, 800 SCLK cycles each; the codes are
the event's. -/
def execLightTrimDone (codes : List W32) (s : State) : Out :=
  act s (guardS (bootRuns s 1 && s.sup.firstOk) (atSclk (s.boot.t0 + 12900) fun s => lightDone s codes))

/-- IMAGE_CHECK_DONE (R369). -/
def execImageCheckDone (s : State) : Out := act s (guardS (bootRuns s 3 && passOver s) checkDone)

/-- OVERLAY_SCAN_DONE (R377). -/
def execOverlayScanDone (s : State) : Out := act s (guardS (bootRuns s 4) (atSclk (s.boot.t0 + scanLen s) scanDone))

/-- LOAD_PASS_DONE (R368). -/
def execLoadPassDone (s : State) : Out := act s (guardS (bootRuns s 5 && !s.boot.recipeWait && passOver s) loadDone)

/-- The check of a program is over (R223, R236), and step 9 of start-up with it. -/
def runCheckEnd (s : State) : State := bootRunOver (runChecked s)

/-- RUN_CHECK_DONE (R223). -/
def execRunCheckDone (s : State) : Out := act s (guardS (s.seq.st == 1) runCheckEnd)

/-- The check of the first armed recipe is over (R190), and step 8 of start-up with the last one. -/
def recipeCheckEnd (n : Nat) (s : State) : State := loadWait (rcpChecked s n (mget s.vec.dir {} n))

/-- RECIPE_CHECK_DONE (R190): one instruction was checked in each PCLK cycle. -/
def execRecipeCheckDone (s : State) : Out :=
  act s fun s =>
    match s.vec.checking with
    | n :: _ => atPclk (s.vec.checkT + (mget s.vec.dir {} n).len) (recipeCheckEnd n) s
    | [] => s

end Sys2Proof.Machine
end

