-- ==== Sys2Proof/Machine/Windows.lean ====
section
/-! DEFINITION. The meanings of the events of the window table and the landing rings (R263, R264, R270, R271). -/
namespace Sys2Proof.Machine

/-- Whether requests reach the scratchpad port: MCLK runs and no level reset is in force. -/
def spadPort (s : State) : Bool := clocksOn s && s.clk.st == 0 && !accessHeld s

/-- The first request of port n is checked, or dropped where the scratchpad accepts no work (R410). -/
def requestCheck (n : Nat) (s : State) : State :=
  match s.fab.chk.find? fun e => e.1 == n with
  | none => s
  | some (_, pk) =>
    if s.fab.land.any fun l => l.port == n then s
    else if unitHeld s 7 then
      let s := { s with fab := { s.fab with chk := s.fab.chk.eraseP fun e => e.1 == n } }
      if n = 6 then s else oweCredit s n 0 (1 + pk.body.length)
    else windowCheck s n pk

/-- WINDOW_REQUEST_CHECK (R270): port n's first request reaches the scratchpad port; 6 is the tile itself. -/
def execWindowRequestCheck (n : Nat) (s : State) : Out := act s (guardS (spadPort s) (requestCheck n))

/-- EXPORT_CLOSE_EFFECT (R270). -/
def execExportCloseEffect (w : Nat) (s : State) : Out :=
  act s (guardS ((mget s.wins {} w).mode == 1 && (mget s.wins {} w).closing.isSome) fun s => exportClose s w)

/-- WINDOW_FAIL_RESPONSE (R271): the first failing answer is processed. -/
def execWindowFailResponse (s : State) : Out := act s windowFail

/-- The first landing write of port n that has not been looked at lands, or waits (R264). -/
def landingFirst (n : Nat) (s : State) : State :=
  match landFirst s n false with
  | some l => if landReady s l then landWrite (landTake s n) l else landWait s l
  | none => s

/-- LANDING_WRITE (R264); a scratchpad that IDLE_REQ asks performs none (R410). -/
def execLandingWrite (n : Nat) (s : State) : Out := act s (guardS (spadPort s && !unitHeld s 7) (landingFirst n))

/-- The landing write that waits at port n lands, if it may. -/
def landingRelease (n : Nat) (s : State) : State :=
  match landFirst s n true with
  | some l => if landReady s l then landWrite (landTake s n) l else s
  | none => s

/-- LANDING_WRITE_RELEASE (R264, R410). -/
def execLandingWriteRelease (n : Nat) (s : State) : Out := act s (guardS (spadPort s && !unitHeld s 7) (landingRelease n))

end Sys2Proof.Machine
end

