-- ==== Sys2Proof/Machine/Dispatch.lean ====
section
/-! DEFINITION. The arms: one per command, each a call of its meaning. -/
namespace Sys2Proof.Machine

/-- The effect of a command on everything but the queue. -/
def exec (i : Instr) (s : State) : Host.Outcome State Fault Refusal :=
  match i with
  | .arm o w => Sys2Proof.Machine.execArm o w s
  | .chStop o w => Sys2Proof.Machine.execChStop o w s
  | .chResume o w => Sys2Proof.Machine.execChResume o w s
  | .chAbort o w => Sys2Proof.Machine.execChAbort o w s
  | .ringSet o w => Sys2Proof.Machine.execRingSet o w s
  | .bind o w => Sys2Proof.Machine.execBind o w s
  | .evict o w => Sys2Proof.Machine.execEvict o w s
  | .reload o w => Sys2Proof.Machine.execReload o w s
  | .zero o w => Sys2Proof.Machine.execZero o w s
  | .accept o w => Sys2Proof.Machine.execAccept o w s
  | .seamClose o w => Sys2Proof.Machine.execSeamClose o w s
  | .run o w => Sys2Proof.Machine.execRun o w s
  | .halt o w => Sys2Proof.Machine.execHalt o w s
  | .benchStop o w => Sys2Proof.Machine.execBenchStop o w s
  | .benchResume o w => Sys2Proof.Machine.execBenchResume o w s
  | .benchAbort o w => Sys2Proof.Machine.execBenchAbort o w s
  | .store o w => Sys2Proof.Machine.execStore o w s
  | .fetch o w => Sys2Proof.Machine.execFetch o w s
  | .modeChange o w => Sys2Proof.Machine.execModeChange o w s
  | .resurvey o w => Sys2Proof.Machine.execResurvey o w s
  | .reduceRound o w => Sys2Proof.Machine.execReduceRound o w s
  | .openExport o w => Sys2Proof.Machine.execOpenExport o w s
  | .openImport o w => Sys2Proof.Machine.execOpenImport o w s
  | .windowClose o w => Sys2Proof.Machine.execWindowClose o w s
  | .reset o w => Sys2Proof.Machine.execReset o w s
  | .dbgPeek o w => Sys2Proof.Machine.execDbgPeek o w s
  | .dbgPoke o w => Sys2Proof.Machine.execDbgPoke o w s
  | .remoteCommand w => Sys2Proof.Machine.execRemoteCommand w s
  | .regWrite p off val => Sys2Proof.Machine.execRegWrite p off val s
  | .scpOnlyDenied off we => Sys2Proof.Machine.execScpOnlyDenied off we s
  | .debugPortDenied off we => Sys2Proof.Machine.execDebugPortDenied off we s
  | .lifecycleChange lc => Sys2Proof.Machine.execLifecycleChange lc s
  | .clrCsumCount p => Sys2Proof.Machine.execClrCsumCount p s
  | .accMetaLoRead p => Sys2Proof.Machine.execAccMetaLoRead p s
  | .gpTblDataAccess p wr => Sys2Proof.Machine.execGpTblDataAccess p wr s
  | .swapSig p => Sys2Proof.Machine.execSwapSig p s
  | .swapTanh p => Sys2Proof.Machine.execSwapTanh p s
  | .vecRcpDataLoAccess p wr => Sys2Proof.Machine.execVecRcpDataLoAccess p wr s
  | .vecRcpDataHiAccess p wr => Sys2Proof.Machine.execVecRcpDataHiAccess p wr s
  | .recipeArm p val => Sys2Proof.Machine.execRecipeArm p val s
  | .recipeRetire p val => Sys2Proof.Machine.execRecipeRetire p val s
  | .clrRuns p => Sys2Proof.Machine.execClrRuns p s
  | .clrDrop p => Sys2Proof.Machine.execClrDrop p s
  | .clrChunks p => Sys2Proof.Machine.execClrChunks p s
  | .clrSpoiled p => Sys2Proof.Machine.execClrSpoiled p s
  | .sfuTblDataAccess p wr => Sys2Proof.Machine.execSfuTblDataAccess p wr s
  | .sfuSwap p val => Sys2Proof.Machine.execSfuSwap p val s
  | .sfuUcDataAccess p wr => Sys2Proof.Machine.execSfuUcDataAccess p wr s
  | .clrClamps p => Sys2Proof.Machine.execClrClamps p s
  | .benchPramDataAccess p wr => Sys2Proof.Machine.execBenchPramDataAccess p wr s
  | .benchClrCounts p => Sys2Proof.Machine.execBenchClrCounts p s
  | .spadRegionWrite p n val => Sys2Proof.Machine.execSpadRegionWrite p n val s
  | .spadCacheWrite p val => Sys2Proof.Machine.execSpadCacheWrite p val s
  | .cacheInv p => Sys2Proof.Machine.execCacheInv p s
  | .spadClrCounts p => Sys2Proof.Machine.execSpadClrCounts p s
  | .chBellAdd p c val => Sys2Proof.Machine.execChBellAdd p c val s
  | .overcommitWrite p val => Sys2Proof.Machine.execOvercommitWrite p val s
  | .reopen p => Sys2Proof.Machine.execReopen p s
  | .mempClrCounts p => Sys2Proof.Machine.execMempClrCounts p s
  | .fabClrCounts p => Sys2Proof.Machine.execFabClrCounts p s
  | .modeMembersWrite p k val => Sys2Proof.Machine.execModeMembersWrite p k val s
  | .redClrCounts p k => Sys2Proof.Machine.execRedClrCounts p k s
  | .gateWrite p val => Sys2Proof.Machine.execGateWrite p val s
  | .clkDumpGo p val => Sys2Proof.Machine.execClkDumpGo p val s
  | .untrimFull p => Sys2Proof.Machine.execUntrimFull p s
  | .untrimMed p => Sys2Proof.Machine.execUntrimMed p s
  | .clkClrCounts p => Sys2Proof.Machine.execClkClrCounts p s
  | .supClr p => Sys2Proof.Machine.execSupClr p s
  | .wdogKick p val => Sys2Proof.Machine.execWdogKick p val s
  | .wdogCtrlWrite p val => Sys2Proof.Machine.execWdogCtrlWrite p val s
  | .rstCtrlWrite p val => Sys2Proof.Machine.execRstCtrlWrite p val s
  | .rstClrCounts p => Sys2Proof.Machine.execRstClrCounts p s
  | .evtPendWrite p k val => Sys2Proof.Machine.execEvtPendWrite p k val s
  | .clrLog p => Sys2Proof.Machine.execClrLog p s
  | .evtLogLoRead p => Sys2Proof.Machine.execEvtLogLoRead p s
  | .evtLogHiRead p => Sys2Proof.Machine.execEvtLogHiRead p s
  | .perfLoRead p c => Sys2Proof.Machine.execPerfLoRead p c s
  | .clrChecks p => Sys2Proof.Machine.execClrChecks p s
  | .clrFreeze p => Sys2Proof.Machine.execClrFreeze p s
  | .porAssert => Sys2Proof.Machine.execPorAssert s
  | .porDeassert => Sys2Proof.Machine.execPorDeassert s
  | .resetAssert => Sys2Proof.Machine.execResetAssert s
  | .resetRelease imgBase slot => Sys2Proof.Machine.execResetRelease imgBase slot s
  | .unitIdleAck => Sys2Proof.Machine.execUnitIdleAck s
  | .unitIdleTimeout => Sys2Proof.Machine.execUnitIdleTimeout s
  | .unitResetRelease => Sys2Proof.Machine.execUnitResetRelease s
  | .wdogWarn => Sys2Proof.Machine.execWdogWarn s
  | .wdogExpire => Sys2Proof.Machine.execWdogExpire s
  | .fuseReadDone map => Sys2Proof.Machine.execFuseReadDone map s
  | .lightTrimDone codes => Sys2Proof.Machine.execLightTrimDone codes s
  | .imageCheckDone => Sys2Proof.Machine.execImageCheckDone s
  | .overlayScanDone => Sys2Proof.Machine.execOverlayScanDone s
  | .loadPassDone => Sys2Proof.Machine.execLoadPassDone s
  | .memRequestIssue => Sys2Proof.Machine.execMemRequestIssue s
  | .memReadBeat tag data status last => Sys2Proof.Machine.execMemReadBeat tag data status last s
  | .memWriteResponse tag status => Sys2Proof.Machine.execMemWriteResponse tag status s
  | .memTimeout slot => Sys2Proof.Machine.execMemTimeout slot s
  | .chWaitEnd c => Sys2Proof.Machine.execChWaitEnd c s
  | .deadlockBreak => Sys2Proof.Machine.execDeadlockBreak s
  | .dmaWin bank => Sys2Proof.Machine.execDmaWin bank s
  | .windowRequestCheck n => Sys2Proof.Machine.execWindowRequestCheck n s
  | .exportCloseEffect w => Sys2Proof.Machine.execExportCloseEffect w s
  | .windowFailResponse => Sys2Proof.Machine.execWindowFailResponse s
  | .landingWrite n => Sys2Proof.Machine.execLandingWrite n s
  | .landingWriteRelease n => Sys2Proof.Machine.execLandingWriteRelease n s
  | .benchStart => Sys2Proof.Machine.execBenchStart s
  | .recordFinish b pos => Sys2Proof.Machine.execRecordFinish b pos s
  | .runCheckDone => Sys2Proof.Machine.execRunCheckDone s
  | .arrayRecord => Sys2Proof.Machine.execArrayRecord s
  | .derrickRecord => Sys2Proof.Machine.execDerrickRecord s
  | .drainRecord => Sys2Proof.Machine.execDrainRecord s
  | .gateRecord => Sys2Proof.Machine.execGateRecord s
  | .scanRecord => Sys2Proof.Machine.execScanRecord s
  | .vectorRecord => Sys2Proof.Machine.execVectorRecord s
  | .progStart => Sys2Proof.Machine.execProgStart s
  | .progLoop => Sys2Proof.Machine.execProgLoop s
  | .endloop => Sys2Proof.Machine.execEndloop s
  | .cntset => Sys2Proof.Machine.execCntset s
  | .tdset => Sys2Proof.Machine.execTdset s
  | .tdadd => Sys2Proof.Machine.execTdadd s
  | .progEnd => Sys2Proof.Machine.execProgEnd s
  | .freezeEnd => Sys2Proof.Machine.execFreezeEnd s
  | .freezeLong => Sys2Proof.Machine.execFreezeLong s
  | .wavefrontIssue b pos => Sys2Proof.Machine.execWavefrontIssue b pos s
  | .wavefrontWritePort => Sys2Proof.Machine.execWavefrontWritePort s
  | .csumCompare => Sys2Proof.Machine.execCsumCompare s
  | .derrickRow b pos => Sys2Proof.Machine.execDerrickRow b pos s
  | .drainRead b pos => Sys2Proof.Machine.execDrainRead b pos s
  | .gateParamRead b pos => Sys2Proof.Machine.execGateParamRead b pos s
  | .gateStreamStart b pos => Sys2Proof.Machine.execGateStreamStart b pos s
  | .gateCommit b pos => Sys2Proof.Machine.execGateCommit b pos s
  | .scanParamRead b pos => Sys2Proof.Machine.execScanParamRead b pos s
  | .scanChunkDispatch b pos => Sys2Proof.Machine.execScanChunkDispatch b pos s
  | .scanStep b pos => Sys2Proof.Machine.execScanStep b pos s
  | .scanCommit b pos => Sys2Proof.Machine.execScanCommit b pos s
  | .sfuResult => Sys2Proof.Machine.execSfuResult s
  | .recipeCheckDone => Sys2Proof.Machine.execRecipeCheckDone s
  | .recipeStart b pos => Sys2Proof.Machine.execRecipeStart b pos s
  | .recipeEnd => Sys2Proof.Machine.execRecipeEnd s
  | .nop => Sys2Proof.Machine.execNop s
  | .recipeLoop => Sys2Proof.Machine.execRecipeLoop s
  | .setvl => Sys2Proof.Machine.execSetvl s
  | .vcommit => Sys2Proof.Machine.execVcommit s
  | .vld => Sys2Proof.Machine.execVld s
  | .vst => Sys2Proof.Machine.execVst s
  | .vmov => Sys2Proof.Machine.execVmov s
  | .vsel => Sys2Proof.Machine.execVsel s
  | .vaddi => Sys2Proof.Machine.execVaddi s
  | .vsubi => Sys2Proof.Machine.execVsubi s
  | .vmuli => Sys2Proof.Machine.execVmuli s
  | .vmini => Sys2Proof.Machine.execVmini s
  | .vmaxi => Sys2Proof.Machine.execVmaxi s
  | .vsra => Sys2Proof.Machine.execVsra s
  | .vshl => Sys2Proof.Machine.execVshl s
  | .vand => Sys2Proof.Machine.execVand s
  | .vor => Sys2Proof.Machine.execVor s
  | .vxor => Sys2Proof.Machine.execVxor s
  | .vadd => Sys2Proof.Machine.execVadd s
  | .vsub => Sys2Proof.Machine.execVsub s
  | .vmul => Sys2Proof.Machine.execVmul s
  | .vfma => Sys2Proof.Machine.execVfma s
  | .vmin => Sys2Proof.Machine.execVmin s
  | .vmax => Sys2Proof.Machine.execVmax s
  | .vabs => Sys2Proof.Machine.execVabs s
  | .vneg => Sys2Proof.Machine.execVneg s
  | .vcvtfi => Sys2Proof.Machine.execVcvtfi s
  | .vcvtif => Sys2Proof.Machine.execVcvtif s
  | .vrnd => Sys2Proof.Machine.execVrnd s
  | .vrmaxf => Sys2Proof.Machine.execVrmaxf s
  | .vcmpi => Sys2Proof.Machine.execVcmpi s
  | .vcmpf => Sys2Proof.Machine.execVcmpf s
  | .mand => Sys2Proof.Machine.execMand s
  | .mor => Sys2Proof.Machine.execMor s
  | .mxor => Sys2Proof.Machine.execMxor s
  | .mnot => Sys2Proof.Machine.execMnot s
  | .mcnt => Sys2Proof.Machine.execMcnt s
  | .mflg => Sys2Proof.Machine.execMflg s
  | .mfclr => Sys2Proof.Machine.execMfclr s
  | .vcprs => Sys2Proof.Machine.execVcprs s
  | .vexpd => Sys2Proof.Machine.execVexpd s
  | .vrsumi => Sys2Proof.Machine.execVrsumi s
  | .vrmaxi => Sys2Proof.Machine.execVrmaxi s
  | .vrsumf => Sys2Proof.Machine.execVrsumf s
  | .vsfu => Sys2Proof.Machine.execVsfu s
  | .read n head => Sys2Proof.Machine.execRead n head s
  | .write n head body => Sys2Proof.Machine.execWrite n head body s
  | .cmd n head => Sys2Proof.Machine.execCmd n head s
  | .readData n head body => Sys2Proof.Machine.execReadData n head body s
  | .writeAck n head => Sys2Proof.Machine.execWriteAck n head s
  | .cmdDone n head => Sys2Proof.Machine.execCmdDone n head s
  | .idle n cr => Sys2Proof.Machine.execIdle n cr s
  | .hello n cr id port => Sys2Proof.Machine.execHello n cr id port s
  | .tree n cr root depth sender restart => Sys2Proof.Machine.execTree n cr root depth sender restart s
  | .report n cr id links => Sys2Proof.Machine.execReport n cr id links s
  | .topo n cr links tiles dups => Sys2Proof.Machine.execTopo n cr links tiles dups s
  | .resyncReq n cr => Sys2Proof.Machine.execResyncReq n cr s
  | .resyncAck n cr c0 c1 c2 => Sys2Proof.Machine.execResyncAck n cr c0 c1 c2 s
  | .linkReset n cr => Sys2Proof.Machine.execLinkReset n cr s
  | .prepare n cr src dst e e1 m => Sys2Proof.Machine.execPrepare n cr src dst e e1 m s
  | .barrierAck n cr src dst => Sys2Proof.Machine.execBarrierAck n cr src dst s
  | .barrierNak n cr src dst => Sys2Proof.Machine.execBarrierNak n cr src dst s
  | .commit n cr src dst e1 => Sys2Proof.Machine.execCommit n cr src dst e1 s
  | .barrierAbort n cr src dst => Sys2Proof.Machine.execBarrierAbort n cr src dst s
  | .barrierDone n cr src dst => Sys2Proof.Machine.execBarrierDone n cr src dst s
  | .barrierTimeout => Sys2Proof.Machine.execBarrierTimeout s
  | .commitResend => Sys2Proof.Machine.execCommitResend s
  | .helloTimer => Sys2Proof.Machine.execHelloTimer s
  | .helloPhaseEnd => Sys2Proof.Machine.execHelloPhaseEnd s
  | .treePhaseEnd => Sys2Proof.Machine.execTreePhaseEnd s
  | .linkTimeout n => Sys2Proof.Machine.execLinkTimeout n s
  | .reqTimeout tag => Sys2Proof.Machine.execReqTimeout tag s
  | .sumFlit n fl => Sys2Proof.Machine.execSumFlit n fl s
  | .sumPassStart k b => Sys2Proof.Machine.execSumPassStart k b s
  | .paramPassStart k b => Sys2Proof.Machine.execParamPassStart k b s
  | .paramFlit n fl => Sys2Proof.Machine.execParamFlit n fl s
  | .reduceTimeout k => Sys2Proof.Machine.execReduceTimeout k s
  | .activityWindowEnd => Sys2Proof.Machine.execActivityWindowEnd s
  | .retrimSensorDone code => Sys2Proof.Machine.execRetrimSensorDone code s
  | .droopDetect sensor => Sys2Proof.Machine.execDroopDetect sensor s
  | .gateEnter => Sys2Proof.Machine.execGateEnter s
  | .wake => Sys2Proof.Machine.execWake s
  | .wakeDone => Sys2Proof.Machine.execWakeDone s
  | .guardEnterLow => Sys2Proof.Machine.execGuardEnterLow s
  | .guardEnterRecover => Sys2Proof.Machine.execGuardEnterRecover s
  | .guardDwellLost => Sys2Proof.Machine.execGuardDwellLost s
  | .guardEnterOk => Sys2Proof.Machine.execGuardEnterOk s
  | .supplyResetTrip => Sys2Proof.Machine.execSupplyResetTrip s
  | .storePhaseDone => Sys2Proof.Machine.execStorePhaseDone s
  | .fetchDone => Sys2Proof.Machine.execFetchDone s
  | .clkDumpDone => Sys2Proof.Machine.execClkDumpDone s
  | .logWrite => Sys2Proof.Machine.execLogWrite s
  | .blockFormed k => Sys2Proof.Machine.execBlockFormed k s
  | .cacheHitDelivery c => Sys2Proof.Machine.execCacheHitDelivery c s
  | .droopClear sensor => Sys2Proof.Machine.execDroopClear sensor s
  | .svLevelSample lv => Sys2Proof.Machine.execSvLevelSample lv s
  | .evtPulseEnd => Sys2Proof.Machine.execEvtPulseEnd s
  | .reservedItem => Sys2Proof.Machine.execReservedItem s
  | .reservedCtypeFlit n cr ctype => Sys2Proof.Machine.execReservedCtypeFlit n cr ctype s

end Sys2Proof.Machine
end

