-- ==== Sys2Proof/Safety.lean ====
section
/-! DEFINITION. The terms in which claims are stated: what it means that a command is answered, that an access is performed, that
a waiting command is taken, what a frame keeps, the invariant of the interrupt pins, and the error bounds of the built-in tables. -/
namespace Sys2Proof.Machine

/-- Command `c` is answered with a next state for which `P` holds. -/
def Answers (c : Instr) (s : State) (P : State → Prop) : Prop := ∃ t, exec c s = .next t ∧ P t

/-- The canonical form of the scratchpad's memory: bytes, side-band words, stored wrong bits and error classes by rising address, and
none listed that equals what an unlisted one reads as (R241, R247, R418). -/
def Memory.wf (s : State) : Bool :=
  mwf 0 s.spad.data && mwf {} s.spad.side && mwf 0 s.spad.flips && mwf 0 s.spad.cls

/-- Every held register outside `l` holds what it held. -/
def RegsKept (s t : State) (l : List Nat) : Prop := ∀ o, o ∉ l → reg t o = reg s o

/-- The access of port p to the register at `off` is performed: no level reset holds it, the debug port is open, and HCP reaches
no register marked "SCP only" (R20, R435, R437). -/
def Performed (s : State) (p : Port) (off : Nat) : Prop :=
  accessHeld s = false ∧ (p = .dbg → dbgOpen s = true) ∧ (p = .hcp → scpOnly off = false)

/-- No write to the register at `off` came before in the present PCLK cycle (R436). -/
def Alone (s : State) (off : Nat) : Prop := (cycNow s).wrote.any (·.off == off) = false

/-- The access of port p to `off` is performed, and no write to that register came before in its PCLK cycle. -/
def Reached (s : State) (p : Port) (off : Nat) : Prop := Performed s p off ∧ Alone s off

/-- The port and the register of a command that is an access to one register; none for every other command. -/
def accessOf (i : Instr) : Option (Port × Nat) :=
  match i with
  | .regWrite p off _ => some (p, off)
  | .clrCsumCount p => some (p, 0x4024)
  | .accMetaLoRead p => some (p, 0x4418)
  | .gpTblDataAccess p _ => some (p, 0x5C10)
  | .swapSig p => some (p, 0x5C14)
  | .swapTanh p => some (p, 0x5C14)
  | .vecRcpDataLoAccess p _ => some (p, 0x480C)
  | .vecRcpDataHiAccess p _ => some (p, 0x4810)
  | .recipeArm p _ => some (p, 0x4818)
  | .recipeRetire p _ => some (p, 0x4818)
  | .clrRuns p => some (p, 0x4828)
  | .clrDrop p => some (p, 0x4828)
  | .clrChunks p => some (p, 0x4F10)
  | .clrSpoiled p => some (p, 0x4F10)
  | .sfuTblDataAccess p _ => some (p, 0x500C)
  | .sfuSwap p _ => some (p, 0x5010)
  | .sfuUcDataAccess p _ => some (p, 0x5018)
  | .clrClamps p => some (p, 0x5020)
  | .benchPramDataAccess p _ => some (p, 0x3048)
  | .benchClrCounts p => some (p, 0x3050)
  | .spadRegionWrite p n _ => if n < 16 then some (p, 0x6000 + 4 * n) else none
  | .spadCacheWrite p _ => some (p, 0x6044)
  | .cacheInv p => some (p, 0x6064)
  | .spadClrCounts p => some (p, 0x6064)
  | .chBellAdd p c _ => if c < 128 then some (p, chReg c 0x14) else none
  | .overcommitWrite p _ => some (p, 0x1C0)
  | .reopen p => some (p, 0x1D8)
  | .mempClrCounts p => some (p, 0x1D8)
  | .fabClrCounts p => some (p, 0x7058)
  | .modeMembersWrite p k _ => if k < 6 then some (p, 0x9010 + 4 * k) else none
  | .redClrCounts p k => if k < 2 then some (p, 0x8060 + 256 * k) else none
  | .gateWrite p _ => some (p, 0x300)
  | .clkDumpGo p _ => some (p, 0x31C)
  | .untrimFull p => some (p, 0x320)
  | .untrimMed p => some (p, 0x320)
  | .clkClrCounts p => some (p, 0x320)
  | .supClr p => some (p, 0x394)
  | .wdogKick p _ => some (p, 0x21C)
  | .wdogCtrlWrite p _ => some (p, 0x218)
  | .rstCtrlWrite p _ => some (p, 0x20C)
  | .rstClrCounts p => some (p, 0x224)
  | .evtPendWrite p k _ => if k < 4 then some (p, 0x800 + 4 * k) else none
  | .clrLog p => some (p, 0x830)
  | .evtLogLoRead p => some (p, 0x820)
  | .evtLogHiRead p => some (p, 0x824)
  | .perfLoRead p c => if c < 7 then some (p, 0xE000 + 8 * c) else none
  | .clrChecks p => some (p, 0xE044)
  | .clrFreeze p => some (p, 0xE044)
  | _ => none

/-- Command `w` of opcode `op` waits in mailbox `m` of origin `o` and is the one the tile takes next; start-up has ended, and the
command's class is open to the port (R445 to R447). -/
def Waits (s : State) (o : Origin) (m : Nat) (w : CmdWords) (op : Nat) : Prop :=
  mboxOf o = some m ∧ taken o w s = some ({ o := o }, mboxTake s m) ∧ fieldN w.w0 24 8 = op ∧ 6 ≤ s.boot.st
    ∧ classOk s { o := o } op = true

/-- Mailbox `m` shows a completed command with a status: BUSY 0, DONE 1 (R448). -/
def MbDone (t : State) (m status : Nat) : Prop :=
  let v := readReg t (mboxBase m + 0x14)
  bitB v 31 = false ∧ bitB v 30 = true ∧ fieldN v 0 8 = status ∧ lget t.mb.st 0 m = 0

/-- Mailbox `m` is still busy with its command: taken and not complete. -/
def MbBusy (s t : State) (m : Nat) : Prop :=
  reg t (mboxBase m + 0x14) = reg s (mboxBase m + 0x14) ∧ (m < s.mb.st.length → lget t.mb.st 0 m = 2)

/-- The registers of mailbox `m` that a completion writes: MB_STATUS and MB_RESULT. -/
def mbRegs (m : Nat) : List Nat := [mboxBase m + 0x14, mboxBase m + 0x18]

/-- The mailboxes and ports after an access of port p in the present PCLK cycle which leaves `r` as what the ports have read: the access is
acknowledged two cycles on, with the port's data beside it (R435). -/
def ackedMb (s : State) (p : Port) (r : List W32) : Mb :=
  { s.mb with rdata := r, acks := (s.mb.acks.filter fun a => decide (pclkOf s ≤ a.t)) ++ [⟨portArg p, pclkOf s + 2, lget r 0 (portArg p)⟩] }

/-- The access of port p returned `v` (R435); the state holds the data of three ports. -/
def Reads (s t : State) (p : Port) (v : W32) : Prop := s.mb.rdata.length = 3 → lget t.mb.rdata 0 (portArg p) = v

/-- An event has a cause in the present PCLK cycle; the next one raises it (R425). -/
def Caused (t : State) (code : Nat) : Prop := t.ev.due.any (·.1 == code) = true

/-- Of the event unit nothing changes but that causes may be added to those of the present PCLK cycle. -/
def EvGrows (s t : State) : Prop := ∃ l, t.ev = { s.ev with due := s.ev.due ++ l }

/-- A STORE in phases 1 to 4 ends with the word write in progress, or at once if there is none; any other job, and no job, stays (R380). -/
def JobEnds (s t : State) : Prop :=
  (∀ j, s.store.job = some j → j.fetch = false → j.phase < 5 → j.stop = none →
    t.store.job = if wordsBegun s j = 0 then none else some { j with stop := some (wordsBegun s j) }) ∧
  ((∀ j, s.store.job = some j → j.fetch = true ∨ 5 ≤ j.phase ∨ j.stop.isSome = true) → t.store = s.store)

/-- The interrupt pins follow the pending events that show, and their routes (R427); in a reset, and while POST holds an output, a pin has
its DUR level (R412); a fuse map that failed leaves irq_fatal alone high (R362). -/
def PinsFollow (t : State) : Prop :=
  let held (i : Nat) : Bool := inResetOut t || (bitB t.fuse.outs (2 * i) && inPostHold t)
  let dur (i : Nat) : Bool := bitB t.fuse.outs (2 * i + 1)
  (t.boot.fuseFail = true →
    t.pins.irqFatal = true ∧ t.pins.irqHost = false ∧ t.pins.irqSecure = false ∧ t.pins.evtPulse = false) ∧
  (t.boot.fuseFail = false →
    (held 0 = true → t.pins.irqHost = dur 0) ∧ (held 1 = true → t.pins.irqSecure = dur 1) ∧
    (held 2 = true → t.pins.irqFatal = dur 2) ∧ (held 3 = true → t.pins.evtPulse = dur 3) ∧
    (held 0 = false → (t.pins.irqHost = true ↔ ∃ c < 128, pendShown t c = true ∧ (routeOf t c).testBit 0 = true)) ∧
    (held 1 = false → (t.pins.irqSecure = true ↔ ∃ c < 128, pendShown t c = true ∧ (routeOf t c).testBit 1 = true)) ∧
    (held 2 = false → (t.pins.irqFatal = true ↔ ∃ c < 128, pendShown t c = true ∧ evClass c = some 3)) ∧
    (held 3 = false → (t.pins.evtPulse = true ↔ t.ev.pulse = 1 ∧ t.ev.pulseT ≤ pclkOf t)))

/-- The rows of the commands that arrive in a mailbox, by opcode (R450). -/
def mailRows : List (Nat × (Origin → CmdWords → Instr)) :=
  [(0x00, .arm), (0x01, .chStop), (0x02, .chResume), (0x03, .chAbort), (0x04, .ringSet), (0x10, .bind), (0x11, .evict),
    (0x12, .reload), (0x13, .zero), (0x14, .accept), (0x15, .seamClose), (0x20, .run), (0x21, .halt), (0x22, .benchStop),
    (0x23, .benchResume), (0x24, .benchAbort), (0x30, .store), (0x31, .fetch), (0x40, .modeChange), (0x41, .resurvey),
    (0x42, .reduceRound), (0x50, .openExport), (0x51, .openImport), (0x52, .windowClose), (0x60, .reset), (0x70, .dbgPeek),
    (0x71, .dbgPoke)]

/-- The bits of ARG0 to ARG3 that a command assigns (the table of R450). -/
def argBits (w : CmdWords) (op : Nat) : Nat × Nat × Nat × Nat :=
  match op with
  | 0x00 => (0x7F, 0xFFFFFFE0, 0x000FFFFF, 0xFFFF)
  | 0x01 => (0x7F, 0, 0, 0)
  | 0x02 => (0x7F, 0, 0, 0)
  | 0x03 => (0x7F, 0, 0, 0)
  | 0x04 => (0x3F, 0xFFFF8000, 0xFFFFFFFF, 1)
  | 0x10 => (0xFF, 0x0FE0FF7F, 0x7F0003FF, 0)
  | 0x20 => (0xF, 0, 0, 0)
  | 0x30 => (0, 0xFFFFFFFF, 0x1FFF, 0x003FFFE0)
  | 0x31 => (0, 0xFFFFFFFF, 0, 0x003FFFE0)
  | 0x40 => (7, 0xFF, 0xFFFF, 0)
  | 0x42 => (1, 0, 0, 0)
  | 0x50 => (0x3F, 0x7FF, 0xFFF, 0xBFFF)
  | 0x51 => (0x3F, 0x00FF0FFF, 0xFFF, 0)
  | 0x52 => (0xF, 0, 0, 0)
  | 0x60 => (0x1F, 0, 0, 0)
  | 0x70 => (1, if fieldN w.w0 0 1 = 0 then 0x003FFFFC else 0x1FFFF, 0, 0)
  | 0x71 => (1, 0x003FFFFC, 0xFFFFFFFF, 0)
  | op => (if op / 16 = 1 then 0xFF else 0, 0, 0, 0)

/-- A command's words set no bit that the table of R450 leaves unassigned. -/
def argsClean (w : CmdWords) (op : Nat) : Bool :=
  let b := argBits w op
  argsOk w b.1 b.2.1 b.2.2.1 b.2.2.2

/-- An item of type `ty` and `n` words is the one that the sequencer reads next, its slot has come, and its words are sound. -/
def ItemNext (s : State) (ty n : Nat) : Prop :=
  itemIs ty s = true ∧ s.seq.frozen = false ∧ (∃ d, itemDue s = some d ∧ d ≤ s.clk.slot) ∧
    ∀ x ∈ s.seq.badPram, x < s.seq.pc ∨ s.seq.pc + n ≤ x

/-- The sequencer with the entry state of the bench it is building (R233). -/
def entered (s : State) : Seq := { s.seq with cur := some (s.seq.cur.getD (entryNow s)) }

/-- The sequencer asks for a halt of a cause, and nothing else of it changes but what `q` says. -/
def HaltAsked (t : State) (q : Seq) (cause : Nat) : Prop :=
  ∃ h, t.seq = { q with haltReq := some h } ∧ h.cause = cause

/-- Record `pos` of bench `uid`, of type `ty`, is in progress, and the slots go on. -/
def RecNow (s : State) (uid pos ty : Nat) (b : Bench) (r : Rec) : Prop :=
  recOf s uid pos = some (b, r) ∧ r.ty = ty ∧ seqActive s = true ∧ s.seq.frozen = false

/-- The record has issued `n` of its parts. -/
def RecAtN (t : State) (uid pos n : Nat) : Prop := (recOf t uid pos).map (fun e => e.2.n) = some n

/-- A halt of a cause is asked for, the first one of the slot standing. -/
def HaltsFor (s t : State) (cause : Nat) : Prop :=
  seqActive s = true → s.seq.haltReq = none → t.seq.haltReq.map (·.cause) = some cause

/-- One add of a compensated pair, every operation binary32 to nearest even: an infinite, NaN or overflowing t or s2 is the sum, with the
error +0 (R103). -/
def CompAdds (oi : Bool) (s0 e0 x s1 e1 : W32) : Prop :=
  let add (a b : W32) : W32 := BitVec.ofNat 32 (f32Add .rne oi 0 a b).bits
  let sub (a b : W32) : W32 := BitVec.ofNat 32 (f32Sub .rne oi 0 a b).bits
  let wild (a b : W32) : Bool :=
    (f32Add .rne oi 0 a b).fl &&& fOVF != 0 || (match f32 (add a b) with | .fin _ _ _ => false | _ => true)
  let t := add s0 x
  let z := sub t s0
  let r := add (sub s0 (sub t z)) (sub x z)
  let v := add e0 r
  let s2 := add t v
  let z2 := sub s2 t
  s1 = (if wild s0 x then t else s2) ∧
  e1 = (if wild s0 x || wild t v then 0 else add (sub t (sub s2 z2)) (sub v z2))

/-- The update of a wavefront is on its way to its row, and that of a pair to the next row too, to be made at the end of slot s + 259 (R96):
the words of every column below T_COLS, the partials of a binary32 add, and the metadata. -/
def WavePut (s t : State) (w : Wave) (val : Nat → W32 → W32 → Prop) (add : List W32) (md : Bool → Meta → Prop) : Prop :=
  ∃ x y : AccWrite, t.acc = { s.acc with wq := s.acc.wq ++ (if isPair w.tfmt then [x, y] else [x]) } ∧
    x.due = max s.clk.slot (w.entry + 259) ∧ x.row = w.row ∧ x.kind = .arr ∧ x.void = false ∧ x.add = add ∧ x.rnd = waveRnd w ∧
    x.oi = w.ovfInf ∧ x.lanes.length = w.cols ∧ md false x.md ∧
    (isPair w.tfmt = true → y.due = x.due ∧ y.row = (w.row + 1) % 1024 ∧ y.kind = .arr ∧ y.void = false ∧ y.lanes.length = w.cols ∧
      md true y.md) ∧
    ∀ j, j < w.cols → ∃ a c, lget x.lanes none j = some a ∧ (isPair w.tfmt = true → lget y.lanes none j = some c) ∧
      (isPair w.tfmt = false → c = 0) ∧ val j a c

/-- The number that a lane of the accumulator's write port draws if it rounds (R51, R53). -/
def accDraw (s : State) (k : Nat) : Nat := (lfsrDraw (genOf s siteAcc k)).toNat % 65536

/-- Record `pos` of bench `uid` holds these parameter rows. -/
def RecHolds (t : State) (uid pos : Nat) (par : List (List W32)) : Prop := (recOf t uid pos).map (fun e => e.2.par) = some par

/-- The read ports of the present slot that are taken, or that records which started before record `pos` of bench `uid` still take (R97). -/
def portsTaken (s : State) (uid pos : Nat) : Nat :=
  (if s.acc.portSlot = s.clk.slot then s.acc.reads else 0) + (stagesAhead s uid pos + vecAhead s uid pos)

/-- A read port is left for the record in the present slot (R97). -/
def PortLeft (s : State) (uid pos : Nat) : Prop := portsTaken s uid pos < 4

/-- Seam k takes part in a bench: it has been dispatched, or it is ready and fits its first access (R115, R462). -/
def SeamJoins (s : State) (b : Bench) (k : Nat) : Prop :=
  k ∈ b.disp ∨ k ∉ b.disp ∧ k ∉ b.held ∧ mget b.skips 0 k = 0 ∧ seamReady s k = true ∧ seamMisfit s b k = false ∧
    oldBinding (seam s k) b = false

/-- The running recipe issues an instruction of opcode `op` next, its word is sound, and its slot has come. -/
def VNow (s : State) (op : Nat) (run : Running) (b : Bench) (r : Rec) : Prop :=
  s.vec.run = some run ∧ vF (vWord s run) 58 6 = op ∧ vWordBad s run = false ∧ run.next ≤ s.clk.slot ∧
    seqActive s = true ∧ s.seq.frozen = false ∧ recOf s run.uid run.pos = some (b, r)

/-- The state after an instruction that leaves `v`: the recipe goes on in the next slot (R173, R183). -/
def vGo (v : State) (run : Running) : State := vAdvance v run run.loops (run.pc + 1)

/-- Lane k of source i. -/
def vIn (l : List (List W32)) (i k : Nat) : W32 := lget (lget l [] i) 0 k

/-- The number that lane k of the vector engine draws if it rounds (R51, R53). -/
def vDraw (v : State) (k : Nat) : Nat := (lfsrDraw (genOf v siteVec k)).toNat % 65536

/-- The values that take part in a reduction (R186). -/
def vTaking (v : State) (w : W64) (l : List (List W32)) : List (Option W32) :=
  (natsTo 128).map fun k => if vActs v w k then some (vIn l 0 k) else none

/-- The recipe goes on, and nothing else changes but results, writes, lane flags, sticky flags and generators. -/
def VFrame (t v : State) (run : Running) : Prop :=
  t = { v with vec := t.vec, acc := { v.acc with wq := t.acc.wq }, gen := t.gen, regs := t.regs, cyc := t.cyc, free := t.free
               pins := t.pins } ∧
  t.vec = { (vGo v run).vec with res := t.vec.res, ord := t.vec.ord, flags := t.vec.flags } ∧ RegsKept v t [0x4804]

/-- The destination of an instruction takes `lanes`, `lam` slots on, in the lanes that are given; where none is, a write takes its port and
changes nothing (R174, R175, R178, R179). -/
def VWrites (t v : State) (b : Bench) (r : Rec) (w : W64) (lam : Nat) (fmt : Option Nat) (lanes : Nat → Option W32) : Prop :=
  let d := vF w 44 10
  let k := vSeam r (d / 128 % 2)
  let void (x : AccWrite) : Prop := x.void = true ↔ ∀ l, l < 128 → lanes l = none
  (d / 256 = 0 → t.acc.wq = v.acc.wq ∧ ∃ x : VRes, t.vec.res = v.vec.res ++ [x] ∧ x.due = v.clk.slot + lam ∧ x.dst = .v (d % 32) ∧
    x.uid = b.uid ∧ x.pos = r.pos ∧ ∀ l, l < 128 → lget x.lanes none l = lanes l) ∧
  (d / 256 = 1 → t.vec.res = v.vec.res ∧ ∃ x : AccWrite, t.acc.wq = v.acc.wq ++ [x] ∧ x.due = v.clk.slot + lam ∧
    x.row = vRow v b r d ∧ x.kind = .row ∧ x.uid = b.uid ∧ x.pos = r.pos ∧ x.md.epoch = vEp b r (d / 64 % 4) ∧
    x.md.stale = false ∧ void x ∧ (∀ f, fmt = some f → x.md.fmt = f) ∧ ∀ l, l < 128 → lget x.lanes none l = lanes l) ∧
  (d / 256 = 2 → d / 16 % 4 = 0 → (∃ y, benchOf v b.uid = some y ∧ k ∈ y.disp) → d % 16 < (seam v k).nrows →
    (seam v k).deep = 0 → t.vec.res = v.vec.res ∧ ∃ x : AccWrite, t.acc.wq = v.acc.wq ++ [x] ∧ x.due = v.clk.slot + lam ∧
      x.row = d % 16 ∧ x.kind = .seam k ∧ x.uid = b.uid ∧ x.pos = r.pos ∧ void x ∧
      x.mask = (if d % 16 < nStd (seam v k).nvec then seamBits (seam v k) (d % 16) 0 else 0xFFFFFFFF) ∧
      ∀ l, l < 128 → lget x.lanes none l = lanes l) ∧
  (d / 256 = 2 → (∃ y, benchOf v b.uid = some y ∧ k ∈ y.disp) → (seam v k).nrows ≤ d % 16 →
    t.vec.res = v.vec.res ∧ ∃ x : AccWrite, t.acc.wq = v.acc.wq ++ [x] ∧ x.due = v.clk.slot + lam ∧ x.kind = .seam k ∧
      x.uid = b.uid ∧ x.pos = r.pos ∧ x.void = true)

/-- A lane-wise instruction is done: every acting lane has its value and its flags (R170, R187). -/
def VDone (t v : State) (run : Running) (b : Bench) (r : Rec) (w : W64) (lam : Nat) (fmt : Option Nat)
    (val : Nat → W32 × Flg) : Prop :=
  t.vec.run = (vGo v run).vec.run ∧ VWrites t v b r w lam fmt (fun l => if vActs v w l then some (val l).1 else none) ∧
  (vF w 44 10 / 256 < 2 → VFrame t v run ∧ ∀ l, l < 128 →
    BitVec.ofNat 8 (mget t.vec.flags 0 l) =
      BitVec.ofNat 8 (mget v.vec.flags 0 l) ||| (if vActs v w l then (val l).2 &&& 0x3F else 0))

/-- Command `c` issues the instruction of opcode `op` with `n` sources: a source whose access was lost leaves the destination; else
every acting lane takes what `val` says of the sources. -/
def VIssues (c : Instr) (op n lam : Nat) (fmt : Option Nat) (val : State → Bench → W64 → List (List W32) → Nat → W32 × Flg) :
    Prop :=
  ∀ s run b r, VNow s op run b r →
    let w := vWord s run
    let x := vSrcs (vTurn s b r) b r w n
    (x.1 = none → Answers c s fun t => t = { vGo x.2 run with pins := t.pins }) ∧
    (∀ l, x.1 = some l → Answers c s fun t => VDone t x.2 run b r w lam fmt (val x.2 b w l))

/-- Landing write `l`, the first of port n, lands (R264): it leaves its buffer, its sectors are marked in the filling half, which becomes
full with the write's tag once every sector has landed, and no other byte and no other ring changes. -/
def Lands (s t : State) (n : Nat) (l : LandReq) : Prop :=
  let r := ringOf s l.ring
  let sec (i : Nat) : Nat := (r.base + 32 * (l.off + i * l.step)) % spadBytes s / 32
  t = { s with fab := t.fab, rings := t.rings, spad := t.spad, wins := t.wins, mb := t.mb, regs := t.regs, cyc := t.cyc
               boot := t.boot, ev := t.ev, pins := t.pins } ∧
  t.fab.land = s.fab.land.eraseP (fun x => x.port == n) ∧ EvGrows s t ∧
  (∀ k, k ≠ l.ring → ringOf t k = ringOf s k) ∧ (ringOf t l.ring).rel = r.rel ∧
  ((ringOf t l.ring).prod = r.prod ∧
      (∀ i, i < l.sectors.length → l.off + i * l.step ∈ (ringOf t l.ring).landed) ∧
      (∀ o ∈ r.landed, o ∈ (ringOf t l.ring).landed) ∨
    (ringOf t l.ring).prod = add32 r.prod (halfRows r) ∧ (ringOf t l.ring).landed = [] ∧
      halfTag (ringOf t l.ring) (halfOf r r.prod) = l.ep % 16) ∧
  ∀ a, (∀ i, i < l.sectors.length → a / 32 ≠ sec i) → spadByte t a = spadByte s a

/-- A control flit that arrives at port n is taken: the port is there, and no reset holds it (R309, R410). -/
def Heard (s : State) (n : Nat) : Prop := linkIn s n = true ∧ unitHeld s (10 + n) = false

/-- Only port n changes, and of it the time of the last arrival, the credits and what `f` says. -/
def PortNow (s t : State) (n : Nat) (f : LinkPort → LinkPort) : Prop :=
  t = { s with fab := { s.fab with ports := t.fab.ports }, pins := t.pins } ∧ (∀ m, m ≠ n → portOf t m = portOf s m) ∧
    portOf t n = f { portOf s n with lastRx := mclkOf s, cred := (portOf t n).cred }

/-- A control message waits at port e, behind those that waited, if the port is UP. -/
def Sent (s t : State) (e : Nat) (x : CMsg) : Prop := portUp s e = true → (portOf t e).ctl = (portOf s e).ctl ++ [x]

/-- The flits of `l` wait at port e on channel 2, each with the port whose buffer it holds (6: none), behind those that waited, if the
port is UP. -/
def Passed (s t : State) (e src : Nat) (l : List Flit) : Prop :=
  portUp s e = true → (portOf t e).outVc2 = (portOf s e).outVc2 ++ l.map fun f => (src, f)

/-- Entry i of the block of 32 binary32 entries at byte `a` of the scratchpad, as it stands there (R340). -/
def blockEntry (s : State) (a i : Nat) : W32 :=
  let o := 32 * ((a + 32 * (i / 8)) % spadBytes s / 32) + 4 * (i % 8)
  BitVec.ofNat 32 ((spadByte s o).toNat + 256 * (spadByte s (o + 1)).toNat + 65536 * (spadByte s (o + 2)).toNat
    + 16777216 * (spadByte s (o + 3)).toNat)

/-- The block at byte `a` lies in the scratchpad, outside the cache area (R267). -/
def BlockFits (s : State) (a : Nat) : Prop := ∀ i, i < 4 → spadFits s (32 * ((a + 32 * i) % spadBytes s / 32)) 32 = true

-- The error bounds of the built-in tables (R130, R201): what the manual says of the free coefficients. A claim that rests on a bound has
-- one of the two last propositions as a hypothesis (log 4).

/-- The number that a finite binary32 word stands for. -/
def numOf (w : W32) : Option ℚ :=
  match f32 w with
  | .fin n m e => some ((if n then -1 else 1) * (m : ℚ) * (2 : ℚ) ^ e)
  | _ => none

/-- The result of a lane that rounds to nearest even. -/
def laneValue (f : W32 → LaneM W32) (w : W32) : W32 := (f w ⟨0, 0, .rne, false⟩).1

/-- The results of `f` keep within `bound` of `g` at the operands of `dom`: a normal result, or a zero, within the bound, and a subnormal one
within 2^-149 (R201). An operand whose true value lies beyond the range has no bound. -/
def Within (f : W32 → LaneM W32) (dom : ℝ → Prop) (g bound : ℝ → ℝ) : Prop :=
  ∀ w x, numOf w = some x → dom x → |g x| ≤ (2 - 2 ^ (-20 : ℤ)) * 2 ^ 127 →
    ∃ y, numOf (laneValue f w) = some y ∧
      (2 ^ (-126 : ℤ) ≤ |(y : ℝ)| → |(y : ℝ) - g x| ≤ bound x) ∧
      (y = 0 → |g x| ≤ max (bound x) (2 ^ (-149 : ℤ))) ∧
      (y ≠ 0 → |(y : ℝ)| < 2 ^ (-126 : ℤ) → |(y : ℝ) - g x| ≤ 2 ^ (-149 : ℤ))

/-- A built-in slot of the SFU. -/
def sfuSlotFn (slot : Nat) : W32 → LaneM W32 := sfuSegment (fun w => some (sfuBuilt slot w)) (sfuBuilt slot 768)

/-- The bounds of the gate tables (R130); at the edges of the domain the result is 1.0 itself (R129). -/
def GateTablesKeepBounds : Prop :=
  let sig := gateSig fun k c => some (gateBuilt false k c)
  let tnh := gateTnh fun k c => some (gateBuilt true k c)
  Within sig (fun _ => True) (fun x => 1 / (1 + Real.exp (-x))) (fun _ => 1.2e-5) ∧
  Within tnh (fun _ => True) Real.tanh (fun _ => 2.2e-5)

/-- The bounds of the built-in slots of the SFU (R201). -/
def SfuTablesKeepBounds : Prop :=
  let rel (k : ℤ) (g : ℝ → ℝ) (x : ℝ) : ℝ := 2 ^ k * |g x|
  let low (x : ℝ) : Prop := 1 / 2 ≤ x ∧ x < 2
  let exp2 (x : ℝ) : ℝ := (2 : ℝ) ^ x
  let rsqrt (x : ℝ) : ℝ := 1 / Real.sqrt x
  let softplus (x : ℝ) : ℝ := Real.log (1 + Real.exp x)
  let sigmoid (x : ℝ) : ℝ := 1 / (1 + Real.exp (-x))
  let phi (x : ℝ) : ℝ := ProbabilityTheory.cdf (ProbabilityTheory.gaussianReal 0 1) x
  Within (sfuSlotFn 0) (fun _ => True) exp2 (rel (-21) exp2) ∧
  Within (sfuSlotFn 1) (fun _ => True) Real.exp (fun x => (2 ^ (-21 : ℤ) + |x| * 2 ^ (-24 : ℤ)) * Real.exp x) ∧
  Within (sfuSlotFn 2) low (Real.logb 2) (fun _ => 2 ^ (-21 : ℤ)) ∧
  Within (sfuSlotFn 2) (fun x => 0 < x ∧ ¬ low x) (Real.logb 2) (rel (-21) (Real.logb 2)) ∧
  Within (sfuSlotFn 3) low Real.log (fun _ => 2 ^ (-21 : ℤ)) ∧
  Within (sfuSlotFn 3) (fun x => 0 < x ∧ ¬ low x) Real.log (rel (-20) Real.log) ∧
  Within (sfuSlotFn 4) (fun x => x ≠ 0) (fun x => 1 / x) (rel (-22) fun x => 1 / x) ∧
  Within (sfuSlotFn 5) (fun x => 0 < x) rsqrt (rel (-22) rsqrt) ∧
  Within (sfuSlotFn 6) (fun x => 0 ≤ x) Real.sqrt (rel (-21) Real.sqrt) ∧
  Within (sfuSlotFn 7) (fun x => x < 16) softplus (fun _ => 2 ^ (-20 : ℤ)) ∧
  Within (sfuSlotFn 7) (fun x => 16 ≤ x) softplus (rel (-22) softplus) ∧
  Within (sfuSlotFn 8) (fun _ => True) sigmoid (fun _ => 2 ^ (-21 : ℤ)) ∧
  Within (sfuSlotFn 9) (fun _ => True) Real.tanh (fun _ => 2 ^ (-21 : ℤ)) ∧
  Within (sfuSlotFn 10) (fun _ => True) (fun x => x * phi x) (fun _ => 2 ^ (-19 : ℤ)) ∧
  Within (sfuSlotFn 11) (fun _ => True) (fun x => x * sigmoid x) (fun _ => 2 ^ (-18 : ℤ))

end Sys2Proof.Machine
end

