-- ==== Sys2Proof/Certificates/Slice0/Obligations.lean ====
section
/-! DEFINITION. The statements about the block: what each command does where it completes, what it leaves as it was, and what holds
after every step. -/
open Sys2Proof Sys2Proof.Machine

-- The step.

/-- Derived: a step takes the command at the front of the queue and is its execution on the state with the queue's rest. -/
def Obligations.StepRunsFrontCommand : Prop :=
  ∀ (c : Instr) (r : List Instr) (s : State), s.pending = c :: r → step s = exec c { s with pending := r }

/-- Derived from R386 and R412: before the clocks are started an idle step that ends no PCLK cycle only lets one nominal ACLK period pass,
with the link ports at rest, and looks whether the next ACLK cycle is a stretched one. That time passes in idle steps is the model's choice
(log 2).
So is what runs before that (log 5). -/
def Obligations.IdleStepPassesOnePeriod : Prop :=
  ∀ s : State, s.pending = [] → clocksOn s = false → s.seq.resume = false → (s.clk.t + 1) % 8 ≠ 0 →
    ∃ t, step s = .next t ∧
      t = { s with clk := { s.clk with t := s.clk.t + 1, cause := if s.clk.half = true then s.clk.cause else t.clk.cause }
                   fab := { s.fab with ports := t.fab.ports }, pins := t.pins } ∧
      ∀ n, portOf t n = { portOf s n with tx := (portOf t n).tx, txCr := (portOf t n).txCr }

/-- Derived from R362, R412 and R427: whatever the step, the block goes on, the queue loses its front and nothing else, the variant
stays, and the interrupt pins follow the pending events. That every step goes on is the model's choice (log 1).
So is that a reset of one unit leaves the pins to the events (log 12). -/
def Obligations.EveryStepKeepsPinsFollowingEvents : Prop :=
  ∀ s : State, PinsFollow s → ∃ t, step s = .next t ∧ PinsFollow t ∧ t.pending = s.pending.tail ∧ t.variant = s.variant

/-- Derived: whatever the step, the scratchpad's memory keeps its canonical form: rising addresses, and no entry that equals what an unlisted
address reads as. The form is the model's own; that unlisted bytes read 0 is its choice (log 6). -/
def Obligations.EveryStepKeepsTheMemoryCanonical : Prop :=
  ∀ s t : State, Memory.wf s = true → step s = .next t → Memory.wf t = true

/-- Derived from R412 and R427: after reset the pins follow the pending events, of which there is none, and the scratchpad's memory has its
canonical form.
What the state after reset is (log 3), and that its memory reads 0 (log 6), are the model's choices. -/
def Obligations.ResetKeepsTheInvariants : Prop :=
  PinsFollow State.reset ∧ Memory.wf State.reset = true ∧ State.reset.pending = [] ∧
    ∀ c, ¬ Caused State.reset c ∧ State.reset.ev.pend.getLsbD c = false

-- Accesses to the register window.

/-- R20: an HCP access to a register marked "SCP only" changes nothing but what the port reads, 0, with its acknowledgement, and the events:
PORT_DENIED has a cause, which the next PCLK cycle raises. -/
def Obligations.HcpAccessToScpOnlyIsDenied : Prop :=
  ∀ (i : Instr) (s : State) (off : Nat),
    (accessOf i = some (.hcp, off) ∨ (∃ we, i = .scpOnlyDenied off we)) → scpOnly off = true → accessHeld s = false →
    Answers i s fun t =>
      t = { s with mb := ackedMb s .hcp t.mb.rdata, ev := t.ev, pins := t.pins } ∧ Reads s t .hcp 0 ∧ Caused t 0x6B
        ∧ EvGrows s t

/-- Derived from R437: while the debug port is closed its accesses read 0 and change nothing but the count of denials, and
PORT_DENIED has a cause with ARG 2.
That a cause comes one PCLK cycle before its raise is the model's reading (log 30). -/
def Obligations.ClosedDebugPortChangesNothing : Prop :=
  ∀ (i : Instr) (s : State) (off : Nat),
    (accessOf i = some (.dbg, off) ∨ (∃ we, i = .debugPortDenied off we)) → dbgOpen s = false → accessHeld s = false →
    Answers i s fun t =>
      t = { s with mb := ackedMb s .dbg t.mb.rdata, ev := t.ev, pins := t.pins, denied := min 0xFFFF (s.denied + 1) }
        ∧ Reads s t .dbg 0 ∧ Caused t 0x6B ∧ EvGrows s t
        ∧ (0x6B, 2) ∈ t.ev.due

/-- Derived from R435 and R456: while a level reset is in force every access reads 0 and changes nothing; and so does an access
to a register of a unit that the variant lacks: the cache, the microcode RAM, the adaptation unit. -/
def Obligations.AccessesThatReachNothingReadZero : Prop :=
  (∀ (i : Instr) (s : State) (p : Port) (off : Nat), accessOf i = some (p, off) → accessHeld s = true →
    Answers i s fun t => t = { s with mb := ackedMb s p t.mb.rdata, pins := t.pins } ∧ Reads s t p 0) ∧
  ∀ (s : State) (p : Port) (val : W32) (wr : Option W32) (k : Nat) (i : Instr) (off : Nat),
    ((hasCache s = false ∧ i = .spadCacheWrite p val ∧ off = 0x6044) ∨ (hasCache s = false ∧ i = .cacheInv p ∧ off = 0x6064) ∨
      (hasUcode s = false ∧ i = .sfuUcDataAccess p wr ∧ off = 0x5018) ∨
      (hasAdapt s = false ∧ k < 2 ∧ i = .redClrCounts p k ∧ off = 0x8060 + 256 * k)) →
    Performed s p off →
    Answers i s fun t => t = { s with mb := ackedMb s p t.mb.rdata, pins := t.pins } ∧ Reads s t p 0

/-- Derived from R17, R19, R190, R237, R396, R427, R436 and R446: a write to a register without an operation of its own stores its RW bits, clears
the W1C bits written with 1, and leaves every other bit, every other register and all other state as they were; bits that the tile set or
updated in the same PCLK cycle stand, and of several ports' writes in one cycle the last in the order SCP, debug, HCP decides, whatever the
order in which they came. Beside it, where no write came before in the cycle: the words of a free mailbox are stored, those of a busy one are
refused; GO by the mailbox's own port makes it busy, and by another port is denied; a write of EVT_ROUTE waits for the next PCLK cycle;
BENCH_DIRn and the TD file are written while the sequencer is stopped; START and LEN of an idle recipe entry are stored; and CLK_DUMP without
GO is stored.
That GO keeps the order of the queue (log 120), that the change of a route waits in a field of its own (log 113), and that a write with a row
of its own comes as that row (log 108), are the model's choices. -/
def Obligations.RegisterWriteStoresByAccessCode : Prop :=
  (∀ (s : State) (p : Port) (off : Nat) (val : W32), Performed s p off → off % 4 = 0 → off < 0x10000 →
    hasOwnWrite off val = false → ¬ (0x100 ≤ off ∧ off < 0x160) → ¬ (0x3080 ≤ off ∧ off < 0x30C0) →
    ¬ (0x3400 ≤ off ∧ off < 0x3C00) → off ≠ 0x814 → off ≠ 0x4818 → off ≠ 0x31C →
    let after := (laterWrites s p off).map (·.val)
    Answers (.regWrite p off val) s fun t =>
      t = { s with mb := ackedMb s p s.mb.rdata, regs := t.regs, cyc := t.cyc, pins := t.pins } ∧ RegsKept s t [off] ∧
      ∀ i, i < 32 →
        ((tileBits s off).getLsbD i = true → (reg t off).getLsbD i = (reg s off).getLsbD i) ∧
        ((tileBits s off).getLsbD i = false →
          ((rwBits s off).getLsbD i = true → (reg t off).getLsbD i = (after.getLastD val).getLsbD i) ∧
          ((rwBits s off).getLsbD i = false → (w1cBits off).getLsbD i = true → (∃ v ∈ val :: after, v.getLsbD i = true) →
            (reg t off).getLsbD i = false) ∧
          ((rwBits s off).getLsbD i = false → ((w1cBits off).getLsbD i = false ∨ val.getLsbD i = false) → after = [] →
            (reg t off).getLsbD i = (reg s off).getLsbD i))) ∧
  ∀ (s : State) (p : Port) (m off : Nat) (val : W32), Reached s p off →
    (m < 3 → (off = mboxBase m ∨ off = mboxBase m + 4 ∨ off = mboxBase m + 8 ∨ off = mboxBase m + 0xC ∨ off = mboxBase m + 0x1C) →
      (lget s.mb.st 0 m = 0 → Answers (.regWrite p off val) s fun t =>
        t = { s with mb := ackedMb s p s.mb.rdata, regs := t.regs, cyc := t.cyc, pins := t.pins } ∧ RegsKept s t [off] ∧
        reg t off = if off = mboxBase m + 0x1C then val &&& 0x800000FF else val) ∧
      (lget s.mb.st 0 m ≠ 0 → Answers (.regWrite p off val) s fun t =>
        t = { s with mb := ackedMb s p s.mb.rdata, ev := t.ev, cyc := t.cyc, pins := t.pins } ∧ Caused t 0x0D ∧ EvGrows s t)) ∧
    (m < 3 → off = mboxBase m + 0x10 → val.getLsbD 0 = true →
      (portArg p ≠ m → Answers (.regWrite p off val) s fun t =>
        t = { s with mb := ackedMb s p s.mb.rdata, ev := t.ev, cyc := t.cyc, pins := t.pins } ∧ Caused t 0x6B ∧ EvGrows s t) ∧
      (portArg p = m → lget s.mb.st 0 m ≠ 0 → Answers (.regWrite p off val) s fun t =>
        t = { s with mb := ackedMb s p s.mb.rdata, ev := t.ev, cyc := t.cyc, pins := t.pins } ∧ Caused t 0x0D ∧ EvGrows s t) ∧
      (portArg p = m → lget s.mb.st 0 m = 0 → s.mb.st.length = 3 → s.mb.goT.length = 3 → Answers (.regWrite p off val) s fun t =>
        t = { s with mb := t.mb, regs := t.regs, cyc := t.cyc, pins := t.pins } ∧ RegsKept s t [mboxBase m + 0x14] ∧
        bitB (reg t (mboxBase m + 0x14)) 31 = true ∧ bitB (reg t (mboxBase m + 0x14)) 30 = false ∧
        lget t.mb.st 0 m = 1 ∧ lget t.mb.goT 0 m = pclkOf s + 1 ∧ t.mb.peerQ = s.mb.peerQ ∧ t.mb.nextT = s.mb.nextT)) ∧
    (off = 0x814 → Answers (.regWrite p off val) s fun t =>
      let c := regF s 0x810 0 7
      t = { s with mb := ackedMb s p s.mb.rdata, cyc := t.cyc, pins := t.pins, ev := { s.ev with
        routeNew := s.ev.routeNew ++ (if evClass c = none then [] else [(c, fieldN val 0 4)]) } }) ∧
    (off % 4 = 0 → 0x3080 ≤ off → off < 0x30C0 → seqTablesBusy s = false → Answers (.regWrite p off val) s fun t =>
      t = { s with mb := ackedMb s p s.mb.rdata, regs := t.regs, cyc := t.cyc, pins := t.pins } ∧ RegsKept s t [off] ∧
      ∀ i, i < 32 → (tileBits s off).getLsbD i = false → (reg t off).getLsbD i = (val &&& 0x80003FFF).getLsbD i) ∧
    (off % 4 = 0 → 0x3400 ≤ off → off < 0x3C00 → seqTablesBusy s = false → Answers (.regWrite p off val) s fun t =>
      let k := (off - 0x3400) / 4
      t = { s with mb := ackedMb s p s.mb.rdata, seq := { s.seq with badTd := s.seq.badTd.filter (· != k) }, regs := t.regs, cyc := t.cyc
                   pins := t.pins } ∧ RegsKept s t [off] ∧
      ∀ i, i < 32 → (tileBits s off).getLsbD i = false → (reg t off).getLsbD i = (val &&& tdMask (k % 8)).getLsbD i) ∧
    (off = 0x4818 → bitB val 27 = false → bitB val 26 = false →
      let n := regF s 0x4814 0 6
      let e := mget s.vec.dir {} n
      let busy := e.valid = true ∨ e.pend = true ∨ e.checking = true
      (busy → Answers (.regWrite p off val) s fun t =>
        t = { s with mb := ackedMb s p s.mb.rdata, ev := t.ev, cyc := t.cyc, pins := t.pins } ∧ Caused t 0x0D) ∧
      (¬ busy → Answers (.regWrite p off val) s fun t =>
        t = { s with mb := ackedMb s p s.mb.rdata, vec := { s.vec with dir := t.vec.dir }, cyc := t.cyc, pins := t.pins } ∧
        mget t.vec.dir {} n = { e with start := fieldN val 0 9, len := fieldN val 9 10 } ∧
        ∀ k, k ≠ n → mget t.vec.dir {} k = mget s.vec.dir {} k)) ∧
    (off = 0x31C → bitB val 31 = false → Answers (.regWrite p off val) s fun t =>
      t = { s with mb := ackedMb s p s.mb.rdata, regs := t.regs, cyc := t.cyc, pins := t.pins } ∧ RegsKept s t [off] ∧
      reg t off = val &&& 0x00FFFFE0)

/-- R237: writes to the program RAM, to BENCH_DIRn or to the TD file while the sequencer is CHECKING, RUNNING, DRAINING or STOPPING
are not performed, and they are the cause of TABLE_BUSY, which the next PCLK cycle raises. -/
def Obligations.RunningSequencerKeepsItsTables : Prop :=
  ∀ (s : State) (p : Port) (off : Nat) (val : W32) (i : Instr), 1 ≤ s.seq.st → s.seq.st ≤ 4 →
    ((i = .regWrite p off val ∧ off % 4 = 0 ∧ ((0x3080 ≤ off ∧ off < 0x30C0) ∨ (0x3400 ≤ off ∧ off < 0x3C00)))
      ∨ (i = .benchPramDataAccess p (some val) ∧ off = 0x3048)) →
    Performed s p off →
    Answers i s fun t => t = { s with mb := ackedMb s p s.mb.rdata, ev := t.ev, cyc := t.cyc, pins := t.pins } ∧ Caused t 0x0D ∧ EvGrows s t

/-- Derived from R192, R212, R239, R274, R307, R336, R360, R402, R403, R415, R432 and R433: a clearing command makes its counting registers 0 and
changes nothing else; and so do those whose counts are parts of registers or lie elsewhere: of the memory port and its channels, of a
reduction group, of the supply guard, of the event log, and of the freezes and slots.
That each command bit of a write comes as its own row is the model's choice (log 101). -/
def Obligations.ClearCommandsZeroTheirCounts : Prop :=
  (∀ (s : State) (p : Port),
    let clears (c : Instr) (off : Nat) (l : List Nat) : Prop := Performed s p off → Answers c s fun t =>
      (∀ o ∈ l, readReg t o = 0) ∧ RegsKept s t l ∧ t = { s with mb := ackedMb s p s.mb.rdata, regs := t.regs, cyc := t.cyc, pins := t.pins }
    clears (.clrCsumCount p) 0x4024 [0x400C] ∧ clears (.clrRuns p) 0x4828 [0x4820] ∧ clears (.clrDrop p) 0x4828 [0x4824] ∧
    clears (.clrChunks p) 0x4F10 [0x4F08] ∧ clears (.clrSpoiled p) 0x4F10 [0x4F0C] ∧ clears (.clrClamps p) 0x5020 [0x501C] ∧
    clears (.benchClrCounts p) 0x3050 [0x3018, 0x301C] ∧
    clears (.spadClrCounts p) 0x6064 [0x6048, 0x604C, 0x6050, 0x6054, 0x605C, 0x6060] ∧
    clears (.fabClrCounts p) 0x7058 [0x7048, 0x704C, 0x7050, 0x7054] ∧ clears (.clkClrCounts p) 0x320 [0x308, 0x30C, 0x310] ∧
    clears (.rstClrCounts p) 0x224 [0x214] ∧ clears (.clrChecks p) 0xE044 [0xE038, 0xE03C, 0xE040]) ∧
  ∀ (s : State) (p : Port),
    (Performed s p 0x1D8 → Answers (.mempClrCounts p) s fun t =>
      t = { s with mb := ackedMb s p s.mb.rdata, regs := t.regs, cyc := t.cyc, pins := t.pins } ∧ reg t 0x1CC = 0 ∧ reg t 0x1D0 = 0 ∧ regF t 0x1D4 0 16 = 0 ∧
      ∀ c, c < 128 → reg t (chReg c 0x18) = 0 ∧ regF t (chReg c 0x1C) 16 16 = 0) ∧
    (∀ k, k < 2 → hasAdapt s = true → Performed s p (0x8060 + 256 * k) → Answers (.redClrCounts p k) s fun t =>
      t = { s with mb := ackedMb s p s.mb.rdata, regs := t.regs, cyc := t.cyc, pins := t.pins } ∧ reg t (0x8054 + 256 * k) = 0 ∧ reg t (0x8058 + 256 * k) = 0 ∧
      RegsKept s t [0x8054 + 256 * k, 0x8058 + 256 * k]) ∧
    (Performed s p 0x394 → Answers (.supClr p) s fun t =>
      t = { s with mb := ackedMb s p s.mb.rdata, regs := t.regs, cyc := t.cyc, sup := { s.sup with min := 0xFF }, pins := t.pins } ∧ reg t 0x390 = 0 ∧ RegsKept s t [0x390]) ∧
    (Performed s p 0x830 → Answers (.clrLog p) s fun t =>
      t = { s with mb := ackedMb s p s.mb.rdata, ev := t.ev, pins := t.pins } ∧ t.ev.head = 0 ∧ t.ev.overwritten = 0 ∧ t.ev.dropped = 0 ∧ t.ev.count = 0 ∧
      t.ev.pend = s.ev.pend ∧ t.ev.queue = s.ev.queue ∧ t.ev.routes = s.ev.routes ∧ t.ev.routeNew = s.ev.routeNew ∧
      t.ev.due = s.ev.due ∧ t.ev.setAt = s.ev.setAt ∧
      ∀ n, (mget t.ev.log {} n).valid = false) ∧
    (Performed s p 0xE044 → Answers (.clrFreeze p) s fun t =>
      t = { s with mb := ackedMb s p s.mb.rdata, perf := t.perf, pins := t.pins } ∧ t.perf.slots = 0 ∧ (∀ c, lget t.perf.frz 0 c = 0) ∧
      t.perf.caps = s.perf.caps)

/-- Derived from R237, R192, R205 and R131: a data register's write stores the word at the address shown and its read returns
the word there, and either moves the address on: the program RAM, the recipe RAM, the microcode RAM.
That moves of the address keep the order of the queue is the model's choice (log 120). -/
def Obligations.DataRegistersReachTheirWord : Prop :=
  ∀ (s : State) (p : Port) (v : W32),
    (Reached s p 0x3048 → seqTablesBusy s = false → Answers (.benchPramDataAccess p (some v)) s fun t =>
      let a := regF s 0x3044 0 14
      t = { s with mb := ackedMb s p s.mb.rdata, seq := { s.seq with pram := t.seq.pram, badPram := t.seq.badPram }, regs := t.regs, cyc := t.cyc, pins := t.pins } ∧
      mget t.seq.pram 0 a = v ∧ (∀ b, b ≠ a → mget t.seq.pram 0 b = mget s.seq.pram 0 b) ∧
      regF t 0x3044 0 14 = (a + 1) % 16384 ∧ RegsKept s t [0x3044]) ∧
    (Reached s p 0x3048 → Answers (.benchPramDataAccess p none) s fun t =>
      let a := regF s 0x3044 0 14
      t = { s with mb := ackedMb s p t.mb.rdata, regs := t.regs, cyc := t.cyc, pins := t.pins } ∧
      Reads s t p (mget s.seq.pram 0 a) ∧ regF t 0x3044 0 14 = (a + 1) % 16384 ∧ RegsKept s t [0x3044]) ∧
    (Reached s p 0x480C → Answers (.vecRcpDataLoAccess p (some v)) s fun t =>
      t = { s with mb := ackedMb s p s.mb.rdata, vec := { s.vec with loHold := v }, cyc := t.cyc, pins := t.pins }) ∧
    (Reached s p 0x480C → Answers (.vecRcpDataLoAccess p none) s fun t =>
      let w := mget s.vec.recipe 0 (regF s 0x4808 0 9)
      t = { s with mb := ackedMb s p t.mb.rdata, vec := { s.vec with hiCap := w.extractLsb' 32 32 }, pins := t.pins } ∧
      Reads s t p (w.extractLsb' 0 32)) ∧
    (Reached s p 0x4810 → rcpInUse s (regF s 0x4808 0 9) = false → Answers (.vecRcpDataHiAccess p (some v)) s fun t =>
      let a := regF s 0x4808 0 9
      t = { s with mb := ackedMb s p s.mb.rdata, vec := { s.vec with recipe := t.vec.recipe, badRcp := t.vec.badRcp }, regs := t.regs, cyc := t.cyc, pins := t.pins } ∧
      mget t.vec.recipe 0 a = v ++ s.vec.loHold ∧ (∀ b, b ≠ a → mget t.vec.recipe 0 b = mget s.vec.recipe 0 b) ∧
      regF t 0x4808 0 9 = (a + 1) % 512 ∧ RegsKept s t [0x4808]) ∧
    (Reached s p 0x4810 → Answers (.vecRcpDataHiAccess p none) s fun t =>
      t = { s with mb := ackedMb s p t.mb.rdata, regs := t.regs, cyc := t.cyc, pins := t.pins } ∧ Reads s t p s.vec.hiCap ∧
      regF t 0x4808 0 9 = (regF s 0x4808 0 9 + 1) % 512 ∧ RegsKept s t [0x4808]) ∧
    (Reached s p 0x5018 → hasUcode s = true → ucInUse s (regF s 0x5014 0 9 / 16) = false →
      Answers (.sfuUcDataAccess p (some v)) s fun t =>
        let a := regF s 0x5014 0 9
        t = { s with mb := ackedMb s p s.mb.rdata, sfu := { s.sfu with uc := t.sfu.uc, badUc := t.sfu.badUc }, regs := t.regs, cyc := t.cyc, pins := t.pins } ∧
        mget t.sfu.uc 0 a = v ∧ (∀ b, b ≠ a → mget t.sfu.uc 0 b = mget s.sfu.uc 0 b) ∧
        regF t 0x5014 0 9 = (a + 1) % 512 ∧ RegsKept s t [0x5014]) ∧
    (Reached s p 0x5018 → hasUcode s = true → Answers (.sfuUcDataAccess p none) s fun t =>
      let a := regF s 0x5014 0 9
      t = { s with mb := ackedMb s p t.mb.rdata, regs := t.regs, cyc := t.cyc, pins := t.pins } ∧ Reads s t p (mget s.sfu.uc 0 a) ∧
      regF t 0x5014 0 9 = (a + 1) % 512 ∧ RegsKept s t [0x5014])

/-- Derived from R131 and R202: a coefficient written to the bank of a gate table or of a function slot that is neither active nor
about to be is stored, and the address moves on; a write to the active bank, or to one whose switch is pending, is not performed,
moves nothing and is the cause of TABLE_BUSY; a read returns the word stored and moves the address on. An address that names no word (COEF 3, or
WORD above 774) is written to without effect and reads 0; that a read at COEF 3 gives 0 is the model's reading (log 128). -/
def Obligations.CoefficientTablesKeepTheActiveBank : Prop :=
  ∀ (s : State) (p : Port) (v : W32),
    (Reached s p 0x5C10 → regF s 0x5C0C 0 2 ≠ 3 →
      let tanh := regF s 0x5C0C 9 1 = 1
      let bank := regF s 0x5C0C 8 1
      let closed := (bank = b2n (if tanh then s.gate.bankTnh else s.gate.bankSig)) ∨
        (if tanh then s.gate.pendTnh else s.gate.pendSig) = true
      let key := regF s 0x5C0C 9 1 * 512 + bank * 256 + regF s 0x5C0C 2 6 * 4 + regF s 0x5C0C 0 2
      (closed → Answers (.gpTblDataAccess p (some v)) s fun t => t = { s with mb := ackedMb s p s.mb.rdata, ev := t.ev, cyc := t.cyc, pins := t.pins } ∧ Caused t 0x0D) ∧
      (¬ closed → Answers (.gpTblDataAccess p (some v)) s fun t =>
        t = { s with mb := ackedMb s p s.mb.rdata, gate := { s.gate with tbl := t.gate.tbl, badTbl := t.gate.badTbl }, regs := t.regs, cyc := t.cyc, pins := t.pins } ∧
        mget t.gate.tbl none key = some v ∧ (∀ k, k ≠ key → mget t.gate.tbl none k = mget s.gate.tbl none k) ∧
        regF t 0x5C0C 2 6 * 3 + regF t 0x5C0C 0 2 = (regF s 0x5C0C 2 6 * 3 + regF s 0x5C0C 0 2 + 1) % 192 ∧
        RegsKept s t [0x5C0C]) ∧
      (Answers (.gpTblDataAccess p none) s fun t =>
        t = { s with mb := ackedMb s p t.mb.rdata, regs := t.regs, cyc := t.cyc, pins := t.pins } ∧
        Reads s t p ((mget s.gate.tbl none key).getD
          (gateBuilt (regF s 0x5C0C 9 1 == 1) (regF s 0x5C0C 2 6) (regF s 0x5C0C 0 2))) ∧
        regF t 0x5C0C 2 6 * 3 + regF t 0x5C0C 0 2 = (regF s 0x5C0C 2 6 * 3 + regF s 0x5C0C 0 2 + 1) % 192 ∧
        RegsKept s t [0x5C0C])) ∧
    (Reached s p 0x5C10 → regF s 0x5C0C 0 2 = 3 →
      (Answers (.gpTblDataAccess p (some v)) s fun t => t = { s with mb := ackedMb s p s.mb.rdata, cyc := t.cyc, pins := t.pins }) ∧
      (Answers (.gpTblDataAccess p none) s fun t =>
        t = { s with mb := ackedMb s p t.mb.rdata, pins := t.pins } ∧ Reads s t p 0)) ∧
    (Reached s p 0x500C → regF s 0x5008 0 10 < 775 →
      let slot := regF s 0x5008 11 4
      let bank := regF s 0x5008 10 1
      let n := regF s 0x5008 0 10
      let closed := bank = b2n (s.sfu.bank.testBit slot) ∨ s.sfu.pend.testBit slot = true
      (closed → Answers (.sfuTblDataAccess p (some v)) s fun t => t = { s with mb := ackedMb s p s.mb.rdata, ev := t.ev, cyc := t.cyc, pins := t.pins } ∧ Caused t 0x0D) ∧
      (¬ closed → Answers (.sfuTblDataAccess p (some v)) s fun t =>
        t = { s with mb := ackedMb s p s.mb.rdata, sfu := { s.sfu with tbl := t.sfu.tbl, badTbl := t.sfu.badTbl }, regs := t.regs, cyc := t.cyc, pins := t.pins } ∧
        sfuStored t slot bank n = v ∧ regF t 0x5008 0 10 = (if n = 774 then 0 else n + 1) ∧ RegsKept s t [0x5008]) ∧
      (Answers (.sfuTblDataAccess p none) s fun t =>
        t = { s with mb := ackedMb s p t.mb.rdata, regs := t.regs, cyc := t.cyc, pins := t.pins } ∧
        Reads s t p (sfuStored s slot bank n) ∧ regF t 0x5008 0 10 = (if n = 774 then 0 else n + 1) ∧ RegsKept s t [0x5008])) ∧
    (Reached s p 0x500C → 775 ≤ regF s 0x5008 0 10 →
      (Answers (.sfuTblDataAccess p (some v)) s fun t => t = { s with mb := ackedMb s p s.mb.rdata, cyc := t.cyc, pins := t.pins }) ∧
      (Answers (.sfuTblDataAccess p none) s fun t =>
        t = { s with mb := ackedMb s p t.mb.rdata, pins := t.pins } ∧ Reads s t p 0))

/-- Derived from R131, R202 and R190: a switch request becomes pending and changes no active bank; arming an idle recipe entry
gives it START and LEN and puts it under check; retiring a VALID entry marks it, and an entry in use refuses an arm with
TABLE_BUSY. That a write with RETIRE ignores START and LEN, and raises no TABLE_BUSY for them, is the model's reading (log 23). -/
def Obligations.SwitchesAndRecipesWaitForABoundary : Prop :=
  ∀ (s : State) (p : Port) (v : W32),
    (Performed s p 0x5C14 →
      (Answers (.swapSig p) s fun t => t = { s with mb := ackedMb s p s.mb.rdata, gate := { s.gate with pendSig := true }, pins := t.pins }) ∧
      (Answers (.swapTanh p) s fun t => t = { s with mb := ackedMb s p s.mb.rdata, gate := { s.gate with pendTnh := true }, pins := t.pins })) ∧
    (Performed s p 0x5010 → Answers (.sfuSwap p v) s fun t =>
      t = { s with mb := ackedMb s p s.mb.rdata, sfu := { s.sfu with pend := t.sfu.pend }, pins := t.pins } ∧
      ∀ k, t.sfu.pend.testBit k = (s.sfu.pend.testBit k || (decide (k < 16) && v.getLsbD k))) ∧
    (Reached s p 0x4818 → bitB v 27 = true →
      let n := regF s 0x4814 0 6
      let e := mget s.vec.dir {} n
      let busy := e.valid = true ∨ e.pend = true ∨ e.checking = true
      (busy → Answers (.recipeArm p v) s fun t => t = { s with mb := ackedMb s p s.mb.rdata, ev := t.ev, cyc := t.cyc, pins := t.pins } ∧ Caused t 0x0D) ∧
      (¬ busy → Answers (.recipeArm p v) s fun t =>
        t = { s with mb := ackedMb s p s.mb.rdata, vec := { s.vec with dir := t.vec.dir, checking := s.vec.checking ++ [n], checkT := t.vec.checkT }
                     cyc := t.cyc, pins := t.pins } ∧
        mget t.vec.dir {} n = { start := fieldN v 0 9, len := fieldN v 9 10, checking := true } ∧
        ∀ k, k ≠ n → mget t.vec.dir {} k = mget s.vec.dir {} k)) ∧
    (Reached s p 0x4818 → bitB v 26 = true → bitB v 27 = false → (mget s.vec.dir {} (regF s 0x4814 0 6)).valid = true →
      Answers (.recipeRetire p v) s fun t =>
        t = { s with mb := ackedMb s p s.mb.rdata, vec := { s.vec with dir := t.vec.dir }, cyc := t.cyc, pins := t.pins } ∧
        let n := regF s 0x4814 0 6
        mget t.vec.dir {} n = { mget s.vec.dir {} n with retire := true } ∧
        ∀ k, k ≠ n → mget t.vec.dir {} k = mget s.vec.dir {} k)

/-- Derived from R121, R429, R432 and R433: a read of a lower half returns it and captures the upper half; the read of the upper half
of a log entry returns what was captured and marks that entry read, unless another has come into its place. A row's metadata is sound, as
it is unless a state built by hand says otherwise (log 8). -/
def Obligations.SplitReadsCaptureTheUpperHalf : Prop :=
  ∀ (s : State) (p : Port) (c : Nat),
    (Performed s p 0x4418 → mget s.acc.flips 0 (131072 + regF s 0x4414 0 10) = 0 → Answers (.accMetaLoRead p) s fun t =>
      let m := mget s.acc.md {} (regF s 0x4414 0 10)
      t = { s with mb := ackedMb s p t.mb.rdata, acc := { s.acc with hiCap := t.acc.hiCap }, pins := t.pins } ∧
      readReg t 0x441C = t.acc.hiCap ∧ t.acc.hiCap = word [(m.fmt, 5), (m.epoch, 1), (b2n m.stale, 0)] ∧
      Reads s t p (readReg s 0x4418)) ∧
    (Performed s p 0x820 → Answers (.evtLogLoRead p) s fun t =>
      let n := regF s 0x81C 0 6
      let e := mget s.ev.log {} n
      t = { s with mb := ackedMb s p t.mb.rdata, ev := { s.ev with hiCap := logHi e, hiSel := n, hiOk := true }, pins := t.pins } ∧
      Reads s t p e.time) ∧
    (Performed s p 0x824 → Answers (.evtLogHiRead p) s fun t =>
      t = { s with mb := ackedMb s p t.mb.rdata, ev := { s.ev with log := t.ev.log }, pins := t.pins } ∧
      Reads s t p s.ev.hiCap ∧
      (let e := mget s.ev.log {} s.ev.hiSel
       mget t.ev.log {} s.ev.hiSel = if s.ev.hiOk = true then { e with unread := false } else e) ∧
      ∀ n, n ≠ s.ev.hiSel → mget t.ev.log {} n = mget s.ev.log {} n) ∧
    (c < 7 → Performed s p (0xE000 + 8 * c) → s.perf.caps.length = 7 → Answers (.perfLoRead p c) s fun t =>
      let n := if c = 6 then s.perf.slots else lget s.perf.frz 0 c
      t = { s with mb := ackedMb s p t.mb.rdata, perf := { s.perf with caps := t.perf.caps }, pins := t.pins } ∧
      Reads s t p (BitVec.ofNat 32 n) ∧ lget t.perf.caps 0 c = n / 2 ^ 32 ∧
      ∀ d, d ≠ c → lget t.perf.caps 0 d = lget s.perf.caps 0 d)

/-- R428: an HCP write of 1 to a bit of EVT_PEND whose event has SECURE = 1 in its route has no effect, and a bit raised in the same
PCLK cycle stays set; every other bit written with 1 is cleared, and nothing else changes. -/
def Obligations.EventPendingBitsAreClearedByWritingOne : Prop :=
  ∀ (s : State) (p : Port) (k : Nat) (v : W32), k < 4 → Performed s p (0x800 + 4 * k) →
    Answers (.evtPendWrite p k v) s fun t =>
      t = { s with mb := ackedMb s p s.mb.rdata, ev := { s.ev with pend := t.ev.pend }, pins := t.pins } ∧
      ∀ c, c < 128 → (t.ev.pend.getLsbD c = true ↔ s.ev.pend.getLsbD c = true ∧
        ¬ (c / 32 = k ∧ v.getLsbD (c % 32) = true ∧ (p = .hcp → (routeOf s c).testBit 1 = false) ∧ mget s.ev.setAt 0 c < pclkOf s))

/-- Derived from R250, R267, R302 and R337: writes of the region table, of the cache size, of OVERCOMMIT and of the mode members are
performed only where nothing in use depends on them; else they change nothing but raise TABLE_BUSY, or SPAD_REGION_BAD for a table
that would not be sound. A cache size that changes makes every cache line invalid. -/
def Obligations.TablesInUseRefuseWrites : Prop :=
  ∀ (s : State) (p : Port) (n k : Nat) (v : W32),
    (n < 16 → Reached s p (0x6000 + 4 * n) →
      let w := v &&& 0xF87FFFFF
      let ok := regionsOk (cacheStart s) ((natsTo 16).map fun i => if i = n then w else regionReg s i)
      ((seqStopped s = false ∨ pagesDrawn s ≠ []) → Answers (.spadRegionWrite p n v) s fun t =>
        t = { s with mb := ackedMb s p s.mb.rdata, ev := t.ev, cyc := t.cyc, pins := t.pins } ∧ Caused t 0x0D) ∧
      (seqStopped s = true → pagesDrawn s = [] → ok = false → Answers (.spadRegionWrite p n v) s fun t =>
        t = { s with mb := ackedMb s p s.mb.rdata, ev := t.ev, cyc := t.cyc, pins := t.pins } ∧ Caused t 0x21) ∧
      (seqStopped s = true → pagesDrawn s = [] → ok = true → Answers (.spadRegionWrite p n v) s fun t =>
        t = { s with mb := ackedMb s p s.mb.rdata, regs := t.regs, cyc := t.cyc, pins := t.pins } ∧ readReg t (0x6000 + 4 * n) = w ∧ RegsKept s t [0x6000 + 4 * n])) ∧
    (hasCache s = true → Reached s p 0x6044 →
      let c := fieldN v 0 3
      let blocked := chanRunning s = true ∨ (c ≠ 0 ∧ cacheBlocked s (spadBytes s - c * 262144) = true)
      (4 < c → Answers (.spadCacheWrite p v) s fun t => t = { s with mb := ackedMb s p s.mb.rdata, cyc := t.cyc, pins := t.pins }) ∧
      (c ≤ 4 → blocked → Answers (.spadCacheWrite p v) s fun t => t = { s with mb := ackedMb s p s.mb.rdata, ev := t.ev, cyc := t.cyc, pins := t.pins } ∧ Caused t 0x0D) ∧
      (c ≤ 4 → ¬ blocked → c ≠ regF s 0x6044 0 3 → Answers (.spadCacheWrite p v) s fun t =>
        t = { s with mb := ackedMb s p s.mb.rdata, regs := t.regs, cyc := t.cyc, spad := t.spad, memp := { s.memp with out := t.memp.out }, pins := t.pins } ∧
        regF t 0x6044 0 3 = c ∧ t.spad.cache = [] ∧ RegsKept s t [0x6044] ∧
        ∀ a, a < min (spadBytes s - c * 262144) (cacheStart s) → spadByte t a = spadByte s a)) ∧
    (hasCache s = true → Performed s p 0x6064 → Answers (.cacheInv p) s fun t =>
      t = { s with mb := ackedMb s p s.mb.rdata, spad := { s.spad with cache := [] }, memp := { s.memp with out := t.memp.out }, pins := t.pins } ∧
      ∀ e ∈ t.memp.out, e.2.cache = true → e.2.noalloc = true) ∧
    (Reached s p 0x1C0 →
      let held := fieldN v 0 1 ≠ regF s 0x1C0 0 1 ∧ (s.rings.any fun e => e.2.en && e.2.pooled) = true
      (held → Answers (.overcommitWrite p v) s fun t => t = { s with mb := ackedMb s p s.mb.rdata, ev := t.ev, cyc := t.cyc, pins := t.pins } ∧ Caused t 0x0D) ∧
      (¬ held → Answers (.overcommitWrite p v) s fun t =>
        t = { s with mb := ackedMb s p s.mb.rdata, regs := t.regs, cyc := t.cyc, pins := t.pins } ∧ readReg t 0x1C0 = v &&& 0x000FFC01 ∧ RegsKept s t [0x1C0])) ∧
    (k < 6 → Reached s p (0x9010 + 4 * k) →
      (s.mode.lead ≠ 0 → Answers (.modeMembersWrite p k v) s fun t =>
        t = { s with mb := ackedMb s p s.mb.rdata, ev := t.ev, cyc := t.cyc, pins := t.pins } ∧ Caused t 0x0D) ∧
      (s.mode.lead = 0 → Answers (.modeMembersWrite p k v) s fun t =>
        t = { s with mb := ackedMb s p s.mb.rdata, regs := t.regs, cyc := t.cyc, pins := t.pins } ∧ readReg t (0x9010 + 4 * k) = v ∧ RegsKept s t [0x9010 + 4 * k]))

/-- Derived from R413, R414 and R415: a kick needs the key 0x5AC3 and a port that may kick, and restarts the count; any other write
to RST_WDOG_KICK raises PORT_DENIED and kicks nothing. The write that sets EN restarts the count; once EN is 1 it stays 1, and a
write that would change PERIOD raises TABLE_BUSY. RST_CTRL takes only time-outs of 1 to 1,000 µs.
That a write which leaves PERIOD as it is raises nothing (log 23), and that the debug port may not kick (log 107), are the model's readings. -/
def Obligations.WatchdogIsKickedOnlyByItsKey : Prop :=
  ∀ (s : State) (p : Port) (v : W32),
    (Performed s p 0x21C →
      let may := (p = .scp ∨ (p = .hcp ∧ regF s 0x218 1 1 = 1)) ∧ fieldN v 0 16 = 0x5AC3
      (may → Answers (.wdogKick p v) s fun t =>
        t = { s with mb := ackedMb s p s.mb.rdata, rst := { s.rst with wdog := 0, wdogWarned := false }, pins := t.pins }) ∧
      (¬ may → Answers (.wdogKick p v) s fun t => t = { s with mb := ackedMb s p s.mb.rdata, ev := t.ev, pins := t.pins } ∧ Caused t 0x6B)) ∧
    (Reached s p 0x218 →
      (regF s 0x218 0 1 = 0 → Answers (.wdogCtrlWrite p v) s fun t =>
        t = { s with mb := ackedMb s p s.mb.rdata, regs := t.regs, cyc := t.cyc, rst := t.rst, pins := t.pins } ∧ readReg t 0x218 = v &&& 0xFFFF0003 ∧
        RegsKept s t [0x218] ∧ (v.getLsbD 0 = true → t.rst.wdog = 0) ∧ (v.getLsbD 0 = false → t.rst = s.rst)) ∧
      (regF s 0x218 0 1 = 1 → Answers (.wdogCtrlWrite p v) s fun t =>
        t = { s with mb := ackedMb s p s.mb.rdata, regs := t.regs, cyc := t.cyc, ev := t.ev, pins := t.pins } ∧ regF t 0x218 0 1 = 1 ∧
        regF t 0x218 16 16 = regF s 0x218 16 16 ∧ regF t 0x218 1 1 = fieldN v 1 1 ∧ RegsKept s t [0x218] ∧
        (fieldN v 16 16 ≠ regF s 0x218 16 16 → Caused t 0x0D))) ∧
    (Reached s p 0x20C → Answers (.rstCtrlWrite p v) s fun t =>
      t = { s with mb := ackedMb s p s.mb.rdata, regs := t.regs, cyc := t.cyc, pins := t.pins } ∧ RegsKept s t [0x20C] ∧
      let n := fieldN v 0 10
      (1 ≤ n ∧ n ≤ 1000 → reg t 0x20C = BitVec.ofNat 32 n) ∧ (n = 0 ∨ 1000 < n → reg t 0x20C = reg s 0x20C))

/-- Derived from R285, R299, R390, R396, R402 and R437: the doorbell's addition holds at its top; REOPEN opens the port; a 0 in
CLK_CTRL.GATE wakes a gated tile; a dump's GO takes its words and starts one dump at a time; UNTRIM makes the set of its band not
valid and takes CAP away with the re-trim of that band; a change of the lifecycle inputs waits for the next PCLK cycle. -/
def Obligations.SmallRegisterOperations : Prop :=
  ∀ (s : State) (p : Port) (c lc : Nat) (v : W32),
    (c < 128 → Performed s p (chReg c 0x14) → Answers (.chBellAdd p c v) s fun t =>
      t = { s with mb := ackedMb s p s.mb.rdata, chans := t.chans, pins := t.pins } ∧ (chan t c).bell = min 0xFFFF ((chan s c).bell + fieldN v 0 16) ∧
      (∀ d, d ≠ c → chan t d = chan s d)) ∧
    (Performed s p 0x1D8 → Answers (.reopen p) s fun t => t = { s with mb := ackedMb s p s.mb.rdata, memp := { s.memp with closed := false }, pins := t.pins }) ∧
    (Reached s p 0x300 → Answers (.gateWrite p v) s fun t =>
      t = { s with mb := ackedMb s p s.mb.rdata, regs := t.regs, cyc := t.cyc, clk := t.clk, pins := t.pins } ∧ reg t 0x300 = v &&& 1 ∧ RegsKept s t [0x300] ∧
      (v.getLsbD 0 = false → s.clk.st = 1 → t.clk.st = 2) ∧ (v.getLsbD 0 = true ∨ s.clk.st ≠ 1 → t.clk = s.clk)) ∧
    (Reached s p 0x31C → bitB v 31 = true → Answers (.clkDumpGo p v) s fun t =>
      t = { s with mb := ackedMb s p s.mb.rdata, regs := t.regs, cyc := t.cyc, clk := t.clk, pins := t.pins } ∧ reg t 0x31C = v &&& 0x00FFFFE0 ∧ RegsKept s t [0x31C] ∧
      t.clk.dump.isSome = true ∧ (s.clk.dump.isSome = true → t.clk = s.clk)) ∧
    (∀ b, (b = 1 ∨ b = 2) → s.clk.trimmed.length = 3 → Performed s p 0x320 →
      Answers (if b = 2 then .untrimFull p else .untrimMed p) s fun t =>
        t = { s with mb := ackedMb s p s.mb.rdata, clk := t.clk, pins := t.pins } ∧ lget t.clk.trimmed true b = false ∧
        (∀ d, d ≠ b → lget t.clk.trimmed true d = lget s.clk.trimmed true d) ∧
        (s.clk.retrim = true → s.clk.retrimBand = b → t.clk.retrim = false ∧ t.clk.cap = false) ∧
        (¬ (s.clk.retrim = true ∧ s.clk.retrimBand = b) → t.clk.retrim = s.clk.retrim ∧ t.clk.cap = s.clk.cap)) ∧
    (Answers (.lifecycleChange lc) s fun t =>
      t = { s with pins := { t.pins with lifeIn := lc % 4, lifecycle := s.pins.lifecycle } })

-- Commands from a mailbox.

/-- Derived from R10, R363, R445, R447 and R450: the checks that come before a command's own. Before start-up has ended a command
completes with BUSY; one whose class its port may not issue completes with PORT_DENIED and raises PORT_DENIED; one that sets an
unassigned bit completes with BAD_ARG, unless its unit is absent (R9), and then with UNSUPPORTED. None changes anything else, but
for the last result that a STORE or a FETCH shows.
That the row of an opcode is the acceptance of the command that waits in a mailbox is the model's reading (log 21). -/
def Obligations.CommandChecksComeInOrder : Prop :=
  ∀ (s : State) (o : Origin) (m : Nat) (w : CmdWords) (e : Nat × (Origin → CmdWords → Instr)), e ∈ mailRows →
    mboxOf o = some m → taken o w s = some ({ o := o }, mboxTake s m) → fieldN w.w0 24 8 = e.1 →
    (s.boot.st < 6 → Answers (e.2 o w) s fun t =>
      t = { s with mb := t.mb, regs := t.regs, cyc := t.cyc, pins := t.pins } ∧ MbDone t m 1 ∧ RegsKept s t (mbRegs m)) ∧
    (6 ≤ s.boot.st → classOk s { o := o } e.1 = false → Answers (e.2 o w) s fun t =>
      t = { s with mb := t.mb, regs := t.regs, cyc := t.cyc, ev := t.ev, pins := t.pins } ∧ MbDone t m 5 ∧ RegsKept s t (mbRegs m) ∧
      Caused t 0x6B ∧ EvGrows s t) ∧
    (6 ≤ s.boot.st → classOk s { o := o } e.1 = true → argsClean w e.1 = false → Answers (e.2 o w) s fun t =>
      t = { s with mb := t.mb, regs := t.regs, cyc := t.cyc, store := { s.store with last := t.store.last }, pins := t.pins } ∧
      RegsKept s t (mbRegs m) ∧
      MbDone t m (if (e.1 = 0x42 ∧ hasAdapt s = false) ∨
        (e.1 = 0x60 ∧ levelOf s (resetSrc o) = 3 ∧ hasUnit s (fieldN w.w0 0 5) = false) then 3 else 2))

/-- Derived from R281 and R282: ARM starts an IDLE channel at its chain's first kibble, becomes pending at a RUNNING, WAIT or
STOPPING one, completes with BUSY at one in FAULT or HALTED, and where an arm is already pending also raises REARM_BUSY. BUSY while the memory port unit
is held in a single-unit reset is the model's choice (log 22), and that a chain started has CAUSE 0 (log 115). -/
def Obligations.ArmStartsOrWaits : Prop :=
  ∀ (s : State) (o : Origin) (m : Nat) (w : CmdWords), Waits s o m w 0x00 → argsClean w 0x00 = true →
    let k := fieldN w.w0 0 7
    let a : ArmReq := ⟨fieldN w.w1 5 27 * 32 + fieldN w.w2 0 16 * 4294967296, fieldN w.w2 16 4, fieldN w.w3 0 16⟩
    let h := chan s k
    ((h.st = 4 ∨ h.st = 5 ∨ unitHeld s 8 = true) → Answers (.arm o w) s fun t =>
      t = { s with mb := t.mb, regs := t.regs, cyc := t.cyc, pins := t.pins } ∧ MbDone t m 1 ∧ RegsKept s t (mbRegs m)) ∧
    (h.st = 0 → h.pend = none → unitHeld s 8 = false → Answers (.arm o w) s fun t =>
      t = { s with chans := t.chans, memp := { s.memp with armCount := s.memp.armCount + 1 }, mb := t.mb, regs := t.regs, cyc := t.cyc
                   pins := t.pins } ∧
      MbDone t m 0 ∧ RegsKept s t (mbRegs m) ∧ (∀ d, d ≠ k → chan t d = chan s d) ∧
      chan t k = { st := 1, src := a.src, posA := a.addr, posR := a.row0, bell := h.bell, ring := h.ring, op := h.op
                   armOrd := s.memp.armCount + 1, nextId := h.nextId + 1, halves := h.halves, fill := h.fill, begins := h.begins
                   unchecked := true
                   fetch := some ⟨a.addr, true, a.row0, false, false, h.nextId + 1⟩ }) ∧
    (h.st ≠ 0 → h.st ≠ 4 → h.st ≠ 5 → unitHeld s 8 = false → h.pend = none → Answers (.arm o w) s fun t =>
      t = { s with chans := t.chans, mb := t.mb, regs := t.regs, cyc := t.cyc, pins := t.pins } ∧ MbDone t m 0 ∧ RegsKept s t (mbRegs m) ∧
      (∀ d, d ≠ k → chan t d = chan s d) ∧ chan t k = { h with pend := some a }) ∧
    (h.st ≠ 4 → h.st ≠ 5 → unitHeld s 8 = false → h.pend.isSome = true → Answers (.arm o w) s fun t =>
      t = { s with ev := t.ev, mb := t.mb, regs := t.regs, cyc := t.cyc, pins := t.pins } ∧ MbDone t m 1 ∧ RegsKept s t (mbRegs m) ∧
      Caused t 0x2F ∧ EvGrows s t)

/-- Derived from R277, R280, R281, R282 and R287: STOP makes a RUNNING or WAIT channel STOPPING until its outstanding requests have their
responses, and HALTED with CAUSE 1 where it has none; at one in FAULT or HALTED it drops a pending arm. RESUME reads the kibble at the position
again, as ARM does where the arm's first kibble has not been checked (the model's reading, log 133). ABORT makes the channel IDLE at once where
nothing is outstanding, drops the pending arm and the half begun: PROD of the ring returns to the half's first row and the half's pages to the
pool, and the position to that row; at an IDLE channel it does nothing and completes. RESUME's BUSY for a unit held in reset is the model's choice
(log 22).
That CAUSE stays where nothing sets it is its reading (log 115). -/
def Obligations.ChannelsStopResumeAndAbort : Prop :=
  ∀ (s : State) (o : Origin) (m : Nat) (w : CmdWords),
    let k := fieldN w.w0 0 7
    let h := chan s k
    let still := (∀ rw ∈ h.rows, rowReady rw = false) ∧ h.stopCli = [] ∧ h.abortCli = []
    (Waits s o m w 0x01 → argsClean w 0x01 = true →
      (h.st ≠ 1 → h.st ≠ 2 → h.st ≠ 4 → h.st ≠ 5 → Answers (.chStop o w) s fun t =>
        t = { s with mb := t.mb, regs := t.regs, cyc := t.cyc, pins := t.pins } ∧ MbDone t m 0 ∧ RegsKept s t (mbRegs m)) ∧
      ((h.st = 4 ∨ h.st = 5) → Answers (.chStop o w) s fun t =>
        t = { s with chans := t.chans, mb := t.mb, regs := t.regs, cyc := t.cyc, pins := t.pins } ∧ MbDone t m 0 ∧ RegsKept s t (mbRegs m) ∧
        chan t k = { h with pend := none } ∧ ∀ d, d ≠ k → chan t d = chan s d) ∧
      ((h.st = 1 ∨ h.st = 2) → still → chanBusy s k = true → Answers (.chStop o w) s fun t =>
        t = { s with chans := t.chans, memp := { s.memp with cand := t.memp.cand, ready := t.memp.ready }, mb := t.mb
                     pins := t.pins } ∧
        MbBusy s t m ∧ (∀ d, d ≠ k → chan t d = chan s d) ∧ (chan t k).st = 3 ∧ (chan t k).pend = none ∧
        (chan t k).rows = h.rows ∧ (∀ x ∈ t.memp.cand ++ t.memp.ready, whoIsChan k x.who = false)) ∧
      ((h.st = 1 ∨ h.st = 2) → still → chanBusy s k = false → h.tail = none →
          (∀ x, curKib h = some x → flushDue s x = false) → h.stopTo = none → Answers (.chStop o w) s fun t =>
        t = { s with chans := t.chans, memp := { s.memp with cand := t.memp.cand, ready := t.memp.ready }, mb := t.mb
                     regs := t.regs, cyc := t.cyc, pins := t.pins } ∧
        MbDone t m 0 ∧ RegsKept s t (mbRegs m) ∧ (∀ d, d ≠ k → chan t d = chan s d) ∧
        (chan t k).st = 5 ∧ (chan t k).cause = 1 ∧ (chan t k).pend = none ∧
        ((chan t k).posA, (chan t k).posR) = chanWhere h ∧ (chan t k).rows = [] ∧ (chan t k).kibs = [])) ∧
    (Waits s o m w 0x02 → argsClean w 0x02 = true →
      (((h.st ≠ 4 ∧ h.st ≠ 5) ∨ s.memp.closed = true ∨ unitHeld s 8 = true) → Answers (.chResume o w) s fun t =>
        t = { s with mb := t.mb, regs := t.regs, cyc := t.cyc, pins := t.pins } ∧ MbDone t m 1 ∧ RegsKept s t (mbRegs m)) ∧
      ((h.st = 4 ∨ h.st = 5) → s.memp.closed = false → unitHeld s 8 = false → Answers (.chResume o w) s fun t =>
        t = { s with chans := t.chans, mb := t.mb, regs := t.regs, cyc := t.cyc, pins := t.pins } ∧ MbDone t m 0 ∧ RegsKept s t (mbRegs m) ∧
        (∀ d, d ≠ k → chan t d = chan s d) ∧
        chan t k = { h with st := 1, nextId := h.nextId + 1
                            fetch := some ⟨h.posA, h.unchecked, h.posR, !h.unchecked, false, h.nextId + 1⟩ })) ∧
    (Waits s o m w 0x03 → argsClean w 0x03 = true →
      let aborted (t : State) : Prop :=
        (∀ d, d ≠ k → chan t d = chan s d) ∧ (chan t k).pend = none ∧
        ((fillRing h = none ∨ ∃ n, fillRing h = some n ∧ ringTaken s k n = true) → h.begins = [] →
          t.rings = s.rings ∧ ((chan t k).posA, (chan t k).posR) = chanWhere h) ∧
        ∀ n, fillRing h = some n → ringTaken s k n = false → h.begins = [] →
          let r := ringOf s n
          let q := sub32 r.prod (r.prod % halfRows r)
          (∀ d, d ≠ n → ringOf t d = ringOf s d) ∧
          ringOf t n = { r with prod := q, beg := q, landed := [], pg0 := (ringOf t n).pg0, pg1 := (ringOf t n).pg1 } ∧
          (∀ i, i < 2 → halfPages (ringOf t n) i = if halfHeld (ringOf t n) i = true then halfPages r i else []) ∧
          ((chan t k).posA, (chan t k).posR) =
            match h.halves.find? (fun x => x.ring == n && x.q == q) with | some x => (x.addr, x.row) | none => chanWhere h
      (h.st = 0 → Answers (.chAbort o w) s fun t =>
        t = { s with mb := t.mb, regs := t.regs, cyc := t.cyc, pins := t.pins } ∧ MbDone t m 0 ∧ RegsKept s t (mbRegs m)) ∧
      (h.st ≠ 0 → still → chanBusy s k = true → Answers (.chAbort o w) s fun t =>
        t = { s with chans := t.chans, rings := t.rings, memp := { s.memp with cand := t.memp.cand, ready := t.memp.ready }
                     mb := t.mb, pins := t.pins } ∧
        MbBusy s t m ∧ aborted t ∧ (chan t k).st = h.st ∧ (chan t k).aborting = true) ∧
      (h.st ≠ 0 → still → chanBusy s k = false → Answers (.chAbort o w) s fun t =>
        t = { s with chans := t.chans, rings := t.rings, memp := { s.memp with cand := t.memp.cand, ready := t.memp.ready }
                     mb := t.mb, regs := t.regs, cyc := t.cyc, pins := t.pins } ∧
        MbDone t m 0 ∧ RegsKept s t (mbRegs m) ∧ aborted t ∧ (chan t k).st = 0 ∧
        (chan t k).rows = [] ∧ (chan t k).kibs = []))

/-- Derived from R32, R119, R254, R259 and R449: RING_SET, BIND and ZERO that pass their checks wait: the mailbox stays busy, the
entry keeps everything but what waits, and the rebind of a resident seam requests its eviction. BUSY for a unit held in a single-unit reset (log 22), BUSY to ZERO while a BIND
or ZERO of the seam waits (log 122) and the eviction asked when BIND is accepted (log 26) are the model's choices. -/
def Obligations.BoundaryCommandsWait : Prop :=
  ∀ (s : State) (o : Origin) (m : Nat) (w : CmdWords),
    (Waits s o m w 0x04 →
      let n := fieldN w.w0 0 6
      let busy := ringBusy s n = true ∨ (ringOf s n).pend.isSome = true ∨ unitHeld s 7 = true
      let r := ringOfWords w
      let excess := r.en = true ∧ r.pooled = true ∧
        (if regF s 0x1C0 0 1 = 1 then 4095 else poolPages s) < otherReserve s n + ringReserve r
      ((ringArgBad s w = true ∨ busy ∨ excess) → Answers (.ringSet o w) s fun t =>
        t = { s with mb := t.mb, regs := t.regs, cyc := t.cyc, pins := t.pins } ∧ RegsKept s t (mbRegs m) ∧
        (ringArgBad s w = true → MbDone t m 2) ∧ (ringArgBad s w = false → busy → MbDone t m 1) ∧
        (ringArgBad s w = false → ¬ busy → excess → MbDone t m 4)) ∧
      (ringArgBad s w = false → ¬ busy → ¬ excess → Answers (.ringSet o w) s fun t =>
        t = { s with rings := t.rings, mb := t.mb, pins := t.pins } ∧ MbBusy s t m ∧
        ringOf t n = { ringOf s n with pend := some (w, { o := o }) } ∧ ∀ d, d ≠ n → ringOf t d = ringOf s d)) ∧
    (Waits s o m w 0x10 →
      let k := fieldN w.w0 0 8
      let x := bindSeam w
      let old := seam s k
      let lacks := (x.deep ≠ 0 ∧ hasDeep s = false) ∨ (x.nelig ≠ 0 ∧ hasAdapt s = false)
      let busy := old.pend.isSome = true ∨ old.closePend.isSome = true ∨ old.st = 2 ∨ old.st = 3 ∨ unitHeld s 1 = true
      let excess := 256 < otherDeep s k + deepOf x
      ((bindArgBad s k w = true ∨ lacks ∨ busy ∨ excess) → Answers (.bind o w) s fun t =>
        t = { s with mb := t.mb, regs := t.regs, cyc := t.cyc, pins := t.pins } ∧ RegsKept s t (mbRegs m) ∧
        (bindArgBad s k w = true → MbDone t m 2) ∧ (bindArgBad s k w = false → lacks → MbDone t m 3) ∧
        (bindArgBad s k w = false → ¬ lacks → busy → MbDone t m 1) ∧
        (bindArgBad s k w = false → ¬ lacks → ¬ busy → excess → MbDone t m 4)) ∧
      (bindArgBad s k w = false → ¬ lacks → ¬ busy → ¬ excess → Answers (.bind o w) s fun t =>
        t = { s with seams := t.seams, acc := { s.acc with xfers := t.acc.xfers }, mb := t.mb, pins := t.pins } ∧ MbBusy s t m ∧
        seam t k = { old with pend := some ⟨true, w, { o := o }⟩
                              st := if old.st = 4 then 7 else if old.st = 5 then 6 else old.st } ∧
        (∀ d, d ≠ k → seam t d = seam s d) ∧
        t.acc.xfers = s.acc.xfers ++ (if old.st = 4 then [{ seam := k, reload := false }] else []))) ∧
    (Waits s o m w 0x13 →
      let k := fieldN w.w0 0 8
      let old := seam s k
      let busy := old.st = 2 ∨ old.st = 3 ∨ old.st = 5 ∨ old.st = 6 ∨ old.st = 7 ∨ (old.st = 1 ∧ (rowHolder s k).isSome = true)
        ∨ old.pend.isSome = true ∨ unitHeld s 1 = true
      ((seamArgBad s w = true ∨ busy) → Answers (.zero o w) s fun t =>
        t = { s with mb := t.mb, regs := t.regs, cyc := t.cyc, pins := t.pins } ∧ RegsKept s t (mbRegs m) ∧
        MbDone t m (if seamArgBad s w = true then 2 else 1)) ∧
      (seamArgBad s w = false → ¬ busy → Answers (.zero o w) s fun t =>
        t = { s with seams := t.seams, mb := t.mb, pins := t.pins } ∧ MbBusy s t m ∧
        seam t k = { old with pend := some ⟨false, w, { o := o }⟩ } ∧ ∀ d, d ≠ k → seam t d = seam s d))

/-- Derived from R114, R116 and R119: EVICT takes a RESIDENT seam to EVICTING and one in a chunk to EVICT_DEFERRED; RELOAD from HOME
waits for whoever holds the rows or starts, and reloads a poisoned or stale resident seam in place; ACCEPT clears STALE; CLOSE without a
transfer in progress unbinds the seam, with a started transfer waits for its last response, and in the commit window of a step of it waits
until the commit is made (R113); a BIND or ZERO that waits completes with BUSY. An unbound seam gives BAD_ARG, a transfer state BUSY. BUSY for
a unit held in a single-unit reset (log 22), RELOAD_WAIT behind a seam that is itself RELOADING and BUSY to a second CLOSE (log 122) are the
model's choices.
What poisons a seam is its reading (log 117). -/
def Obligations.SeamCommandsChangeTheState : Prop :=
  ∀ (s : State) (o : Origin) (m : Nat) (w : CmdWords),
    let k := fieldN w.w0 0 8
    let x := seam s k
    (∀ (i : Instr) (op : Nat), ((op = 0x11 ∧ i = .evict o w) ∨ (op = 0x12 ∧ i = .reload o w) ∨ (op = 0x14 ∧ i = .accept o w) ∨
        (op = 0x15 ∧ i = .seamClose o w)) → Waits s o m w op → seamArgBad s w = true → Answers i s fun t =>
      t = { s with mb := t.mb, regs := t.regs, cyc := t.cyc, pins := t.pins } ∧ RegsKept s t (mbRegs m) ∧ MbDone t m 2) ∧
    (Waits s o m w 0x11 → seamArgBad s w = false →
      ((x.st = 2 ∨ x.st = 3 ∨ unitHeld s 1 = true) → Answers (.evict o w) s fun t =>
        t = { s with mb := t.mb, regs := t.regs, cyc := t.cyc, pins := t.pins } ∧ RegsKept s t (mbRegs m) ∧ MbDone t m 1) ∧
      (x.st ≠ 2 → x.st ≠ 3 → unitHeld s 1 = false → Answers (.evict o w) s fun t =>
        t = { s with seams := t.seams, acc := { s.acc with xfers := t.acc.xfers }, mb := t.mb, regs := t.regs, cyc := t.cyc, pins := t.pins } ∧
        RegsKept s t (mbRegs m) ∧ MbDone t m 0 ∧ (∀ d, d ≠ k → seam t d = seam s d) ∧
        seam t k = { x with st := if x.st = 4 then 7 else if x.st = 5 then 6 else x.st } ∧
        t.acc.xfers = s.acc.xfers ++ (if x.st = 4 then [{ seam := k, reload := false }] else []))) ∧
    (Waits s o m w 0x12 → seamArgBad s w = false →
      ((x.st = 2 ∨ x.st = 3 ∨ x.st = 7 ∨ unitHeld s 1 = true) → Answers (.reload o w) s fun t =>
        t = { s with mb := t.mb, regs := t.regs, cyc := t.cyc, pins := t.pins } ∧ RegsKept s t (mbRegs m) ∧ MbDone t m 1) ∧
      (x.st ≠ 2 → x.st ≠ 3 → x.st ≠ 7 → unitHeld s 1 = false → Answers (.reload o w) s fun t =>
        t = { s with seams := t.seams, acc := { s.acc with xfers := t.acc.xfers, trigCount := t.acc.trigCount }, mb := t.mb
                     regs := t.regs, cyc := t.cyc, pins := t.pins } ∧ RegsKept s t (mbRegs m) ∧ MbDone t m 0 ∧
        ((x.st = 1 → rowHolder s k = none → (seam t k).st = 3 ∧ t.acc.xfers = s.acc.xfers ++ [{ seam := k, reload := true }] ∧
          ∀ d, d ≠ k → seam t d = seam s d) ∧
        (∀ h y, x.st = 1 → rowHolder s k = some (h, y) → y = seam s h → (seam t k).st = 2 ∧
          (y.st = 4 → (seam t h).st = 7 ∧ t.acc.xfers = s.acc.xfers ++ [{ seam := h, reload := false }]) ∧
          (y.st = 5 → (seam t h).st = 6) ∧ ∀ d, d ≠ k → d ≠ h → seam t d = seam s d) ∧
        (x.st = 4 → (seamPoisoned s k = true ∨ x.stale = true) → seam t k = { x with st := 3, flip := 0 } ∧
          t.acc.xfers = s.acc.xfers ++ [{ seam := k, reload := true }] ∧ ∀ d, d ≠ k → seam t d = seam s d) ∧
        ((x.st = 5 ∨ x.st = 6 ∨ (x.st = 4 ∧ seamPoisoned s k = false ∧ x.stale = false)) → t.acc = s.acc ∧ ∀ d, seam t d = seam s d)))) ∧
    (Waits s o m w 0x14 → seamArgBad s w = false → unitHeld s 1 = false → Answers (.accept o w) s fun t =>
      t = { s with seams := t.seams, mb := t.mb, regs := t.regs, cyc := t.cyc, pins := t.pins } ∧ RegsKept s t (mbRegs m) ∧ MbDone t m 0 ∧
      seam t k = { x with stale := false } ∧ ∀ d, d ≠ k → seam t d = seam s d) ∧
    (Waits s o m w 0x15 → seamArgBad s w = false → (unitHeld s 1 = true ∨ x.closePend.isSome = true) → Answers (.seamClose o w) s fun t =>
      t = { s with mb := t.mb, regs := t.regs, cyc := t.cyc, pins := t.pins } ∧ RegsKept s t (mbRegs m) ∧ MbDone t m 1) ∧
    (Waits s o m w 0x15 → seamArgBad s w = false → unitHeld s 1 = false → x.closePend = none →
      (∀ c, seamWindow s k = some c → Answers (.seamClose o w) s fun t =>
        t = { s with seams := t.seams, mb := t.mb, pins := t.pins } ∧ MbBusy s t m ∧
        seam t k = { x with closePend := some { o := o }, closeAt := c + 1 } ∧ ∀ d, d ≠ k → seam t d = seam s d) ∧
      (seamWindow s k = none → (∃ e ∈ s.acc.xfers, e.seam = k ∧ e.started = true) →
        (∀ e ∈ s.gate.steps, e.seam ≠ k) → (∀ e ∈ s.scan.chunks, e.seam ≠ k) → (∀ p, x.pend = some p → mboxOf p.cli.o ≠ some m) →
          Answers (.seamClose o w) s fun t =>
        MbBusy s t m ∧ seam t k = { x with pend := none, closing := true, closePend := some { o := o } } ∧
        (∀ d, d ≠ k → seam t d = seam s d) ∧ t.acc.xfers = s.acc.xfers ∧ t.acc.data = s.acc.data ∧ t.acc.md = s.acc.md ∧
        ∀ p n, x.pend = some p → mboxOf p.cli.o = some n → MbDone t n 1) ∧
      (seamWindow s k = none → (∀ e ∈ s.acc.xfers, ¬ (e.seam = k ∧ e.started = true)) → Answers (.seamClose o w) s fun t =>
        MbDone t m 0 ∧ seam t k = {} ∧ (∀ e ∈ t.acc.xfers, e.seam ≠ k) ∧ t.acc.data = s.acc.data ∧ t.acc.md = s.acc.md ∧
        t.spad = s.spad ∧ t.rings = s.rings ∧ t.arr = s.arr ∧ t.chans = s.chans))

/-- Derived from R232, R234 and R236: RUN of a VALID entry begins the check from IDLE; HALT asks for a halt of cause 6 and waits;
STOP lets no further bench start, and halts at once where none is in progress and no other cause has halted the sequencer first; RESUME runs
again from the replay point and ABORT drops it, both from HALTED only. BUSY while a unit of the slots is held in a single-unit reset (log 22)
and the loop frames and indices that ABORT clears (log 114) are the model's choices. -/
def Obligations.SequencerCommandsMoveTheState : Prop :=
  ∀ (s : State) (o : Origin) (m : Nat) (w : CmdWords),
    (Waits s o m w 0x20 → argsClean w 0x20 = true →
      let n := fieldN w.w0 0 4
      let valid := bitB (reg s (0x3080 + 4 * n)) 31
      ((valid = false ∨ s.seq.st ≠ 0 ∨ slotUnitHeld s = true) → Answers (.run o w) s fun t =>
        t = { s with mb := t.mb, regs := t.regs, cyc := t.cyc, pins := t.pins } ∧ RegsKept s t (mbRegs m) ∧
        MbDone t m (if valid = false then 2 else 1)) ∧
      (valid = true → s.seq.st = 0 → slotUnitHeld s = false → Answers (.run o w) s fun t =>
        t = { s with seq := { s.seq with st := 1, prog := n, runCli := some { o := o } }, mb := t.mb, pins := t.pins } ∧
        MbBusy s t m)) ∧
    (Waits s o m w 0x21 → argsClean w 0x21 = true →
      (seqActive s = false → Answers (.halt o w) s fun t =>
        t = { s with mb := t.mb, regs := t.regs, cyc := t.cyc, pins := t.pins } ∧ RegsKept s t (mbRegs m) ∧ MbDone t m 0) ∧
      (seqActive s = true → Answers (.halt o w) s fun t =>
        t = { s with seq := { s.seq with haltReq := t.seq.haltReq, haltCli := s.seq.haltCli ++ [{ o := o }] }, mb := t.mb
                     pins := t.pins } ∧
        MbBusy s t m ∧ t.seq.haltReq.isSome = true ∧
        (s.seq.haltReq = none → t.seq.haltReq.map (·.cause) = some 6) ∧
        (s.seq.haltReq.isSome = true → t.seq.haltReq = s.seq.haltReq))) ∧
    (Waits s o m w 0x22 → argsClean w 0x22 = true →
      (s.seq.st ≠ 2 → s.seq.st ≠ 3 → Answers (.benchStop o w) s fun t =>
        t = { s with mb := t.mb, regs := t.regs, cyc := t.cyc, pins := t.pins } ∧ RegsKept s t (mbRegs m) ∧ MbDone t m 0) ∧
      (s.seq.st = 3 → Answers (.benchStop o w) s fun t =>
        t = { s with seq := { s.seq with stopCli := s.seq.stopCli ++ [{ o := o }] }, mb := t.mb, pins := t.pins } ∧
        MbBusy s t m) ∧
      (s.seq.st = 2 → (s.seq.benches ≠ [] ∨ s.seq.haltReq.isSome = true) → Answers (.benchStop o w) s fun t =>
        t = { s with seq := { s.seq with st := 4, stopCli := s.seq.stopCli ++ [{ o := o }] }, mb := t.mb, pins := t.pins } ∧
        MbBusy s t m) ∧
      (s.seq.st = 2 → s.seq.benches = [] → s.seq.haltReq = none → Answers (.benchStop o w) s fun t =>
        t.seq.st = 5 ∧ t.seq.replay.isSome = true ∧ t.seq.staged = none ∧ MbDone t m 0 ∧ Caused t 2)) ∧
    (Waits s o m w 0x23 → argsClean w 0x23 = true →
      ((s.seq.st ≠ 5 ∨ slotUnitHeld s = true) → Answers (.benchResume o w) s fun t =>
        t = { s with mb := t.mb, regs := t.regs, cyc := t.cyc, pins := t.pins } ∧ RegsKept s t (mbRegs m) ∧ MbDone t m 1) ∧
      (s.seq.st = 5 → slotUnitHeld s = false → Answers (.benchResume o w) s fun t =>
        t = { s with seq := { s.seq with st := 2, replay := none, nextRead := s.clk.slot, started := false }, mb := t.mb
                     regs := t.regs, cyc := t.cyc, pins := t.pins } ∧ RegsKept s t (mbRegs m) ∧ MbDone t m 0)) ∧
    (Waits s o m w 0x24 → argsClean w 0x24 = true →
      (s.seq.st ≠ 5 → Answers (.benchAbort o w) s fun t =>
        t = { s with mb := t.mb, regs := t.regs, cyc := t.cyc, pins := t.pins } ∧ RegsKept s t (mbRegs m) ∧ MbDone t m 1) ∧
      (s.seq.st = 5 → Answers (.benchAbort o w) s fun t =>
        t = { s with seq := { s.seq with st := 0, replay := none, matchSkips := [], frames := [], idx := [0, 0, 0, 0] }
                     mb := t.mb, regs := t.regs, cyc := t.cyc, pins := t.pins } ∧ RegsKept s t (mbRegs m) ∧ MbDone t m 0))

/-- Derived from R374, R378, R379 and R399: a STORE that passes its checks takes its payload from the scratchpad, then finishes a clean-up that
a deletion left and begins phase 1 of a free frame; it completes with CHECK, and writes nothing, where a sector fails; a FETCH of a live key
finishes that clean-up and begins its reads. Below WARN a STORE completes with ABORTED_LOW_SUPPLY, one without room with LIMIT, a FETCH of no
live key with NOT_FOUND. That the payload is read and verified at acceptance (log 80) and that FETCH answers BUSY before NOT_FOUND (log 130) are
the model's readings.
So is the SEQ of a new frame (log 81). -/
def Obligations.StoreAndFetchBegin : Prop :=
  ∀ (s : State) (o : Origin) (m : Nat) (w : CmdWords),
    (Waits s o m w 0x30 →
      let len := fieldN w.w2 0 13
      let full := freeFrames s = [] ∨ ((liveFrame s w.w1.toNat).isSome = false ∧ (freeFrames s).length < 2)
      ((storeArgBad s w = true ∨ storeBusy s = true ∨ full ∨ s.sup.st ≠ 0) → Answers (.store o w) s fun t =>
        t = { s with mb := t.mb, regs := t.regs, cyc := t.cyc, store := { s.store with last := t.store.last }, pins := t.pins } ∧
        RegsKept s t (mbRegs m) ∧ (storeArgBad s w = true → MbDone t m 2 ∧ t.store.last = 6) ∧
        (storeArgBad s w = false → storeBusy s = true → MbDone t m 1 ∧ t.store.last = s.store.last) ∧
        (storeArgBad s w = false → storeBusy s = false → full → MbDone t m 4 ∧ t.store.last = 7) ∧
        (storeArgBad s w = false → storeBusy s = false → ¬ full → MbDone t m 8 ∧ t.store.last = 2)) ∧
      (storeArgBad s w = false → storeBusy s = false → ¬ full → s.sup.st = 0 →
        let r := storeRead (storeOff w) ((len + 31) / 32) (mboxTake s m)
        let u := finishClean r.2
        (r.2.store = s.store ∧ u = { r.2 with store := u.store } ∧ u.store.clean = [] ∧ u.store.job = none ∧
          (∀ f ∈ s.store.clean, fField u f 0 8 = 0) ∧ (s.store.clean = [] → s.store.job = none → u = r.2)) ∧
        (r.1 = none → Answers (.store o w) s fun t =>
          MbDone t m 10 ∧ t.store = { s.store with last := 4 } ∧ RegsKept r.2 t (mbRegs m) ∧
          t = { r.2 with mb := t.mb, regs := t.regs, cyc := t.cyc, store := t.store, pins := t.pins }) ∧
        (∀ bs f, r.1 = some bs → targetFrame u none = some f → Answers (.store o w) s fun t =>
          MbBusy r.2 t m ∧
          t = { r.2 with pins := t.pins, store := { u.store with
            job := some { fetch := false, key := w.w1, len := len, off := storeOff w, payload := bs.take len, frame := f, phase := 1
                          tries := 0, prev := newest u w.w1.toNat, cli := { o := o }, t0 := sclkOf s } } }))) ∧
    (Waits s o m w 0x31 →
      let f := liveFrame s w.w1.toNat
      let len := (f.map (fLen s)).getD 0
      let bad := argsClean w 0x31 = false ∨ fieldN w.w1 24 8 = 0 ∨ storeRangeBad s w len = true
      ((bad ∨ storeBusy s = true ∨ f = none) → Answers (.fetch o w) s fun t =>
        t = { s with mb := t.mb, regs := t.regs, cyc := t.cyc, store := { s.store with last := t.store.last }, pins := t.pins } ∧
        RegsKept s t (mbRegs m) ∧ (bad → MbDone t m 2) ∧ (¬ bad → storeBusy s = true → MbDone t m 1) ∧
        (¬ bad → storeBusy s = false → MbDone t m 11 ∧ t.store.last = 5)) ∧
      (∀ n, f = some n → ¬ bad → storeBusy s = false → Answers (.fetch o w) s fun t =>
        let u := finishClean s
        MbBusy s t m ∧
        t = { s with mb := t.mb, pins := t.pins, store := { u.store with
          job := some { fetch := true, key := w.w1, len := len, off := storeOff w, payload := fPayload u n, frame := n, phase := 1
                        tries := 0, prev := none, cli := { o := o }, t0 := sclkOf s } } }))

/-- Derived from R268 and R270: OPEN gives a CLOSED entry its fields, an export keeping its GEN and an import taking the command's;
CLOSE of an import takes effect at once, keeps its STALE (R271), and of an export waits; an entry that is not CLOSED gives BUSY to OPEN, and one that is
gives BAD_ARG to CLOSE. BUSY for a unit held in a single-unit reset (log 22) and one GEN for an export and an import (log 86) are the model's
choices. -/
def Obligations.WindowCommandsOpenAndClose : Prop :=
  ∀ (s : State) (o : Origin) (m : Nat) (w : CmdWords),
    let n := fieldN w.w0 0 4
    let x := mget s.wins {} n
    let busy := x.mode ≠ 0 ∨ unitHeld s 7 = true
    (Waits s o m w 0x50 → argsClean w 0x50 = true →
      let land := bitB w.w3 15
      let y : Win := { mode := 1, rd := bitB w.w0 4, wr := bitB w.w0 5, land := land, gen := x.gen, peer := fieldN w.w3 0 8
                       lring := if land then fieldN w.w3 8 6 else 0, base := if land then 0 else fieldN w.w1 0 11
                       size := zeroIs 2048 (fieldN w.w2 0 12), stale := x.stale, fin := x.fin }
      ((exportBad s n y = true ∨ busy) → Answers (.openExport o w) s fun t =>
        t = { s with mb := t.mb, regs := t.regs, cyc := t.cyc, pins := t.pins } ∧ RegsKept s t (mbRegs m) ∧
        MbDone t m (if exportBad s n y = true then 2 else 1)) ∧
      (exportBad s n y = false → ¬ busy → Answers (.openExport o w) s fun t =>
        t = { s with wins := t.wins, mb := t.mb, regs := t.regs, cyc := t.cyc, pins := t.pins } ∧ RegsKept s t (mbRegs m) ∧ MbDone t m 0 ∧
        mget t.wins {} n = y ∧ ∀ d, d ≠ n → mget t.wins {} d = mget s.wins {} d)) ∧
    (Waits s o m w 0x51 → argsClean w 0x51 = true →
      ((191 < fieldN w.w1 0 8 ∨ busy) → Answers (.openImport o w) s fun t =>
        t = { s with mb := t.mb, regs := t.regs, cyc := t.cyc, pins := t.pins } ∧ RegsKept s t (mbRegs m) ∧
        MbDone t m (if 191 < fieldN w.w1 0 8 then 2 else 1)) ∧
      (fieldN w.w1 0 8 ≤ 191 → ¬ busy → Answers (.openImport o w) s fun t =>
        t = { s with wins := t.wins, mb := t.mb, regs := t.regs, cyc := t.cyc, pins := t.pins } ∧ RegsKept s t (mbRegs m) ∧ MbDone t m 0 ∧
        mget t.wins {} n = { mode := 2, rd := bitB w.w0 4, wr := bitB w.w0 5, gen := fieldN w.w1 16 8, peer := fieldN w.w1 0 8
                             pwin := fieldN w.w1 8 4, size := zeroIs 2048 (fieldN w.w2 0 12), fin := x.fin } ∧
        ∀ d, d ≠ n → mget t.wins {} d = mget s.wins {} d)) ∧
    (Waits s o m w 0x52 → argsClean w 0x52 = true →
      ((x.mode = 0 ∨ x.closing.isSome = true ∨ unitHeld s 7 = true) → Answers (.windowClose o w) s fun t =>
        t = { s with mb := t.mb, regs := t.regs, cyc := t.cyc, pins := t.pins } ∧ RegsKept s t (mbRegs m) ∧
        MbDone t m (if x.mode = 0 then 2 else 1)) ∧
      (x.mode = 2 → x.closing = none → unitHeld s 7 = false → Answers (.windowClose o w) s fun t =>
        t = { s with wins := t.wins, mb := t.mb, regs := t.regs, cyc := t.cyc, pins := t.pins } ∧ RegsKept s t (mbRegs m) ∧ MbDone t m 0 ∧
        mget t.wins {} n = { gen := x.gen, drops := x.drops, stale := x.stale, fin := x.fin } ∧
        ∀ d, d ≠ n → mget t.wins {} d = mget s.wins {} d) ∧
      (x.mode ≠ 0 → x.mode ≠ 2 → x.closing = none → unitHeld s 7 = false → Answers (.windowClose o w) s fun t =>
        t = { s with wins := t.wins, mb := t.mb, pins := t.pins } ∧ MbBusy s t m ∧
        mget t.wins {} n = { x with closing := some { o := o } } ∧ ∀ d, d ≠ n → mget t.wins {} d = mget s.wins {} d))

/-- Derived from R326, R327, R345 and R451: MODE_CHANGE begins a barrier over its members; RESURVEY begins the tree again; a
REDUCE_ROUND makes an IDLE member group RUNNING in its next round; a remote command leaves as a CMD request under the lowest free
tag, or to all as a broadcast that waits at its first hop until its head leaves; the root with no tree link completes it at once and
performs it as its own peer. A barrier whose only member is the leader runs to its end at once, and one that the leader itself refuses is
aborted. BUSY for a unit held in a single-unit reset (log 22), LINK_DOWN at a duplicate tile (log 14) and the broadcast that completes when its
head leaves (log 127) are the model's choices.
That the leader's own ACK and DONE count at once is its reading (log 66). -/
def Obligations.FabricCommandsBegin : Prop :=
  ∀ (s : State) (o : Origin) (m : Nat) (w : CmdWords),
    (Waits s o m w 0x40 → argsClean w 0x40 = true →
      let x : ModeWord := ⟨fieldN w.w0 0 2, fieldN w.w1 0 8, fieldN w.w2 0 16, bitB w.w0 2⟩
      let l := modeMembers s
      let bad := x.rnd = 3 ∨ (∃ t ∈ l, routeFor s t = 7) ∨ l = [] ∨ tileId s ≠ leaderId s
      let lacks := x.applyRed = true ∧ hasAdapt s = false
      let busy := barrierOn s = true ∨ s.fab.st ≠ 4 ∨ unitHeld s 9 = true
      ((bad ∨ lacks ∨ busy) → Answers (.modeChange o w) s fun t =>
        t = { s with mb := t.mb, regs := t.regs, cyc := t.cyc, pins := t.pins } ∧ RegsKept s t (mbRegs m) ∧ (bad → MbDone t m 2) ∧
        (¬ bad → lacks → MbDone t m 3) ∧ (¬ bad → ¬ lacks → MbDone t m 1)) ∧
      (¬ bad → ¬ lacks → ¬ busy → (∃ t ∈ l, t ≠ tileId s) → (tileId s ∈ l → redRefuses s x = false) →
        Answers (.modeChange o w) s fun t =>
          t = { s with mode := t.mode, fab := { s.fab with ports := t.fab.ports }, regs := t.regs, cyc := t.cyc, mb := t.mb, pins := t.pins } ∧
          MbBusy s t m ∧ RegsKept s t [0x9030, 0x9034, 0x9038, 0x903C, 0x9040, 0x9044] ∧
          t.mode.lead = 1 ∧ t.mode.members = l ∧ t.mode.mode = x ∧ t.mode.leadE = (s.mode.epoch + 1) % 256 ∧
          t.mode.t0 = mclkOf s ∧ t.mode.cli = some { o := o } ∧ t.mode.rnd = s.mode.rnd ∧ t.mode.epoch = s.mode.epoch ∧
          (tileId s ∈ l → t.mode.prepared = some x) ∧ (tileId s ∉ l → t.mode.prepared = none)) ∧
      (¬ bad → ¬ lacks → ¬ busy → tileId s ∈ l → redRefuses s x = true → Answers (.modeChange o w) s fun t =>
        MbDone t m 6 ∧ Caused t 0x46 ∧ regF t 0x900C 26 3 = 2 ∧ t.mode.lead = 0 ∧ t.mode.rnd = s.mode.rnd ∧ t.mode.epoch = s.mode.epoch ∧
        t.mode.prepared = none ∧ t.red = s.red) ∧
      (¬ bad → ¬ lacks → ¬ busy → l = [tileId s] → redRefuses s x = false → applyNow s = true → Answers (.modeChange o w) s fun t =>
        MbDone t m 0 ∧ Caused t 0x45 ∧ regF t 0x900C 26 3 = 1 ∧ t.mode.lead = 0 ∧ t.mode.rnd = x.rnd ∧ t.mode.pepoch = x.pepoch ∧
        t.mode.user = x.user ∧ t.mode.epoch = (s.mode.epoch + 1) % 256 ∧ t.mode.joined = true ∧ t.mode.prepared = none) ∧
      (¬ bad → ¬ lacks → ¬ busy → l = [tileId s] → redRefuses s x = false → applyNow s = false → Answers (.modeChange o w) s fun t =>
        MbBusy s t m ∧ t.mode.lead = 2 ∧ t.mode.prepared = some x ∧ t.mode.committed = true ∧ t.mode.rnd = s.mode.rnd ∧
        t.mode.epoch = s.mode.epoch ∧ t.red = s.red)) ∧
    (Waits s o m w 0x41 → argsClean w 0x41 = true →
      let busy := barrierOn s = true ∨ s.fab.resurveyCli.isSome = true ∨ unitHeld s 9 = true
      ((busy ∨ s.fab.st = 5) → Answers (.resurvey o w) s fun t =>
        t = { s with mb := t.mb, regs := t.regs, cyc := t.cyc, pins := t.pins } ∧ RegsKept s t (mbRegs m) ∧ (busy → MbDone t m 1) ∧
        (¬ busy → MbDone t m 0)) ∧
      (¬ busy → s.fab.st ≠ 5 → Answers (.resurvey o w) s fun t =>
        t = { s with fab := t.fab, mb := t.mb, pins := t.pins } ∧ MbBusy s t m ∧ t.fab.resurveyCli = some { o := o } ∧
        t.fab.route = s.fab.route ∧ (s.fab.st ≠ 0 → t.fab.st = 1))) ∧
    (Waits s o m w 0x42 → hasAdapt s = false → Answers (.reduceRound o w) s fun t =>
      t = { s with mb := t.mb, regs := t.regs, cyc := t.cyc, pins := t.pins } ∧ RegsKept s t (mbRegs m) ∧ MbDone t m 3) ∧
    (Waits s o m w 0x42 → hasAdapt s = true → argsClean w 0x42 = true →
      let k := fieldN w.w0 0 1
      let busy := (grp s k).st ≠ 0 ∨ s.mode.prepared.isSome = true ∨ gRole (grp s k) ≠ 1 ∨ unitHeld s 16 = true
      (busy → Answers (.reduceRound o w) s fun t =>
        t = { s with mb := t.mb, regs := t.regs, cyc := t.cyc, pins := t.pins } ∧ RegsKept s t (mbRegs m) ∧ MbDone t m 1) ∧
      (¬ busy → s.red.length = 2 → Answers (.reduceRound o w) s fun t =>
        t = { s with red := t.red, mb := t.mb, regs := t.regs, cyc := t.cyc, pins := t.pins } ∧ RegsKept s t (mbRegs m) ∧ MbDone t m 0 ∧
        (grp t k).st = 1 ∧ (grp t k).round = ((grp s k).round + 1) % 65536 ∧ (grp t k).formed = 0 ∧
        (grp t k).live = (grp s k).live ∧ (grp t k).sumTok = (grp s k).sumTok ∧ grp t (1 - k) = grp s (1 - k))) ∧
    (accepts s = true → mboxDue s 1 = true → s.mb.nextT ≤ pclkOf s → mboxRemote s 1 = true → mboxWords s 1 = w →
      let dst := regF s 0x13C 0 8
      (s.boot.st < 6 → Answers (.remoteCommand w) s fun t =>
        t = { s with mb := t.mb, regs := t.regs, cyc := t.cyc, pins := t.pins } ∧ RegsKept s t (mbRegs 1) ∧ MbDone t 1 1) ∧
      (6 ≤ s.boot.st → dst = 255 → (s.fab.st = 4 ∨ s.fab.st = 5) → s.fab.parent = 7 → s.fab.kids = [] →
        s.fab.dup = false → s.mb.peerQ.length < 8 → Answers (.remoteCommand w) s fun t =>
          t = { s with mb := t.mb, regs := t.regs, cyc := t.cyc, pins := t.pins } ∧ RegsKept s t (mbRegs 1) ∧ MbDone t 1 0 ∧
          ∃ p, t.mb.peerQ = s.mb.peerQ ++ [p] ∧ p.src = tileId s % 256 ∧ p.bcast = true ∧ p.w = w) ∧
      (6 ≤ s.boot.st →
        ((dst = 255 ∧ (s.fab.st = 4 ∨ s.fab.st = 5) ∧ (s.fab.dup = true ∨ (s.fab.parent ≠ 7 ∧ portUp s s.fab.parent = false))) ∨ (dst ≠ 255 ∧ s.fab.st = 4 ∧ (routeFor s dst = 7 ∨
          s.fab.dup = true ∨ (routeFor s dst ≠ 6 ∧ (portOf s (routeFor s dst)).st ≠ 3)))) → Answers (.remoteCommand w) s fun t =>
        t = { s with ev := t.ev, mb := t.mb, regs := t.regs, cyc := t.cyc, pins := t.pins } ∧ RegsKept s t (mbRegs 1) ∧ Caused t 0x44 ∧
        MbDone t 1 (if dst ≠ 255 ∧ routeFor s dst = 7 then 12 else 13)) ∧
      (6 ≤ s.boot.st → dst = 255 → (s.fab.st = 4 ∨ s.fab.st = 5) → s.fab.dup = false → s.fab.parent < s.fab.ports.length →
        portUp s s.fab.parent = true → s.fab.parent ≠ 7 → Answers (.remoteCommand w) s fun t =>
          t = { s with fab := { s.fab with ports := t.fab.ports }, mb := t.mb, pins := t.pins } ∧ MbBusy s t 1 ∧
          (∀ n, n ≠ s.fab.parent → portOf t n = portOf s n) ∧
          ∃ f, (portOf t s.fab.parent).outVc0 = (portOf s s.fab.parent).outVc0 ++ [(7, f)] ∧ f.data.extractLsb' 128 32 = w.w0) ∧
      (∀ g, 6 ≤ s.boot.st → dst ≠ 255 → s.fab.st = 4 → routeFor s dst < 6 → s.fab.dup = false →
        (portOf s (routeFor s dst)).st = 3 → freeTag s = some g → Answers (.remoteCommand w) s fun t =>
          t = { s with fab := { s.fab with reqs := t.fab.reqs, ports := t.fab.ports }, mb := t.mb, pins := t.pins } ∧
          MbBusy s t 1 ∧ (mget t.fab.reqs {} g).act = true ∧ (mget t.fab.reqs {} g).isCmd = true ∧
          (mget t.fab.reqs {} g).cli = some { o := .scp } ∧ (mget t.fab.reqs {} g).t0 = mclkOf s ∧
          (∀ d, d ≠ g → mget t.fab.reqs {} d = mget s.fab.reqs {} d)))

/-- Derived from R404, R408, R409, R410 and R463: RESET asks for a reset of the level of its source, which with nothing in progress is accepted
and waits: at L0 to L2 as the request of the sequence, at L3 as the handshake of the named unit; DBG_PEEK
returns a word of the scratchpad or an entry of the accumulator memory, corrected where that is possible and else as stored with CHECK,
and changes nothing else; a word outside the code's guarantee does one of the three (R457), by a free value; DBG_POKE replaces one word of a
sector and writes the sector with a fresh check, from IDLE or HALTED only. BUSY for a held unit (log 22), BAD_ARG for the cache area
(log 82) and the copy that a peek of a seam's row reads, a free value (log 83), are the model's choices.
That a request which another one displaces completes with BUSY is its reading (log 77). -/
def Obligations.ResetAndDebugCommands : Prop :=
  ∀ (s : State) (o : Origin) (m : Nat) (w : CmdWords),
    (Waits s o m w 0x60 → argsClean w 0x60 = true → s.rst.req = none → s.rst.act = none → s.rst.unit = none →
      let src := resetSrc o
      let u := fieldN w.w0 0 5
      let lvl := levelOf s src
      (lvl ≠ 3 → Answers (.reset o w) s fun t =>
        t.rst = { s.rst with req := some (lvl, src), t := sclkOf s, reqCli := some { o := o } } ∧ JobEnds s t ∧
        (s.store.job = none → t = { s with rst := t.rst, mb := t.mb, pins := t.pins } ∧ MbBusy s t m)) ∧
      (lvl = 3 → 16 < u → Answers (.reset o w) s fun t =>
        t = { s with mb := t.mb, regs := t.regs, cyc := t.cyc, pins := t.pins } ∧ RegsKept s t (mbRegs m) ∧ MbDone t m 2) ∧
      (lvl = 3 → u ≤ 16 → hasUnit s u = true → Answers (.reset o w) s fun t =>
        t = { s with rst := { s.rst with unit := some { unit := u, phase := 0, src := src, cli := some { o := o }, since := sclkOf s + 1 } }, mb := t.mb, pins := t.pins } ∧
        MbBusy s t m)) ∧
    (Waits s o m w 0x70 → argsClean w 0x70 = true → fieldN w.w0 0 1 = 0 →
      let off := fieldN w.w1 2 20 * 4
      (spadFits s off 4 = false → Answers (.dbgPeek o w) s fun t =>
        t = { s with mb := t.mb, regs := t.regs, cyc := t.cyc, pins := t.pins } ∧ RegsKept s t (mbRegs m) ∧ MbDone t m 2) ∧
      let kind := eccKind (wordClass s (off / 8)) (popcount (flipsOf s (off / 8)))
      (spadFits s off 4 = true → unitHeld s 7 = true → Answers (.dbgPeek o w) s fun t =>
        t = { s with mb := t.mb, regs := t.regs, cyc := t.cyc, pins := t.pins } ∧ RegsKept s t (mbRegs m) ∧ MbDone t m 1) ∧
      (spadFits s off 4 = true → unitHeld s 7 = false → kind ≤ 2 → Answers (.dbgPeek o w) s fun t =>
        t = { s with mb := t.mb, regs := t.regs, cyc := t.cyc, pins := t.pins } ∧ RegsKept s t (mbRegs m) ∧
        MbDone t m (if kind = 2 then 10 else 0) ∧
        (kind ≤ 1 → ∀ i, i < 4 → fieldN (reg t (mboxBase m + 0x18)) (8 * i) 8 = (spadByte s (off + i)).toNat) ∧
        (kind = 2 → ∀ i, i < 4 → fieldN (reg t (mboxBase m + 0x18)) (8 * i) 8 =
          (spadByte s (off + i) ^^^ (flipsOf s (off / 8)).extractLsb' (8 * (off % 8 + i)) 8).toNat)) ∧
      (spadFits s off 4 = true → unitHeld s 7 = false → kind = 3 → Answers (.dbgPeek o w) s fun t =>
        let f := if Config.freeEcc s.free % 3 = 1 then flipsOf s (off / 8) ^^^ Config.freeFlip s.free else flipsOf s (off / 8)
        t = { s with mb := t.mb, regs := t.regs, cyc := t.cyc, free := s.free + 1, pins := t.pins } ∧ RegsKept s t (mbRegs m) ∧
        MbDone t m (if Config.freeEcc s.free % 3 = 2 then 10 else 0) ∧
        ∀ i, i < 4 → fieldN (reg t (mboxBase m + 0x18)) (8 * i) 8 =
          (spadByte s (off + i) ^^^ f.extractLsb' (8 * (off % 8 + i)) 8).toNat)) ∧
    (Waits s o m w 0x70 → argsClean w 0x70 = true → fieldN w.w0 0 1 = 1 →
      let p := pickCopy s (fieldN w.w1 7 10)
      let j := fieldN w.w1 0 7
      (unitHeld s 1 = true → Answers (.dbgPeek o w) s fun t =>
        t = { s with mb := t.mb, regs := t.regs, cyc := t.cyc, pins := t.pins } ∧ RegsKept s t (mbRegs m) ∧ MbDone t m 1) ∧
      (unitHeld s 1 = false → Answers (.dbgPeek o w) s fun t =>
        t = { s with mb := t.mb, regs := t.regs, cyc := t.cyc, free := p.2.free, pins := t.pins } ∧ RegsKept s t (mbRegs m) ∧
        MbDone t m (if popcount (mget s.acc.flips 0 (p.1 * 128 + j)) ≤ 1 then 0 else 10) ∧
        reg t (mboxBase m + 0x18) = (if popcount (mget s.acc.flips 0 (p.1 * 128 + j)) ≤ 1 then accEntry s p.1 j
          else accEntry s p.1 j ^^^ mget s.acc.flips 0 (p.1 * 128 + j)))) ∧
    (Waits s o m w 0x71 → argsClean w 0x71 = true →
      let off := fieldN w.w1 2 20 * 4
      let bad := fieldN w.w0 0 1 = 1 ∨ spadFits s off 4 = false
      ((bad ∨ seqStopped s = false ∨ unitHeld s 7 = true) → Answers (.dbgPoke o w) s fun t =>
        t = { s with mb := t.mb, regs := t.regs, cyc := t.cyc, pins := t.pins } ∧ RegsKept s t (mbRegs m) ∧ (bad → MbDone t m 2) ∧
        (¬ bad → MbDone t m 1)) ∧
      (¬ bad → seqStopped s = true → unitHeld s 7 = false → Answers (.dbgPoke o w) s fun t =>
        MbDone t m 0 ∧ (∀ i, i < 4 → spadByte t (off + i) = BitVec.ofNat 8 (fieldN w.w2 (8 * i) 8)) ∧
        (sideOf t (off / 32)).poison = false ∧ (sideOf t (off / 32)).uninit = false ∧
        (∀ a, a / 32 ≠ off / 32 → spadByte t a = spadByte s a) ∧ t.acc = s.acc ∧ t.seams = s.seams ∧ t.rings = s.rings))

-- Resets and start-up.

/-- R405: each source's 2-bit field of RST_LEVEL_MAP gives its level; POR is L0 whatever the map holds, and SUPPLY is L0 or L1,
where 2 and 3 give L1. -/
def Obligations.ASourceResetsAtItsFusedLevel : Prop :=
  ∀ s : State, (∀ f : Fuse, levelOf { s with fuse := f } 0 = 0) ∧
    (∀ k, 1 ≤ k → k ≤ 6 → k ≠ 4 → levelOf s k = fieldN (readReg s 0x204) (2 * k) 2) ∧
    (fieldN (readReg s 0x204) 8 2 = 0 → levelOf s 4 = 0) ∧ (fieldN (readReg s 0x204) 8 2 ≠ 0 → levelOf s 4 = 1)

/-- Derived from R89, R238, R272, R333, R361, R362, R380, R407, R408, R409, R413 and R414: por_n sampled low resets the tile at once at L0
with source POR, whatever reset is in progress, and keeps only the settings store and time; por_n sampled high begins the hold. A request for
L0, L1 or L2 is asserted two SCLK cycles after it was accepted, but a STORE in phase 5 defers it; RST_CAUSE then names level and source and
every unit is reset, and at L2 memories and tables keep their contents. Sixteen cycles later it is released: the watchdog's count restarts,
the straps are sampled at L0, start-up goes on with step 4 after L1, and a command that asked for L2 completes. Memories whose contents the
manual leaves open after L0 and L1 read 0 (log 6), the pins take the DUR levels of the map that was read last (log 12), and the count of denials
is cleared at L0 (log 79): these are the model's choices.
The statuses of what an L2 reset ends (log 78), LINK_RESET before an L0 reset (log 87) and
RST_UNIT_STATUS after L0 (log 131) are its readings. -/
def Obligations.ResetsClearTheTileAndRelease : Prop :=
  (∀ s : State,
    (s.rst.por = false → Answers .porAssert s fun t =>
      t.rst.act = some (0, 0) ∧ t.rst.por = true ∧ t.rst.req = none ∧ t.rst.unit = none ∧ t.rst.t = sclkOf s ∧ t.rst.wdog = 0 ∧
      reg t 0x200 = 0 ∧ reg t 0x214 = 0 ∧ t.fuse = { outs := s.fuse.outs } ∧ t.sup = {} ∧ t.ev = { routes := defaultRoutes } ∧ t.perf = {} ∧ t.mb = {} ∧
      t.seq = { nextUid := s.seq.nextUid } ∧ t.gen = [] ∧ t.arr = {} ∧ t.acc = {} ∧ t.seams = [] ∧ t.gate = {} ∧ t.scan = {} ∧
      t.vec = {} ∧ t.sfu = {} ∧ t.spad = {} ∧ t.rings = [] ∧ t.wins = [] ∧ t.chans = [] ∧ t.memp.gen = 0 ∧ t.memp.out = [] ∧
      t.memp.closed = false ∧ t.mode = {} ∧ t.red = [{}, {}] ∧ t.boot = {} ∧ t.denied = 0 ∧ t.clk.t = s.clk.t ∧
      t.pins.lifecycle = s.pins.lifecycle ∧ 
      t.pins.irqHost = bitB s.fuse.outs 1 ∧ t.pins.irqSecure = bitB s.fuse.outs 3 ∧ t.pins.irqFatal = bitB s.fuse.outs 5 ∧
      t.pins.evtPulse = bitB s.fuse.outs 7 ∧ t.straps = s.straps ∧
      (∀ p ∈ t.fab.ports, p.st = 0 ∨ p.st = 1) ∧ t.fab.reqs = [] ∧ t.fab.idValid = false ∧
      (s.store.job = none → t.store.data = s.store.data) ∧
      (∀ o v, (o, v) ∈ regResets → reg t o = v)) ∧
    (s.rst.por = true → Answers .porDeassert s fun t =>
      t = { s with rst := { s.rst with por := false, t := sclkOf s }, pins := t.pins })) ∧
  ∀ (s : State) (l k : Nat),
    (s.rst.req = some (l, k) → l < 3 → k < 7 → s.rst.t + 2 ≤ sclkOf s → s.rst.after + 2 ≤ sclkOf s →
      (resetDeferred s = true → Answers .resetAssert s fun t => t = { s with pins := t.pins }) ∧
      (resetDeferred s = false → Answers .resetAssert s fun t =>
        t.rst.act = some (l, k) ∧ t.rst.req = none ∧ t.rst.unit = none ∧ t.rst.t = sclkOf s ∧ regF t 0x200 9 2 = l ∧
        regF t 0x200 6 3 = k ∧ t.seq.st = 0 ∧ t.seq.benches = [] ∧ t.seq.frozen = false ∧ t.arr.waves = [] ∧ t.acc.wq = [] ∧
        t.gate.steps = [] ∧ t.scan.chunks = [] ∧ t.vec.run = none ∧ t.sfu.reqs = [] ∧ t.memp.out = [] ∧ t.spad.cache = [] ∧
        t.memp.closed = false ∧ t.store.job = none ∧ (l < 2 → t.seams = [] ∧ t.rings = [] ∧ t.spad = {} ∧ t.mb = {}) ∧
        (l = 2 → t.spad.data = s.spad.data ∧ t.spad.side = s.spad.side ∧ t.acc.data = s.acc.data ∧ t.seq.pram = s.seq.pram ∧
          t.vec.recipe = s.vec.recipe ∧ t.sfu.tbl = s.sfu.tbl ∧ t.gate.tbl = s.gate.tbl ∧
          (∀ n, (seam t n).st ≠ 0 → (seam t n).stale = true) ∧ ∀ n, (mget t.wins {} n).mode = 0))) ∧
    (∀ img slot, s.rst.act = some (l, k) → s.rst.req = none → s.rst.por = false → s.rst.t + 16 ≤ sclkOf s →
      Answers (.resetRelease img slot) s fun t =>
        t.rst.act = none ∧ t.rst.wdog = 0 ∧ t.rst.wdogStop = (s.rst.wdogStop && s.rst.wdogWait) ∧ (l ≠ 0 → t.straps = s.straps) ∧
        (l = 0 → t = { s with rst := t.rst, straps := (img % 2 ^ 36, slot % 256), boot := { s.boot with t0 := sclkOf s }
                              fab := { s.fab with ports := t.fab.ports }, pins := t.pins } ∧
          ∀ n, n < s.fab.ports.length → portOf t n = { portOf s n with tx := restTx s n, txCr := 0 }) ∧
        (l = 1 → t.boot.st = 3 ∧ t.boot.stage = 1 ∧
          t = { s with rst := t.rst, boot := t.boot, memp := { s.memp with cand := t.memp.cand }, pins := t.pins }) ∧
        (∀ o m, l = 2 → s.rst.actCli = some { o := o } → mboxOf o = some m → MbDone t m 0 ∧ RegsKept s t (mbRegs m) ∧
          t.boot = { s.boot with t0 := sclkOf s }))

/-- Derived from R305, R406, R410 and R411: a unit is reset in the SCLK cycle after it raised IDLE_ACK; one that has raised none by the timer is
reset by force, which is counted and raised; four SCLK cycles later the unit is released and the command completes, and a watchdog's request
that waited begins. -/
def Obligations.SingleUnitResetsRunTheHandshake : Prop :=
  ∀ (s : State) (u : UnitRst), s.rst.unit = some u →
    (u.phase = 1 →
      (∀ c, u.ack = some c → c < sclkOf s → s.seq.haltReq = none → Answers .unitIdleAck s fun t =>
        t.rst.unit = some { u with phase := 2, since := sclkOf s } ∧ t.rst.act = s.rst.act ∧
        (u.unit = 0 → t.acc = s.acc ∧ t.spad = s.spad ∧ (∀ i, (mget t.arr.planes {} i).stale = true) ∧
          (mwf {} s.arr.planes = true → ∀ i, (mget t.arr.planes {} i).data = (mget s.arr.planes {} i).data)) ∧
        (u.unit = 6 → t.seq.st = 0 ∧ t.seq.pram = s.seq.pram ∧ t.spad = s.spad ∧ t.acc = s.acc) ∧
        (u.unit = 7 → t.spad.data = s.spad.data ∧ t.acc = s.acc ∧ ∀ n, (mget t.wins {} n).mode = 0) ∧
        (u.unit = 8 → t.memp.out = [] ∧ t.memp.gen = (s.memp.gen + 1) % 16 ∧ t.spad.data = s.spad.data) ∧
        ((10 ≤ u.unit ∧ u.unit < 16) → t = { s with rst := t.rst, pins := t.pins })) ∧
      (u.since + idleTo s ≤ sclkOf s → u.ack.isSome = true → Answers .unitIdleTimeout s fun t => t = { s with pins := t.pins }) ∧
      (u.since + idleTo s ≤ sclkOf s → u.ack = none → Answers .unitIdleTimeout s fun t =>
        t.rst.unit = some { u with phase := 2, since := sclkOf s } ∧ bitB (reg t 0x200) 11 = true ∧
        regF t 0x214 16 16 = min 0xFFFF (regF s 0x214 16 16 + 1) ∧ Caused t 0x69)) ∧
    (u.phase = 2 → u.since + 4 ≤ sclkOf s → Answers .unitResetRelease s fun t =>
      t.rst.lastUnit = u.unit ∧ t.rst.wdog = 0 ∧ t.rst.wdogStop = (s.rst.wdogStop && s.rst.wdogWait) ∧
      (s.rst.wdogWait = false → t.rst.unit = none) ∧
      (s.rst.wdogWait = true → t.rst.wdogWait = false ∧ t.rst.unit = some { unit := 6, phase := 0, src := 3, cli := none, since := sclkOf s + 1 }) ∧
      (∀ o m, u.cli = some { o := o } → mboxOf o = some m → MbDone t m 0) ∧
      (∀ n, n < 6 → u.unit = 10 + n → s.fab.ports.length = 6 → (portOf s n).st = 3 → (portOf t n).resync = true) ∧
      t.spad = s.spad ∧ t.acc = s.acc ∧ t.seams = s.seams ∧ t.rings = s.rings)

/-- Derived from R405, R409 and R413: at half its period the watchdog raises WDOG_WARN once, and at its period it stops counting and
asks for a reset with source WDOG: of its level, or at L3 of the bench sequencer, which waits while another unit is in reset, is
dropped where SECURE asks for one in the same SCLK cycle, and stands against HOST, LINK and DEBUG.
How requests of one cycle are settled is the model's reading of R409 (log 130). -/
def Obligations.TheWatchdogWarnsAndExpires : Prop :=
  ∀ s : State, dogOn s = true →
    (s.rst.wdogWarned = false → dogPeriod s / 2 ≤ s.rst.wdog → Answers .wdogWarn s fun t =>
      t = { s with rst := { s.rst with wdogWarned := true }, ev := t.ev, pins := t.pins } ∧ Caused t 0x6A ∧ EvGrows s t) ∧
    (dogPeriod s ≤ s.rst.wdog → s.rst.req = none → s.rst.act = none → Answers .wdogExpire s fun t =>
      t.rst.wdogStop = true ∧
      (levelOf s 3 ≠ 3 → s.rst.unit = none →
        t.rst = { s.rst with wdogStop := true, req := some (levelOf s 3, 3), t := sclkOf s, reqCli := none } ∧ JobEnds s t ∧
        (s.store.job = none → t = { s with rst := t.rst, pins := t.pins })) ∧
      (∀ u, levelOf s 3 ≠ 3 → s.rst.unit = some u →
        t.rst.req = some (levelOf s 3, 3) ∧ t.rst.unit = none ∧ t.rst.lastUnit = u.unit ∧ t.rst.t = sclkOf s) ∧
      (levelOf s 3 = 3 → s.rst.unit = none →
        t = { s with rst := { s.rst with wdogStop := true, unit := some { unit := 6, phase := 0, src := 3, cli := none, since := sclkOf s + 1 } }
                     pins := t.pins }) ∧
      (∀ u, levelOf s 3 = 3 → s.rst.unit = some u →
        ((u.phase ≠ 0 ∨ u.since ≠ sclkOf s + 1) →
          t = { s with rst := { s.rst with wdogStop := true, wdogWait := true }, pins := t.pins }) ∧
        (u.phase = 0 → u.since = sclkOf s + 1 → u.src = 2 →
          t = { s with rst := { s.rst with wdogStop := true }, regs := t.regs, cyc := t.cyc, pins := t.pins } ∧
          regF t 0x214 0 16 = min 0xFFFF (regF s 0x214 0 16 + 1)) ∧
        (u.phase = 0 → u.since = sclkOf s + 1 → (u.src = 1 ∨ u.src = 5 ∨ u.src = 6) →
          t.rst.unit = some { unit := 6, phase := 0, src := 3, cli := none, since := sclkOf s + 1 } ∧
          regF t 0x214 0 16 = min 0xFFFF (regF s 0x214 0 16 + 1))))

/-- Derived from R362, R443 and R444: after 1,024 SCLK cycles of step 1 the fuse map is checked: CHECK is 0x5A5A XOR the CRC-16 of its other 126 bytes, and
every reserved bit is 0, which a blank map is not. A map that passes is applied, which makes each port of the tile DOWN and every other ABSENT (R308), and start-up
goes on; one that fails stops start-up with cause 11 and none of its fields is applied, irq_fatal alone is driven high, every line of the
links is low, and no event is raised.
That nothing is raised (log 105), that the pins keep the levels of the map read last (log 12) and that the fuse bits come as one event (log 129) are
the model's choices. -/
def Obligations.TheFuseMapIsCheckedBeforeItIsApplied : Prop :=
  ∀ (s : State) (map : BitVec 1024), s.boot.st = 0 → accessHeld s = false → s.boot.t0 + 1024 ≤ sclkOf s →
    let ok := BitVec.ofNat 16 (fieldN map 1008 16) = 0x5A5A#16 ^^^ crc16 ((natsTo 126).map fun k => BitVec.ofNat 8 (fieldN map (8 * k) 8))
      ∧ fieldN map 46 2 = 0 ∧ fieldN map 62 2 = 0 ∧ fieldN map 105 13 = 0
    (map = 0 → ¬ ok) ∧
    (ok → Answers (.fuseReadDone map) s fun t =>
      t = { s with fuse := t.fuse, boot := { s.boot with st := 1, t0 := sclkOf s }, fab := { s.fab with ports := t.fab.ports }
                   pins := t.pins } ∧
      (∀ n, n < 6 → (portOf t n).st = if bitB (caps t) (22 + n) = true then 1 else 0) ∧
      readReg t 0x4014 = BitVec.ofNat 32 (fieldN map 0 32) ∧
      readReg t 0x204 = BitVec.ofNat 32 (fieldN map 34 12 * 4) ∧ readReg t 0x208 = BitVec.ofNat 32 (fieldN map 48 14) ∧
      readReg t 0x384 = BitVec.ofNat 32 (fieldN map 64 24) ∧ readReg t 0x388 = BitVec.ofNat 32 (fieldN map 88 16) ∧
      (t.fuse.dbgDis = true ↔ map.getLsbD 104 = true) ∧ caps t = capsOf s.variant &&& ~~~(BitVec.ofNat 32 (fieldN map 118 10 * 2 ^ 22))) ∧
    (¬ ok → Answers (.fuseReadDone map) s fun t =>
      t = { s with boot := { s.boot with st := 7, cause := 11, fuseFail := true }, fab := { s.fab with ports := t.fab.ports }
                   pins := t.pins } ∧ (∀ p ∈ t.fab.ports, p.tx = .low ∧ p.txCr = 0) ∧ t.pins.irqFatal = true ∧
      t.pins.irqHost = false ∧ t.pins.irqSecure = false ∧ t.pins.evtPulse = false)

/-- Derived from R190, R361, R364, R368, R369, R371, R377 and R392: the later steps of start-up. The light trim makes the light set valid and begins
the survey; the check pass goes on or fails with its cause and BOOT_FAIL; the scan builds the index and begins the load pass; the load
pass fails with the cause and section of the first fault it met, or with APPLY where a command of the image was refused, or ends in DONE with
BOOT_DONE where the header keeps out the overlay and RUN 0. That a start-up that fails leaves the sequencer IDLE (log 127) and the order in
which faults are found (log 98) are the model's choices.
So are which completions of a command fail start-up (log 90) and that what came before a fault stays (log 91). -/
def Obligations.StartUpGoesStepByStep : Prop :=
  ∀ s : State, accessHeld s = false →
    (∀ codes, s.boot.st = 1 → s.sup.firstOk = true → s.boot.t0 + 12900 ≤ sclkOf s → s.clk.trimmed.length = 3 →
      Answers (.lightTrimDone codes) s fun t =>
        t = { s with clk := { s.clk with trims := t.clk.trims, trimmed := t.clk.trimmed }, fab := t.fab
                     boot := { s.boot with st := 2 }, pins := t.pins } ∧
        lget t.clk.trimmed false 0 = true ∧ lget t.clk.trimmed false 1 = lget s.clk.trimmed false 1 ∧
        (∀ i, i < 16 → mget t.clk.trims 0 i = (lget codes 0 i &&& 0x00003F3F) |||
          BitVec.ofNat 32 (lget s.clk.lightSv s.sup.level i % 256 * 65536)) ∧ (∀ i, 16 ≤ i → mget t.clk.trims 0 i = mget s.clk.trims 0 i) ∧
        (s.straps.2 < 192 → t.fab.st = 0) ∧ (192 ≤ s.straps.2 → t.fab.st = 5)) ∧
    (s.boot.st = 3 → passOver s = true →
      (checkFault s = none → Answers .imageCheckDone s fun t =>
        t.boot.st = 4 ∧ t.boot.t0 = sclkOf s ∧ t = { s with boot := t.boot, regs := t.regs, cyc := t.cyc, pins := t.pins } ∧
        RegsKept s t [0x404, 0x408]) ∧
      (∀ c x, checkFault s = some (c, x) → Answers .imageCheckDone s fun t =>
        t.boot.st = 7 ∧ t.boot.cause = c ∧ t.boot.sect = x ∧ Caused t 0x61 ∧ (c = 6 → Caused t 0x62) ∧
        (∀ n, n < 16 → bitB (reg t (0x3080 + 4 * n)) 31 = false) ∧ (∀ n, (mget t.vec.dir {} n).valid = false) ∧ t.spad = s.spad ∧
        t.acc = { s.acc with wq := t.acc.wq } ∧ t.seq.st = 0)) ∧
    (s.boot.st = 4 → s.boot.t0 + scanLen s ≤ sclkOf s → Answers .overlayScanDone s fun t =>
      t.boot.st = 5 ∧ t.store.indexed = true ∧ t.store.data = s.store.data ∧ t.spad = s.spad ∧
      t.store.bad = ((natsTo (storeFrames s)).filter fun f => fCommitted s f && !fCrcOk s f).length ∧
      (s.boot.fromL1 = true → t.clk = s.clk)) ∧
    (s.boot.st = 5 → s.boot.recipeWait = false → passOver s = true →
      (∀ c x, s.boot.loadBad = some (c, x) → Answers .loadPassDone s fun t =>
        t.boot.st = 7 ∧ t.boot.cause = c ∧ t.boot.sect = x ∧ Caused t 0x61) ∧
      (s.boot.loadBad = none → s.boot.refused = true → Answers .loadPassDone s fun t => t.boot.st = 7 ∧ t.boot.cause = 9 ∧ Caused t 0x61) ∧
      (s.boot.loadBad = none → s.boot.refused = false → s.boot.fail7 = true → Answers .loadPassDone s fun t =>
        t.boot.st = 7 ∧ t.boot.cause = 7 ∧ Caused t 0x61) ∧
      (s.boot.loadBad = none → s.boot.refused = false → s.boot.fail7 = false → s.vec.checking = [] → (hdrWord s 0x14).testBit 0 = true →
        (hdrWord s 0x14).testBit 1 = true → Answers .loadPassDone s fun t => t.boot.st = 6 ∧ Caused t 0x60 ∧ t.spad = s.spad))

/-- Derived from R190, R223 and R236: a program that passes its check runs from its START and the RUN completes with OKAY, one that
fails leaves the sequencer IDLE, raises BENCH_BAD and completes with BAD_ARG; a recipe that passes becomes PEND, one that fails is
marked ERR and raises RECIPE_BAD. A word that failed its parity asks for a halt of the program that begins to run (R423, log 132), and the first
word is read in the slot in which the check ends (log 63): these are the model's choices.
So is when a check ends (log 97). -/
def Obligations.ProgramsAndRecipesAreChecked : Prop :=
  ∀ (s : State) (o : Origin) (m : Nat), mboxOf o = some m →
    (s.seq.st = 1 → s.seq.runCli = some { o := o } → s.boot.run0 = false →
      let a := regF s (0x3080 + 4 * s.seq.prog) 0 14
      let good := checkProg s 16385 a [] false
      (good = true → Answers .runCheckDone s fun t =>
        t.seq.st = 2 ∧ t.seq.pc = a ∧ t.seq.bep = 0 ∧ t.seq.frames = [] ∧ t.seq.idx = [0, 0, 0, 0] ∧ t.seq.nextRead = s.clk.slot ∧
        MbDone t m 0 ∧ t.spad = s.spad ∧ t.acc = s.acc ∧ t.seq.pram = s.seq.pram ∧
        (s.seq.badPram = [] → t.ev = s.ev ∧ t.seq.haltReq = s.seq.haltReq)) ∧
      (good = false → Answers .runCheckDone s fun t =>
        t.seq.st = 0 ∧ Caused t 0x03 ∧ MbDone t m 2 ∧ t.spad = s.spad ∧ t.acc = s.acc ∧ t.seq.pram = s.seq.pram)) ∧
    (∀ n l, s.vec.checking = n :: l → s.vec.checkT + (mget s.vec.dir {} n).len ≤ pclkOf s → s.boot.recipeWait = false →
      let e := mget s.vec.dir {} n
      let failed := (natsFrom e.start (min e.len (512 - e.start))).filter fun k => s.vec.badRcp.contains k
      (checkRecipe s e = none → Answers .recipeCheckDone s fun t =>
        t = { s with vec := { s.vec with checking := l, checkT := pclkOf s, dir := t.vec.dir }, seq := { s.seq with haltReq := t.seq.haltReq }
                     ev := t.ev, regs := t.regs, cyc := t.cyc, pins := t.pins } ∧ RegsKept s t [0xE040] ∧
        (failed = [] → t.ev = s.ev ∧ t.seq.haltReq = s.seq.haltReq) ∧ (failed ≠ [] → Caused t 0x11) ∧
        mget t.vec.dir {} n = { e with checking := false, pend := true } ∧ ∀ k, k ≠ n → mget t.vec.dir {} k = mget s.vec.dir {} k) ∧
      (∀ y x, checkRecipe s e = some (y, x) → Answers .recipeCheckDone s fun t =>
        t = { s with vec := { s.vec with checking := l, checkT := pclkOf s, dir := t.vec.dir }, seq := { s.seq with haltReq := t.seq.haltReq }
                     ev := t.ev, regs := t.regs, cyc := t.cyc, pins := t.pins } ∧
        mget t.vec.dir {} n = { e with checking := false, err := true } ∧ Caused t 0x0C ∧ RegsKept s t [0x481C, 0xE040] ∧
        (∀ k, k ≠ n → mget t.vec.dir {} k = mget s.vec.dir {} k) ∧
        (bitB (reg s 0x481C) 31 = false → n < 64 → y < 16 → regF t 0x481C 31 1 = 1 ∧ regF t 0x481C 20 6 = n ∧
          regF t 0x481C 16 4 = y ∧ regF t 0x481C 0 9 = x % 512)))

-- Clocks, supply, the settings store and the event log.

/-- Derived from R380, R390, R394, R397, R398, R401, R403 and R409: the supply guard. A sample is taken over with its counts; FILT samples
below WARN take it from OK to LOW, raise SUPPLY_WARN, are counted and abandon a re-trim; a good sample begins RECOVER, a worse one goes
back without an event; DWELL good ones end in OK, with SUPPLY_OK and its count but the first time, from which step 2 of start-up goes on;
FILT samples below RESET ask for a reset with source SUPPLY. That a trip begins the count of bad samples anew (log 25) and that DWELL 0 counts as
1 (log 100) are the model's choices.
That samples count from the map on (log 29) is its reading. -/
def Obligations.TheSupplyGuardFollowsItsSamples : Prop :=
  ∀ s : State, s.rst.act = none →
    (∀ lv, s.sup.sampleT ≤ sclkOf s → Answers (.svLevelSample lv) s fun t =>
      t = { s with sup := { s.sup with level := lv % 256, min := min s.sup.min (lv % 256), sampleT := sclkOf s + 1, nWarn := t.sup.nWarn
                                       nReset := t.sup.nReset, dwell := t.sup.dwell }, pins := t.pins } ∧
      (s.boot.st ≠ 0 → t.sup.nWarn = (if lv % 256 < fieldN s.fuse.thresh 8 8 then min 8 (s.sup.nWarn + 1) else 0) ∧
        t.sup.nReset = (if lv % 256 < fieldN s.fuse.thresh 0 8 then min 8 (s.sup.nReset + 1) else 0))) ∧
    (s.sup.st = 0 → svFilt s ≤ s.sup.nWarn → Answers .guardEnterLow s fun t => t.sup.st = 1 ∧ Caused t 0x67 ∧ JobEnds s t) ∧
    (s.sup.st = 0 → svFilt s ≤ s.sup.nWarn → s.store.job = none → Answers .guardEnterLow s fun t =>
      t = { s with sup := { s.sup with st := 1, dwell := 0 }, ev := t.ev, regs := t.regs, cyc := t.cyc, clk := t.clk, pins := t.pins } ∧
      Caused t 0x67 ∧ RegsKept s t [0x390] ∧ regF t 0x390 16 16 = min 0xFFFF (regF s 0x390 16 16 + 1) ∧
      regF t 0x390 0 16 = regF s 0x390 0 16 ∧ t.clk.retrim = false ∧ t.clk.cap = s.clk.cap ∧
      t.clk.st = (if s.clk.st = 1 then 2 else s.clk.st)) ∧
    (s.sup.st = 1 → s.boot.st ≠ 0 → svGood s ≤ s.sup.level → Answers .guardEnterRecover s fun t =>
      t = { s with sup := { s.sup with st := 2, dwell := 1 }, pins := t.pins }) ∧
    (s.sup.st = 2 → s.sup.level < svGood s → Answers .guardDwellLost s fun t =>
      t = { s with sup := { s.sup with st := 1, dwell := 0 }, pins := t.pins }) ∧
    (s.sup.st = 2 → svGood s ≤ s.sup.level → max 1 (svDwell s) ≤ s.sup.dwell → s.clk.cap = false → Answers .guardEnterOk s fun t =>
      t = { s with sup := { s.sup with st := 0, dwell := 0, nWarn := 0, firstOk := true }, boot := t.boot, ev := t.ev
                   regs := t.regs, cyc := t.cyc, pins := t.pins } ∧
      t.boot = { s.boot with t0 := if s.sup.firstOk = false ∧ s.boot.st < 2 then sclkOf s else s.boot.t0 } ∧
      (s.sup.firstOk = false → t.ev = s.ev ∧ t.regs = s.regs) ∧
      (s.sup.firstOk = true → Caused t 0x68 ∧ regF t 0x390 0 16 = min 0xFFFF (regF s 0x390 0 16 + 1) ∧ RegsKept s t [0x390])) ∧
    (svFilt s ≤ s.sup.nReset → s.rst.req = none → s.rst.unit = none → Answers .supplyResetTrip s fun t =>
      t.rst = { s.rst with req := some (levelOf s 4, 4), t := sclkOf s, reqCli := none } ∧ JobEnds s t ∧ t.sup = { s.sup with nReset := 0 } ∧
      (s.store.job = none → t = { s with sup := t.sup, rst := t.rst, pins := t.pins }))

/-- Derived from R386, R389, R390, R391, R392, R393, R394 and R396: the clock unit. A window sets its band and percentage, a medium or full load
sustained in a band without a set puts CAP in force, and the last sensor's code makes the set valid and lifts it; a sensor's droop is kept
until it ends; the tile enters GATED, wakes and is ACTIVE again; a dump writes the set of its band.
That CAP goes in force whatever the guard says (log 99), and that IDLE is looked at on SCLK edges (log 130), are the model's readings. -/
def Obligations.TheClockUnitFollowsItsEvents : Prop :=
  ∀ s : State,
    (clocksOn s = true → s.clk.st = 0 → 500 ≤ s.clk.winSclk → Answers .activityWindowEnd s fun t =>
      t = { s with clk := t.clk, pins := t.pins } ∧ t.clk.winSclk = 0 ∧ t.clk.winSlots = 0 ∧ t.clk.winBusy = 0 ∧
      t.clk.trims = s.clk.trims ∧ t.clk.trimmed = s.clk.trimmed ∧ t.clk.droop = s.clk.droop ∧
      (t.clk.band = 0 ↔ s.clk.winSlots = 0 ∨ 100 * s.clk.winBusy < 30 * s.clk.winSlots) ∧
      (t.clk.band = 2 ↔ s.clk.winSlots ≠ 0 ∧ 70 * s.clk.winSlots < 100 * s.clk.winBusy) ∧ t.clk.band ≤ 2 ∧
      t.clk.act = 100 * s.clk.winBusy / s.clk.winSlots ∧
      (s.clk.sustBand = t.clk.band → t.clk.sust = min 21 (s.clk.sust + 1)) ∧ (s.clk.sustBand ≠ t.clk.band → t.clk.sust = 1) ∧
      (t.clk.sust = 20 → t.clk.band ≠ 0 → lget s.clk.trimmed false t.clk.band = false → t.clk.cap = true ∧
        (s.clk.cap = false → t.clk.retrimBand = t.clk.band ∧ t.clk.retrim = (s.sup.st == 0) ∧ t.clk.retrimSensor = 0 ∧
          t.clk.retrimT = sclkOf s + 1))) ∧
    let trimmed (code : W32) : W32 := (code &&& 0x00003F3F) ||| BitVec.ofNat 32 (s.sup.level % 256 * 65536)
    (∀ code, s.clk.retrim = true → retrimDue s ≤ sclkOf s → s.clk.retrimBand < 3 → s.clk.trimmed.length = 3 →
      (s.clk.retrimSensor < 15 → Answers (.retrimSensorDone code) s fun t =>
        t = { s with clk := { s.clk with retrimSensor := s.clk.retrimSensor + 1
                                         retrimGot := s.clk.retrimGot ++ [trimmed code] }, pins := t.pins }) ∧
      (s.clk.retrimSensor = 15 → s.clk.retrimGot.length = 15 → Answers (.retrimSensorDone code) s fun t =>
        t = { s with clk := t.clk, ev := t.ev, pins := t.pins } ∧ Caused t 0x66 ∧ t.clk.cap = false ∧ t.clk.retrim = false ∧
        (∀ b, b < 3 → lget t.clk.trimmed false b = (decide (b = s.clk.retrimBand) || lget s.clk.trimmed false b)) ∧
        (∀ i, i < 15 → mget t.clk.trims 0 (16 * s.clk.retrimBand + i) = lget s.clk.retrimGot 0 i) ∧
        mget t.clk.trims 0 (16 * s.clk.retrimBand + 15) = trimmed code)) ∧
    (∀ n, n < 16 →
      (clocksOn s = true → Answers (.droopDetect n) s fun t =>
        t = { s with clk := { s.clk with droop := t.clk.droop }, pins := t.pins } ∧
        ∀ i, t.clk.droop.testBit i = (decide (i = n) || s.clk.droop.testBit i)) ∧
      Answers (.droopClear n) s fun t =>
        t = { s with clk := { s.clk with droop := t.clk.droop }, pins := t.pins } ∧
        ∀ i, t.clk.droop.testBit i = (!decide (i = n) && s.clk.droop.testBit i)) ∧
    (s.clk.st = 0 → gateIdle s = true → 1000 ≤ s.clk.idleSclk → Answers .gateEnter s fun t =>
      t = { s with clk := { s.clk with st := 1, idleSclk := 0, half := false }, pins := t.pins }) ∧
    (s.clk.st = 1 → wakeCause s = true → Answers .wake s fun t =>
      t = { s with clk := { s.clk with st := 2, wakeSclk := 0, idleSclk := 0 }, pins := t.pins }) ∧
    (s.clk.st = 2 → 100 ≤ s.clk.wakeSclk → Answers .wakeDone s fun t =>
      t = { s with clk := { s.clk with st := 0, wakeSclk := 0, idleSclk := 0 }, pins := t.pins }) ∧
    (∀ d, s.clk.dump = some d → (clocksOn s = false ∨ s.clk.st ≠ 0) → Answers .clkDumpDone s fun t => t = { s with pins := t.pins }) ∧
    (∀ d, s.clk.dump = some d → clocksOn s = true → s.clk.st = 0 →
      let band := d.1 / 2 ^ 22 % 4
      let off := d.1 / 32 % 131072 * 32
      let bad := band = 3 ∨ lget s.clk.trimmed false band = false ∨ spadFits s off 256 = false
      (bad → Answers .clkDumpDone s fun t =>
        t = { s with clk := { s.clk with dump := none, dumpErr := true }, pins := t.pins }) ∧
      (¬ bad → Answers .clkDumpDone s fun t =>
        t = { s with clk := { s.clk with dump := none }, spad := t.spad, pins := t.pins } ∧
        (∀ a, (a < off ∨ off + 256 ≤ a) → spadByte t a = spadByte s a) ∧
        (∀ i j, i < 16 → j < 16 → (spadByte t (off + 16 * i + j)).toNat = (mget s.clk.trims 0 (16 * band + i)).toNat / 256 ^ j % 256) ∧
        ∀ k, k < 8 → (sideOf t (off / 32 + k)).poison = false ∧ (sideOf t (off / 32 + k)).uninit = false))

/-- Derived from R373, R378, R379, R380 and R381: the phases of a STORE. The first zeroes COMMIT, the second writes the payload, the third
writes the header and raises SETTINGS_WEAR where it takes WEAR above 100,000, the fourth verifies
the copy and takes another frame once, the fifth writes COMMIT and completes, a deletion's sixth ends the job; and a FETCH writes its
payload to the scratchpad and completes with its length.
The bytes of a frame's header and of its checks are the model's reading (log 80). -/
def Obligations.StorePhasesFollowOneAnother : Prop :=
  ∀ (s : State) (j : StoreJob) (o : Origin) (m : Nat), s.store.job = some j → j.cli = { o := o } → mboxOf o = some m →
    j.t0 + phaseLen s j ≤ sclkOf s →
    (j.fetch = false → (s.sup.st = 0 ∨ j.phase = 5) →
      (1 ≤ j.phase → j.phase ≤ 3 → Answers .storePhaseDone s fun t =>
        t = { s with store := { s.store with data := t.store.data, job := some { j with phase := j.phase + 1, t0 := sclkOf s } }
                     ev := t.ev, pins := t.pins } ∧
        (¬ (j.phase = 3 ∧ fWear s j.frame = 100000) → t.ev = s.ev) ∧
        (j.phase = 3 → fWear s j.frame = 100000 → Caused t 0x65) ∧
        (j.phase = 1 → fField t j.frame 0 8 = 0 ∧ ∀ a, (a < frameAt j.frame ∨ frameAt j.frame + 8 ≤ a) → stByte t a = stByte s a) ∧
        (j.phase = 2 → j.payload.length = j.len →
          (∀ i, i < j.len → stByte t (frameAt j.frame + 64 + i) = lget j.payload 0 i % 256) ∧
          ∀ a, (a < frameAt j.frame + 64 ∨ frameAt j.frame + 64 + j.len ≤ a) → stByte t a = stByte s a) ∧
        (j.phase = 3 → fKey t j.frame = j.key.toNat ∧ (j.len < 8192 → fLen t j.frame = j.len) ∧
          ∀ a, (a < frameAt j.frame + 8 ∨ frameAt j.frame + 64 ≤ a) → stByte t a = stByte s a)) ∧
      (j.phase = 4 → fCrcOk s j.frame = true → Answers .storePhaseDone s fun t =>
        t = { s with store := { s.store with job := some { j with phase := 5, t0 := sclkOf s } }, pins := t.pins }) ∧
      (j.phase = 4 → fCrcOk s j.frame = false → (j.tries ≠ 0 ∨ targetFrame s (some j.frame) = none) →
        Answers .storePhaseDone s fun t =>
          t = { s with store := { s.store with job := none, last := 3 }, mb := t.mb, regs := t.regs, cyc := t.cyc, pins := t.pins } ∧
          MbDone t m 9 ∧ RegsKept s t (mbRegs m)) ∧
      (∀ f, j.phase = 4 → fCrcOk s j.frame = false → j.tries = 0 → targetFrame s (some j.frame) = some f →
        Answers .storePhaseDone s fun t =>
          t = { s with store := { s.store with job := some { j with frame := f, tries := 1, phase := 1, t0 := sclkOf s } }
                       pins := t.pins }) ∧
      (j.phase = 5 → Answers .storePhaseDone s fun t =>
        MbDone t m 0 ∧ RegsKept s t (mbRegs m) ∧ Caused t 0x64 ∧ fCommitted t j.frame = true ∧ t.store.last = 1 ∧
        (∀ a, (a < frameAt j.frame ∨ frameAt j.frame + 8 ≤ a) → stByte t a = stByte s a) ∧
        (j.len ≠ 0 → t.store.job = none) ∧ (j.len = 0 → t.store.job = some { j with phase := 6, t0 := sclkOf s }) ∧
        t = { s with store := t.store, mb := t.mb, regs := t.regs, cyc := t.cyc, ev := t.ev, pins := t.pins }) ∧
      (j.phase = 6 → Answers .storePhaseDone s fun t =>
        t = { s with store := { s.store with data := t.store.data, job := none }, pins := t.pins } ∧
        fField t j.frame 0 8 = 0)) ∧
    (j.fetch = true → j.payload.length = j.len → j.off % 32 = 0 → spadFits s j.off ((j.len + 31) / 32 * 32) = true →
      j.len < 4294967296 → Answers .fetchDone s fun t =>
        t = { s with store := { s.store with job := none, last := 1 }, spad := t.spad, mb := t.mb, regs := t.regs, cyc := t.cyc, pins := t.pins } ∧
        MbDone t m 0 ∧ RegsKept s t (mbRegs m) ∧ (reg t (mboxBase m + 0x18)).toNat = j.len ∧
        (∀ i, i < j.len → (spadByte t (j.off + i)).toNat = lget j.payload 0 i % 256) ∧
        (∀ i, j.len ≤ i → i < (j.len + 31) / 32 * 32 → spadByte t (j.off + i) = 0) ∧
        ∀ a, (a < j.off ∨ j.off + (j.len + 31) / 32 * 32 ≤ a) → spadByte t a = spadByte s a)

/-- Derived from R425, R427, R429, R432 and R437: a PCLK cycle begins: the causes of the last one set their pending bits and are counted, a
single one enters the log queue where its route has LOG and there is room, and begins a pulse from rest where it has PULSE; route changes
and the lifecycle inputs of the last cycle come into force. The log takes the entry at the head of its queue and counts an unread one that it
overwrites; a pulse is high and then low for four PCLK cycles each, and raises merged meanwhile make one more.
That a cause comes one PCLK cycle before its raise (log 30), that a pulse begins in the cycle after the raise (log 31) and that a route's change waits in
a field of its own (log 113) are the model's readings. -/
def Obligations.TheLogAndThePulseTakeTheirTurn : Prop :=
  ∀ s : State,
    (let t := pclkBegin s;
      t = { s with ev := t.ev, pins := { s.pins with lifecycle := s.pins.lifeIn } } ∧ t.ev.due = [] ∧ t.ev.routeNew = [] ∧
      t.ev.log = s.ev.log ∧ t.ev.head = s.ev.head ∧ t.ev.time = s.ev.time ∧
      (∀ c, c < 128 → t.ev.pend.getLsbD c = (s.ev.pend.getLsbD c || s.ev.due.any (·.1 == c))) ∧
      (∀ c, routeOf t c = ((s.ev.routeNew.filter (·.1 == c)).getLast?.map (·.2)).getD (routeOf s c)) ∧
      (s.ev.count + s.ev.due.length ≤ 0xFFFFFFFF → t.ev.count = s.ev.count + s.ev.due.length) ∧
      (s.ev.due = [] → t.ev.queue = s.ev.queue ∧ t.ev.dropped = s.ev.dropped ∧ t.ev.pulse = s.ev.pulse) ∧
      ∀ c a, s.ev.due = [(c, a)] →
        ((routeOf t c).testBit 3 = true → s.ev.queue.length < 16 →
          t.ev.queue = s.ev.queue ++ [⟨c, (evClass c).getD 0, a, s.ev.time⟩] ∧ t.ev.dropped = s.ev.dropped) ∧
        ((routeOf t c).testBit 3 = true → 16 ≤ s.ev.queue.length →
          t.ev.queue = s.ev.queue ∧ t.ev.dropped = min 0xFF (s.ev.dropped + 1)) ∧
        ((routeOf t c).testBit 3 = false → t.ev.queue = s.ev.queue ∧ t.ev.dropped = s.ev.dropped) ∧
        ((routeOf t c).testBit 2 = true → s.ev.pulse = 0 → t.ev.pulse = 1 ∧ t.ev.pulseT = pclkOf s + 1) ∧
        ((routeOf t c).testBit 2 = true → s.ev.pulse = 1 → t.ev.pulse = 1 ∧ t.ev.merged = true ∧ t.ev.pulseT = s.ev.pulseT) ∧
        ((routeOf t c).testBit 2 = false → t.ev.pulse = s.ev.pulse ∧ t.ev.merged = s.ev.merged)) ∧
    (∀ e q, s.ev.queue = e :: q → s.ev.logT ≤ pclkOf s → Answers .logWrite s fun t =>
      let old := mget s.ev.log {} s.ev.head
      t = { s with ev := { s.ev with queue := q, log := t.ev.log, head := (s.ev.head + 1) % 64, logT := pclkOf s + 1
                                     overwritten := t.ev.overwritten, hiOk := t.ev.hiOk }, pins := t.pins } ∧
      (t.ev.hiOk = true ↔ s.ev.hiOk = true ∧ s.ev.head ≠ s.ev.hiSel) ∧
      mget t.ev.log {} s.ev.head = { valid := true, cls := e.cls, code := e.code, arg := e.arg, time := e.time, unread := true } ∧
      (∀ n, n ≠ s.ev.head → mget t.ev.log {} n = mget s.ev.log {} n) ∧
      t.ev.overwritten = (if old.valid = true ∧ old.unread = true then min 0xFFFF (s.ev.overwritten + 1) else s.ev.overwritten)) ∧
    (s.ev.pulse ≠ 0 → s.ev.pulseT + 4 ≤ pclkOf s → Answers .evtPulseEnd s fun t =>
      t = { s with ev := { s.ev with pulse := t.ev.pulse, merged := t.ev.merged, pulseT := t.ev.pulseT }, pins := t.pins } ∧
      (s.ev.pulse = 1 → t.ev.pulse = 2 ∧ t.ev.merged = s.ev.merged ∧ t.ev.pulseT = pclkOf s) ∧
      (s.ev.pulse = 2 → s.ev.merged = true → t.ev.pulse = 1 ∧ t.ev.merged = false ∧ t.ev.pulseT = pclkOf s) ∧
      (s.ev.pulse = 2 → s.ev.merged = false → t.ev.pulse = 0))

-- The memory port, the channels and the cache.

/-- Derived from R266, R278, R285, R288, R291, R292, R295, R298, R299, R300, R438 and R439: the memory port. It presents the request that became ready first
of those that may go, with the lowest free slot of its kind, an egress write with its data verified, and holds it until it is accepted; then
it takes its slot, its time and its number, a doorbell goes with a row's first, and a write's beats follow; a beat is kept with the worst
status, and the last one frees the slot; a write response frees its slot; a response that names nothing outstanding is counted, raises
MEM_SPURIOUS and changes no slot; a timer that expires closes the port, frees every slot under the next generation and halts the channels.
When the sectors of an egress row are read (log 48), that a request with a failing sector writes nothing (log 94), one event for each failing sector
(log 44) and the inputs of the handshakes (log 129) are the model's choices. -/
def Obligations.TheMemoryPortAcceptsAndAnswers : Prop :=
  ∀ s : State,
    (∀ r k, portRuns s = true → s.memp.req = none → s.memp.ready.find? (mayPresent s) = some r → freeSlot s r.write = some k →
      let t := presentTick (s.memp.ready.length + 1) s
      let rest := { s with memp := { s.memp with ready := s.memp.ready.erase r } }
      ((r.write = false ∨ ((∃ x, r.who = .writer x ∨ r.who = .seam x) ∧ badSectors r.data r.checks r.sec.testBit = 0)) →
        t = { s with memp := { s.memp with ready := s.memp.ready.erase r, req := some (k, r) } }) ∧
      (∀ c id rw q, r.write = true → r.who = .chanRow c id → (chan s c).rows.find? (·.id == id) = some rw →
        (chan s c).kibs.find? (·.kid == rw.kid) = some q →
        let x := egressRead rest q rw r
        (x.1.2.2 = 0 → t.memp = { s.memp with
          ready := s.memp.ready.erase r, req := some (k, { r with data := egressLines x.1.1 r.beats, sec := x.1.2.1 }) }) ∧
        (x.1.2.2 ≠ 0 → Caused t 0x0F))) ∧
    (∀ k r, clocksOn s = true → s.clk.st = 0 → accessHeld s = false → s.memp.req = some (k, r) →
      let now : MReq := { r with t0 := mclkOf s, timeout := zeroIs 1024 (regF s 0x1C0 10 10) * 4096, serial := s.memp.serial }
      let taken (t : State) : Prop :=
        t.memp = { s.memp with req := none, serial := s.memp.serial + 1, out := t.memp.out
                               beats := s.memp.beats ++ (if r.write then writeBeats r else []) } ∧
        mget t.memp.out {} k = now ∧
        ((∀ c id, r.who ≠ .chanRow c id) → t.chans = s.chans) ∧
        ∀ c id, r.who = .chanRow c id → (∀ d, d ≠ c → chan t d = chan s d) ∧
          chan t c = { chan s c with bell := (chan s c).bell - (if r.first then 1 else 0) }
      (r.write = false → Answers .memRequestIssue s fun t =>
        t = { s with memp := t.memp, chans := t.chans, pins := t.pins } ∧ taken t ∧
        ∀ j, j ≠ k → mget t.memp.out {} j = mget s.memp.out {} j) ∧
      (r.write = true → Answers .memRequestIssue s fun t =>
        t = { s with memp := t.memp, chans := t.chans, spad := { s.spad with cache := t.spad.cache }, pins := t.pins } ∧ taken t ∧
        (0 < cacheSets s → ∀ i, i < r.beats → ∀ x ∈ cacheSet t (lineAddr r i), x.addr ≠ lineAddr r i) ∧
        ∀ j, j ≠ k → (mget t.memp.out {} j).who = (mget s.memp.out {} j).who ∧
          (mget t.memp.out {} j).serial = (mget s.memp.out {} j).serial)) ∧
    (s.memp.beat = none → s.memp.beatT ≤ mclkOf s →
    (∀ tag data status last r, tagged s tag = some r → r.write = false → last = decide (r.got.length + 1 = r.beats) →
      (last = false → Answers (.memReadBeat tag data status last) s fun t =>
        t = { s with memp := { s.memp with out := t.memp.out, beatT := mclkOf s + 1 }, pins := t.pins } ∧
        mget t.memp.out {} (tag % 128) = { r with
          got := r.got ++ [data], worst := worse r.worst status
          checks := match r.who with | .seam _ => r.checks ++ lineChecks [data] | _ => r.checks } ∧
        ∀ j, j ≠ tag % 128 → mget t.memp.out {} j = mget s.memp.out {} j) ∧
      (last = true → Answers (.memReadBeat tag data status last) s fun t =>
        mget t.memp.out {} (tag % 128) = {} ∧
        (r.who ≠ .image → EvGrows s t ∧ t.arr = s.arr ∧ t.gen = s.gen ∧ t.sfu = s.sfu ∧ t.clk = s.clk) ∧
        (r.who = .image → worse r.worst status ≠ 0 → t.boot = { s.boot with fail7 := true } ∧ t.spad = s.spad ∧ t.regs = s.regs) ∧
        (∀ c, (r.who = .chanKib c ∨ ∃ id, r.who = .chanRow c id) →
          (worse r.worst status ≠ 0 → Caused t (if worse r.worst status = 2 then 0x29 else 0x2A)) ∧
          (r.cache = false → ∀ j, j ≠ tag % 128 → mget t.memp.out {} j = mget s.memp.out {} j)))) ∧
    (∀ tag status r, tagged s tag = some r → r.write = true →
      (∀ src, r.who = .writer src → Answers (.memWriteResponse tag status) s fun t =>
        t = { s with memp := { s.memp with out := t.memp.out, beatT := mclkOf s + 1 }, ev := t.ev, pins := t.pins } ∧
        mget t.memp.out {} (tag % 128) = {} ∧ (∀ j, j ≠ tag % 128 → mget t.memp.out {} j = mget s.memp.out {} j) ∧
        (status % 4 = 0 → t.ev = s.ev) ∧ (status % 4 = 2 → Caused t 0x29) ∧ (status % 2 = 1 → Caused t 0x2A)) ∧
      (∀ c id, r.who = .chanRow c id → Answers (.memWriteResponse tag status) s fun t =>
        mget t.memp.out {} (tag % 128) = {} ∧ (∀ j, j ≠ tag % 128 → mget t.memp.out {} j = mget s.memp.out {} j) ∧
        (status % 4 = 2 → Caused t 0x29) ∧ (status % 2 = 1 → Caused t 0x2A) ∧ t.arr = s.arr ∧ t.acc = s.acc ∧ t.seams = s.seams) ∧
      (∀ k, r.who = .seam k → Answers (.memWriteResponse tag status) s fun t =>
        mget t.memp.out {} (tag % 128) = {} ∧ (∀ j, j ≠ tag % 128 → mget t.memp.out {} j = mget s.memp.out {} j) ∧
        t.chans = s.chans ∧ t.arr = s.arr ∧ t.spad = s.spad ∧
        (∀ x q, s.acc.xfers = x :: q → x.seam = k → x.started = true → r.beats < x.left →
          t.acc.xfers = { x with left := x.left - r.beats, failed := x.failed || decide (status % 4 ≠ 0) } :: q))) ∧
    (∀ tag data status last, tagged s tag = none →
      Answers (.memReadBeat tag data status last) s (fun t =>
        t = { s with memp := { s.memp with beatT := mclkOf s + 1 }, ev := t.ev, regs := t.regs, cyc := t.cyc, pins := t.pins } ∧
        Caused t 0x2C ∧ RegsKept s t [0x1CC] ∧ regF t 0x1CC 0 32 = min 0xFFFFFFFF (regF s 0x1CC 0 32 + 1)) ∧
      Answers (.memWriteResponse tag status) s fun t =>
        t = { s with memp := { s.memp with beatT := mclkOf s + 1 }, ev := t.ev, regs := t.regs, cyc := t.cyc, pins := t.pins } ∧
        Caused t 0x2C ∧ RegsKept s t [0x1CC] ∧ regF t 0x1CC 0 32 = min 0xFFFFFFFF (regF s 0x1CC 0 32 + 1))) ∧
    (∀ k, (mget s.memp.out {} k).who ≠ .none → timerEnd (mget s.memp.out {} k) ≤ mclkOf s → Answers (.memTimeout k) s fun t =>
      t.memp.closed = true ∧ t.memp.out = [] ∧ t.memp.gen = (s.memp.gen + 1) % 16 ∧ Caused t 0x2B ∧ EvGrows s t ∧
      reg t 0x1C8 = (if bitB (reg s 0x1C8) 31 then reg s 0x1C8 else toLogWord (mget s.memp.out {} k)) ∧
      ((∀ d x, curKib (chan s d) = some x → flushDue s x = false) → t.rings = s.rings ∧
        ∀ c, (chan s c).st ≠ 0 → (chan s c).st ≠ 4 → (chan s c).aborting = false → (chan t c).st = 5 ∧ (chan t c).cause = 3) ∧
      t.arr = s.arr ∧ t.gen = s.gen ∧ t.clk = s.clk ∧ t.seq = s.seq)

/-- Derived from R243, R245, R257, R261, R265 and R303: a channel whose space is there runs again; a mutual wait is broken at the channel
armed last, whose ring gives up every half with no row released; a request that lost 64 pairs wins its bank and is counted; and a hit of
the read cache is delivered: each sector of its lines that lies in the row, with the side-band word that the cache holds for it.
That DMA data moves at its event (log 32), what a hit counts (log 93) and which idle channel is broken (log 126) are the model's choices. -/
def Obligations.WaitsEndAndHitsArrive : Prop :=
  ∀ s : State,
    (∀ c, waitMay s c = true → Answers (.chWaitEnd c) s fun t =>
      t = { s with chans := t.chans, pins := t.pins } ∧ chan t c = { chan s c with st := 1 } ∧
      ∀ d, d ≠ c → chan t d = chan s d) ∧
    (∀ c n, 4096 ≤ s.memp.mwait → breakChan s = some c → fillRing (chan s c) = some n → Answers .deadlockBreak s fun t =>
      (chan t c).st = 5 ∧ (chan t c).cause = 4 ∧ t.memp.mwait = 0 ∧ Caused t 0x2E ∧ EvGrows s t ∧
      (ringOf t n).prod = freshHalf (ringOf s n) ∧ (ringOf t n).beg = freshHalf (ringOf s n) ∧
      (ringOf t n).rel = (ringOf s n).rel ∧ (∀ m, m ≠ n → m ∉ (chan s c).begins → ringOf t m = ringOf s m) ∧
      (∀ d, d ≠ c → chan t d = chan s d) ∧ t.arr = s.arr ∧ t.acc = s.acc ∧ t.spad = s.spad ∧ t.memp.out = s.memp.out ∧
      ∀ o, o ≠ 0x1D4 → (∀ m, m < 3 → o ≠ mboxBase m + 0x14 ∧ o ≠ mboxBase m + 0x18) → reg t o = reg s o) ∧
    (∀ bank, bank < 32 → mget s.spad.arb.starve 0 bank = 64 → 0 < mget s.spad.arb.dma 0 bank → Answers (.dmaWin bank) s fun t =>
      t = { s with spad := { s.spad with arb := t.spad.arb }, regs := t.regs, cyc := t.cyc, pins := t.pins } ∧ RegsKept s t [0x605C] ∧
      regF t 0x605C 0 32 = min 0xFFFFFFFF (regF s 0x605C 0 32 + 1) ∧
      t.spad.arb = { s.spad.arb with
        acc := t.spad.arb.acc, dma := t.spad.arb.dma, starve := t.spad.arb.starve, won := s.spad.arb.won ++ [bank] } ∧
      ∀ b, mget t.spad.arb.acc 0 b = mget s.spad.arb.acc 0 b + (if b = bank then 1 else 0) ∧
        mget t.spad.arb.dma 0 b = mget s.spad.arb.dma 0 b - (if b = bank then 1 else 0) ∧
        mget t.spad.arb.starve 0 b = (if b = bank then 0 else mget s.spad.arb.starve 0 b)) ∧
    (∀ c h, s.spad.hits.find? (fun h => h.c == c) = some h → h.due ≤ mclkOf s → Answers (.cacheHitDelivery c) s fun t =>
      t.spad.hits = s.spad.hits.erase h ∧ t.memp.out = s.memp.out ∧ EvGrows s t ∧ t.arr = s.arr ∧ t.acc = s.acc ∧
      t.seams = s.seams ∧ t.clk = s.clk ∧ (∀ d, d ≠ c → chan t d = chan s d) ∧ t.seq = s.seq ∧
      ((chan s c).stopTo = none → (chan s c).tail = none → (∀ k ∈ (chan s c).kibs, k.op % 2 = 0) →
        (∀ x ∈ (chan s c).rows, x.id ≠ h.id → rowReady x = false) → h.addr % 32 = 0 → h.lines.length ≤ 4 →
        ∀ x ∈ (chan s c).rows, x.id = h.id → x.ext % 32 = 0 →
          ∃ y ∈ (chan t c).rows, y.id = x.id ∧ y.r = x.r ∧ y.outN = x.outN - 1 ∧ y.beatT = mclkOf s ∧
            ∀ j, j < 2 * h.lines.length →
              let k := (h.addr + 32 * j + m48 - x.ext % m48) % m48 / 32
              let l := lget h.lines {} (j / 2)
              32 * k < rowSize (chan s c) x → mget y.data 0 k = lineSector l.data j ∧ mget y.kept none k = lineKept l j))

-- Windows and landing rings.

/-- Derived from R264, R268, R270 and R271: the windows of a tile. A request that fails a check counts a drop, gets its status and leaves
the scratchpad as it was; a WRITE that passes writes its sectors and no other byte, or joins the landing writes; a CLOSE makes the next
generation; a CLOSE completes once no landing write checked under the generation it closed remains; a failing answer makes an import STALE with its event
once; a landing write lands in the filling half or waits, and one that
fills the half makes it full with the write's tag.
That DMA data moves at its event (log 32), that a sector without contents travels poisoned (log 72) and that export and import share GEN (log 86)
are the model's choices. -/
def Obligations.WindowsCheckLandAndClose : Prop :=
  ∀ s : State,
    (∀ n m pk, spadPort s = true → s.fab.chk.find? (fun e => e.1 == n) = some (m, pk) → (∀ l ∈ s.fab.land, l.port ≠ n) →
      unitHeld s 7 = false →
      let h := headOf pk.head
      let w := mget s.wins {} h.pwin
      let l := packetSectors pk
      (windowStatus s h ≠ 0 → Answers (.windowRequestCheck n) s fun t =>
        t = { s with fab := t.fab, wins := t.wins, pins := t.pins } ∧ t.fab.chk = s.fab.chk.eraseP (fun e => e.1 == n) ∧
        mget t.wins {} h.pwin = { w with drops := min 0xFFFFFFFF (w.drops + 1) } ∧
        ∀ v, v ≠ h.pwin → mget t.wins {} v = mget s.wins {} v) ∧
      (windowStatus s h = 0 → h.ty = 0 → Answers (.windowRequestCheck n) s fun t =>
        t = { s with fab := t.fab, spad := t.spad, regs := t.regs, cyc := t.cyc, ev := t.ev, free := t.free, pins := t.pins } ∧
        t.fab.chk = s.fab.chk.eraseP (fun e => e.1 == n) ∧ EvGrows s t) ∧
      (windowStatus s h = 0 → h.ty ≠ 0 → w.land = true → Answers (.windowRequestCheck n) s fun t =>
        t = { s with pins := t.pins, fab := { s.fab with
          chk := s.fab.chk.eraseP fun e => e.1 == n
          land := s.fab.land ++ [{ port := n, win := h.pwin, gen := w.gen, ring := w.lring, off := h.off, step := h.step, ep := h.ep
                                   src := h.src, tag := h.tag, sectors := l }] } }) ∧
      (windowStatus s h = 0 → h.ty ≠ 0 → w.land = false → 1 ≤ h.step →
        (∀ i, i < l.length → spadFits s (32 * exportSector w (h.off + i * h.step)) 32 = true) →
        Answers (.windowRequestCheck n) s fun t =>
          t = { s with fab := t.fab, spad := t.spad, pins := t.pins } ∧ t.fab.chk = s.fab.chk.eraseP (fun e => e.1 == n) ∧
          (∀ i j, i < l.length → j < 32 → spadByte t (32 * exportSector w (h.off + i * h.step) + j) =
            BitVec.ofNat 8 ((lget l {} i).data.toNat / 256 ^ j)) ∧
          (∀ i, i < l.length → (sideOf t (exportSector w (h.off + i * h.step))).poison = (lget l {} i).poison) ∧
          ∀ a, (∀ i, i < l.length → a / 32 ≠ exportSector w (h.off + i * h.step)) → spadByte t a = spadByte s a)) ∧
    (∀ w c, (mget s.wins {} w).mode = 1 → (mget s.wins {} w).closing = some c →
      let x := mget s.wins {} w
      ((∀ e ∈ x.fin ++ [(x.gen, c)], ∃ l ∈ s.fab.land, l.win = w ∧ l.gen = e.1) → Answers (.exportCloseEffect w) s fun t =>
        t = { s with wins := t.wins, pins := t.pins } ∧
        mget t.wins {} w = { gen := (x.gen + 1) % 256, drops := x.drops, stale := x.stale, fin := x.fin ++ [(x.gen, c)] } ∧
        ∀ v, v ≠ w → mget t.wins {} v = mget s.wins {} v) ∧
      (∀ m, x.fin = [] → (∀ l ∈ s.fab.land, l.win = w → l.gen ≠ x.gen) → mboxOf c.o = some m → Answers (.exportCloseEffect w) s fun t =>
        t = { s with wins := t.wins, mb := t.mb, regs := t.regs, cyc := t.cyc, pins := t.pins } ∧ MbDone t m 0 ∧ RegsKept s t (mbRegs m) ∧
        mget t.wins {} w = { gen := (x.gen + 1) % 256, drops := x.drops, stale := x.stale } ∧
        ∀ v, v ≠ w → mget t.wins {} v = mget s.wins {} v)) ∧
    (∀ w st rd r, s.fab.wfails = (w, st, rd) :: r → Answers .windowFailResponse s fun t =>
      t = { s with fab := { s.fab with wfails := r, reads := t.fab.reads }, wins := t.wins, ev := t.ev, pins := t.pins } ∧
      (st = 1 → mget t.wins {} w = { mget s.wins {} w with stale := true } ∧
        ((mget s.wins {} w).stale = true → t.ev = s.ev) ∧ ((mget s.wins {} w).stale = false → Caused t 0x24)) ∧
      (st ≠ 1 → t.wins = s.wins ∧ Caused t 0x25) ∧ (∀ v, v ≠ w → mget t.wins {} v = mget s.wins {} v) ∧
      (rd = 0 → t.fab.reads = s.fab.reads) ∧
      (rd ≠ 0 → let q := mget s.fab.reads {} rd
        mget t.fab.reads {} rd = { q with left := q.left - 1, failed := true } ∧
        ∀ k, k ≠ rd → mget t.fab.reads {} k = mget s.fab.reads {} k)) ∧
    (∀ n l, spadPort s = true → unitHeld s 7 = false → landFirst s n false = some l →
      (landReady s l = true → Answers (.landingWrite n) s fun t => Lands s t n l) ∧
      (landReady s l = false → Answers (.landingWrite n) s fun t =>
        t = { s with fab := { s.fab with land := t.fab.land }, pins := t.pins } ∧
        t.fab.land = s.fab.land.map fun x => if x = l then { x with waiting := true } else x)) ∧
    (∀ n l, spadPort s = true → unitHeld s 7 = false → landFirst s n true = some l →
      (landReady s l = true → Answers (.landingWriteRelease n) s fun t => Lands s t n l) ∧
      (landReady s l = false → Answers (.landingWriteRelease n) s fun t => t = { s with pins := t.pins }))

-- The sequencer's program.

/-- Derived from R217, R218, R221, R222, R223, R227, R228, R233, R236, R240, R423 and R461: the items of a program. A record's words join the
bench that is being read; a word of any item that fails its parity halts with RAM_PARITY, and nothing of the item happens. START
stages the bench with its settings, its descriptors and its entry state; LOOP enters its body or skips it; ENDLOOP repeats it or leaves;
CNTSET, TDSET and TDADD write; END drains; and what R461 lists halts with BAD_FORMAT.
That an item takes effect in the slot of its last word (log 118), ARG 0 of what R461 lists (log 61) and that a STOPPING sequencer reads nothing
(log 60) are the model's readings. -/
def Obligations.ProgramItemsMoveTheSequencer : Prop :=
  ∀ s : State,
    let reads (c : Instr) (ty n : Nat) : Prop := ItemNext s ty n → Answers c s fun t =>
      t = { s with pins := t.pins, seq := { entered s with
        pc := s.seq.pc + n, nextRead := s.clk.slot + 1
        recs := s.seq.recs ++
          [{ pos := s.seq.recs.length, ty := ty, w := (natsTo n).map fun i => pramWord s (s.seq.pc + i) }] } }
    let fails (c : Instr) (ty n : Nat) : Prop :=
      ∀ d x, itemIs ty s = true → s.seq.frozen = false → itemDue s = some d → d ≤ s.clk.slot → x ∈ s.seq.badPram →
        s.seq.pc ≤ x → x < s.seq.pc + n → Answers c s fun t =>
          t = { s with seq := t.seq, ev := t.ev, regs := t.regs, cyc := t.cyc, pins := t.pins } ∧ HaltAsked t s.seq 4 ∧ Caused t 0x11 ∧
          RegsKept s t [0xE040] ∧ regF t 0xE040 0 32 = min 0xFFFFFFFF (regF s 0xE040 0 32 + 1)
    let w := pramWord s s.seq.pc
    let v := pramWord s (s.seq.pc + 1)
    let q := entered s
    let halts (c : Instr) : Prop := Answers c s fun t =>
      t = { s with seq := t.seq, ev := t.ev, pins := t.pins } ∧ Caused t 0x04 ∧ HaltAsked t q 2
    reads .arrayRecord 1 6 ∧ reads .derrickRecord 2 2 ∧ reads .drainRecord 3 2 ∧ reads .gateRecord 4 4 ∧
    reads .scanRecord 5 4 ∧ reads .vectorRecord 6 4 ∧
    fails .arrayRecord 1 6 ∧ fails .derrickRecord 2 2 ∧ fails .drainRecord 3 2 ∧ fails .gateRecord 4 4 ∧
    fails .scanRecord 5 4 ∧ fails .vectorRecord 6 4 ∧ fails .progStart 0x20 2 ∧ fails .progLoop 0x21 1 ∧ fails .endloop 0x22 1 ∧
    fails .cntset 0x23 1 ∧ fails .tdset 0x24 2 ∧ fails .tdadd 0x25 2 ∧ fails .progEnd 0x26 1 ∧
    (ItemNext s 0x20 2 → Answers .progStart s fun t =>
      t = { s with seq := t.seq, ev := t.ev, regs := t.regs, cyc := t.cyc, pins := t.pins } ∧ RegsKept s t [0xE040] ∧
      ∃ b : Bench, t.seq = { q with pc := s.seq.pc + 2, recs := [], cur := none, staged := some b, stagedAt := s.clk.slot
                                    haltReq := t.seq.haltReq } ∧
        b.len = (if fieldN w 0 16 = 0 then 65536 else fieldN w 0 16) ∧ b.bep = s.seq.bep % 16 ∧ b.arnd = fieldN w 24 2 ∧
        b.crnd = fieldN w 22 2 ∧ b.ovfInf = bitB w 21 ∧ b.reseed = bitB w 20 ∧ b.seed = v ∧ b.recs = s.seq.recs ∧
        b.idx = s.seq.idx ∧ b.tdf = tdFile s ∧ b.entry = s.seq.cur.getD (entryNow s) ∧
        (b.bad = true → Caused t 0x04) ∧ (badTdNamed s b = true → Caused t 0x11) ∧
        regF t 0xE040 0 32 = min 0xFFFFFFFF (regF s 0xE040 0 32 + (badTdWords s b).length) ∧
        (b.bad = false → badTdNamed s b = false → t.ev = s.ev ∧ t.regs = s.regs ∧ t.seq.haltReq = none) ∧
        (b.bad = true ↔ ∃ r ∈ b.recs, overLimit b r = true ∨ badRecord s { b with bad := false, badRec := 0 } r = true)) ∧
    (ItemNext s 0x21 1 →
      let k := s.seq.frames.length
      let skip := bitB w 25 = false ∧ cntOf s k = 0
      (4 ≤ k → halts .progLoop) ∧
      (k < 4 → skip → Answers .progLoop s fun t =>
        t = { s with pins := t.pins, seq := { q with pc := s.seq.pc + fieldN w 0 14, nextRead := s.clk.slot + 1 } }) ∧
      (k < 4 → ¬ skip → Answers .progLoop s fun t =>
        t = { s with pins := t.pins, seq := { q with
          pc := s.seq.pc + 1, nextRead := s.clk.slot + 1, idx := lupd s.seq.idx k fun _ => 0
          frames := { body := s.seq.pc + 1, left := cntOf s k, forever := bitB w 25, after := s.seq.pc + fieldN w 0 14 }
            :: s.seq.frames } })) ∧
    (ItemNext s 0x22 1 →
      (s.seq.frames = [] → halts .endloop) ∧
      (∀ f r, s.seq.frames = f :: r →
        let wrong := f.after ≠ s.seq.pc + 1 ∨ f.forever = true ∧ hasStart s s.seq.pc (s.seq.pc - f.body) f.body = false
        let again := f.forever = true ∨ 1 < f.left
        (wrong → halts .endloop) ∧
        (¬ wrong → again → Answers .endloop s fun t =>
          t = { s with pins := t.pins, seq := { q with
            pc := f.body, nextRead := s.clk.slot + 1
            idx := lupd s.seq.idx r.length fun _ => (lget s.seq.idx 0 r.length + 1) % 65536
            frames := { f with left := if f.forever then f.left else f.left - 1 } :: r } }) ∧
        (¬ wrong → ¬ again → Answers .endloop s fun t =>
          t = { s with pins := t.pins, seq := { q with
            pc := s.seq.pc + 1, nextRead := s.clk.slot + 1, idx := lupd s.seq.idx r.length fun _ => 0, frames := r } }))) ∧
    (ItemNext s 0x23 1 → Answers .cntset s fun t =>
      let o := 0x3020 + 4 * fieldN w 24 2
      t = { s with pins := t.pins, regs := t.regs, cyc := t.cyc, seq := { q with pc := s.seq.pc + 1, nextRead := s.clk.slot + 1 } } ∧
      RegsKept s t [o] ∧ (reg t o).toNat = fieldN w 0 16) ∧
    (ItemNext s 0x24 2 → Answers .tdset s fun t =>
      let o := 0x3400 + 0x20 * fieldN w 20 6 + 4 * fieldN w 17 3
      t = { s with pins := t.pins, regs := t.regs, cyc := t.cyc, seq := { q with
        pc := s.seq.pc + 2, nextRead := s.clk.slot + 1 } } ∧
      RegsKept s t [o] ∧ reg t o = (reg s o &&& ~~~tdMask (fieldN w 17 3)) ||| (v &&& tdMask (fieldN w 17 3))) ∧
    (ItemNext s 0x25 2 →
      let o := 0x3400 + 0x20 * fieldN w 20 6 + 0x1C
      (8 * fieldN w 20 6 + 7 ∉ s.seq.badTd → Answers .tdadd s fun t =>
        t = { s with pins := t.pins, regs := t.regs, cyc := t.cyc, seq := { q with
          pc := s.seq.pc + 2, nextRead := s.clk.slot + 1 } } ∧
        RegsKept s t [o] ∧ reg t o = reg s o + v) ∧
      (8 * fieldN w 20 6 + 7 ∈ s.seq.badTd → Answers .tdadd s fun t =>
        HaltAsked t { q with pc := s.seq.pc + 2, nextRead := s.clk.slot + 1 } 4 ∧ Caused t 0x11 ∧
        RegsKept s t [o, 0xE040] ∧ reg t o = reg s o + v)) ∧
    (ItemNext s 0x26 1 →
      (s.seq.frames ≠ [] ∨ s.seq.recs ≠ [] → halts .progEnd) ∧
      (s.seq.frames = [] → s.seq.recs = [] → s.seq.benches ≠ [] → Answers .progEnd s fun t =>
        t = { s with pins := t.pins, seq := { q with st := 3, cur := none, pc := s.seq.pc + 1 } }) ∧
      (s.seq.frames = [] → s.seq.recs = [] → s.seq.benches = [] → s.seq.stopCli = [] → s.seq.haltCli = [] →
        Answers .progEnd s fun t =>
          t = { s with pins := t.pins, regs := t.regs, cyc := t.cyc, ev := t.ev
                       seq := { q with st := 0, cur := none, pc := s.seq.pc + 1, replay := none, matchSkips := [] } } ∧
          Caused t 0x01 ∧ RegsKept s t [0x3004] ∧ reg t 0x3004 = reg s 0x3004 ||| 0x10000000#32)) ∧
    (∀ d, itemDue s = some d → d ≤ s.clk.slot → s.seq.frozen = false → itemBad s = true → s.seq.pc ∉ s.seq.badPram →
      halts .reservedItem)

/-- Derived from R214, R215, R216, R218, R219, R220, R232, R237 and R238: a staged bench whose time has come starts, and is counted; a rejected one
halts with BENCH_HALT; a record that has done its last action finishes, and its bench with the last one; a freeze whose causes are over
ends; and one longer than FREEZE_LIM is reported once.
That no record finishes in the slot in which a halt is decided (log 112), the events of a slot that a freeze began in (log 109) and the slot that a
halt in a freeze ends (log 119) are the model's readings. -/
def Obligations.BenchesStartRecordsFinishAndFreezesEnd : Prop :=
  ∀ s : State,
    (∀ b d, s.seq.staged = some b → benchFits s = true → benchDue s = some d → d ≤ s.clk.slot → s.seq.frozen = false →
      (b.bad = false → Answers .benchStart s fun t =>
        t.seq.staged = none ∧ t.seq.started = true ∧ t.seq.lastStart = s.clk.slot ∧ t.seq.lastLen = b.len ∧
        t.seq.bep = (s.seq.bep + 1) % 16 ∧ t.seq.lastBep = s.seq.bep ∧ t.seq.nextRead = s.clk.slot ∧ t.seq.st = 2 ∧
        t.seq.pc = s.seq.pc ∧ regF t 0x300C 0 32 = min 0xFFFFFFFF (regF s 0x300C 0 32 + 1) ∧
        (b.recs = [] → t.seq.benches = s.seq.benches) ∧
        (b.recs ≠ [] → ∃ x : Bench, t.seq.benches = s.seq.benches ++ [x] ∧ x.uid = s.seq.nextUid ∧ x.start = s.clk.slot ∧
          x.bep = s.seq.bep ∧ x.recs = b.recs ∧ x.tdf = b.tdf ∧ x.idx = b.idx ∧ x.entry = b.entry) ∧
        EvGrows s t ∧ t.arr = s.arr ∧ t.chans = s.chans ∧ t.spad = s.spad) ∧
      (b.bad = true → Answers .benchStart s fun t =>
        t.seq.st = 5 ∧ t.seq.staged = none ∧ t.seq.benches = [] ∧ t.seq.recs = [] ∧ Caused t 0x02 ∧ EvGrows s t ∧
        t.arr.waves = [] ∧ t.gate.steps = [] ∧ t.scan.chunks = [] ∧ t.arr.planes = s.arr.planes ∧ t.chans = s.chans)) ∧
    (∀ uid pos x r, recOf s uid pos = some (x, r) → recReady uid pos s = true → Answers (.recordFinish uid pos) s fun t =>
      ((∃ y ∈ x.recs, y.pos ≠ pos ∧ y.fin = false) →
        t = { s with pins := t.pins, seq := { s.seq with benches := t.seq.benches }
                     scan := { s.scan with setups := t.scan.setups } } ∧
        recOf t uid pos = none ∧ (∀ u ∈ t.scan.setups, u ∈ s.scan.setups ∧ (u.uid, u.pos) ≠ (uid, pos)) ∧
        (∀ v p, v ≠ uid → recOf t v p = recOf s v p)) ∧
      ((∀ y ∈ x.recs, y.pos ≠ pos → y.fin = true) → benchOf t uid = none ∧ EvGrows s t ∧ t.chans = s.chans)) ∧
    (s.seq.frozen = true → frzOver s = true → s.seq.resume = true ∨ s.vec.vsts = [] → Answers .freezeEnd s fun t =>
      t = { s with pins := t.pins, seq := { s.seq with frozen := false, frz := {}, frzNext := {}, waits := [] } }) ∧
    (frzTooLong s = true → regF s 0x3000 0 5 ≠ 0 → s.seq.longDone = false → Answers .freezeLong s fun t =>
      let q : Seq := { s.seq with longDone := true }
      t = { s with seq := t.seq, ev := t.ev, pins := t.pins } ∧ Caused t 0x07 ∧
      (bitB (reg s 0x3000) 8 = false ∨ seqActive s = false ∨ s.seq.haltReq.isSome = true → t.seq = q) ∧
      (bitB (reg s 0x3000) 8 = true → seqActive s = true → s.seq.haltReq = none → HaltAsked t q 8))

-- The array, the derrick and the drains.

/-- Derived from R64, R66, R77, R78, R83, R87, R88, R93, R95, R99, R102 and R103: a wavefront enters row 0 with its elements and settings, and one that
finds the slot taken by an earlier record enters invalid with a SLOT_SLIP; the oldest one leaves the array and puts its column results on
their way to its target, overwriting or added by the rule of its total's format (that a row both mismatched and poisoned is overwritten is the model's choice, log 121,
and what an overwrite that saturates marks its reading, log 37), and a binary32 add is rounded as it is made; a comparison with a mismatch is counted, logged and raised, and halts under CSUM_HALT; the derrick's next row
sweeps into its plane.
The causes of a slip of an add (log 38) and the reading of a derrick's row in its slot (log 39) are the model's readings. -/
def Obligations.WavefrontsEnterAndLeaveTheArray : Prop :=
  ∀ s : State,
    (∀ uid pos b r, RecNow s uid pos 1 b r → r.n < aWaves r → aDue b r r.n ≤ s.clk.slot →
      (∀ w, waveNow s = some w → startedBefore b.uid r.pos w.uid w.pos = false → Answers (.wavefrontIssue uid pos) s fun t =>
        t = { s with arr := t.arr, seq := t.seq, ev := t.ev, regs := t.regs, cyc := t.cyc, pins := t.pins } ∧ Caused t 0x05 ∧
        RegsKept s t [0x3014, 0x3018] ∧ RecAtN t uid pos (r.n + 1) ∧
        ∃ x, t.arr = { s.arr with waves := s.arr.waves ++ [x] } ∧ x.uid = uid ∧ x.pos = pos ∧ x.entry = s.clk.slot ∧ x.acts = []) ∧
      (waveNow s = none →
        let x := actsOf (inTurn s uid pos) b r r.n
        (x.1 = .wait → Answers (.wavefrontIssue uid pos) s fun t =>
          t.arr = s.arr ∧ RecAtN t uid pos r.n ∧ (t.seq.frzNext.link = true ∨ t.seq.frzNext.feed = true) ∧ t.acc.wq = s.acc.wq) ∧
        (∀ l, x.1 = .acts l → Answers (.wavefrontIssue uid pos) s fun t =>
          RecAtN t uid pos (r.n + 1) ∧ t.acc.wq = s.acc.wq ∧ t.acc.data = s.acc.data ∧ t.chans = s.chans ∧ t.vec = s.vec ∧
          ∃ w, t.arr = { s.arr with waves := s.arr.waves ++ [w] } ∧ w.uid = uid ∧ w.pos = pos ∧ w.entry = s.clk.slot ∧
            w.acts = l ∧ w.opfmt = aFmt r ∧ w.tag = aTag r r.n ∧ w.epoch = rf r 3 (4 * aTag r r.n) 4 ∧ w.tfmt = rf r 4 7 4 ∧
            w.row = (tdAcc b (rf r 4 11 6) 0 + (r.n % aWrap r) * rf r 5 21 4) % 1024 ∧
            w.add = (decide (rf r 4 5 2 = 1) || (decide (rf r 4 5 2 = 2) && decide (aWrap r ≤ r.n))) ∧
            w.cols = (if rf r 5 25 7 = 0 then 128 else rf r 5 25 7))) ∧
      (∀ w l, waveNow s = some w → startedBefore b.uid r.pos w.uid w.pos = true → (actsOf (inTurn s uid pos) b r r.n).1 = .acts l →
        Answers (.wavefrontIssue uid pos) s fun t =>
          RecAtN t uid pos (r.n + 1) ∧ ((recOf s w.uid w.pos).isSome = true → Caused t 0x05) ∧
          ∃ x, t.arr = { s.arr with
              waves := (s.arr.waves.map fun y => if y = w then { y with acts := [] } else y) ++ [x] } ∧
            x.uid = uid ∧ x.pos = pos ∧ x.entry = s.clk.slot ∧ x.acts = l)) ∧
    (∀ w q, s.arr.waves = w :: q → w.entry + 256 ≤ s.clk.slot → s.seq.frozen = false →
      Answers .wavefrontWritePort s (fun t =>
        t.arr = { s.arr with waves := q, csums := t.arr.csums } ∧ EvGrows s t ∧ t.spad = s.spad ∧ t.chans = s.chans ∧
        t.acc.data = s.acc.data ∧ t.seams = s.seams) ∧
      (w.acts = [] ∨ recOf s w.uid w.pos = none → Answers .wavefrontWritePort s fun t =>
        t = { s with arr := { s.arr with waves := q }, pins := t.pins }) ∧
      (∀ b r, recOf s w.uid w.pos = some (b, r) → w.acts ≠ [] → w.cols ≤ 128 → s.acc.flips = [] →
        (w.opfmt ∈ [0, 1, 5] ∧ w.tfmt ∈ [8, 9] ∨ w.opfmt ∈ [2, 3, 4, 6, 7] ∧ w.tfmt ∈ [7, 10]) →
        let pair := isPair w.tfmt = true
        let row2 := (w.row + 1) % 1024
        let old := arrRow s w.row
        let old2 := arrRow s row2
        -- The column results: an integer sum, which the pieces of INT16 scale (R102), or a binary32 partial.
        let half (k v : Nat) : Int := if k = 0 then signedN 8 (v / 256) else (v % 256 : Nat)
        let product (a c : Nat) : Int :=
          if w.opfmt = 0 then signedN 8 a * signedN 8 c
          else if w.opfmt = 1 then signedN 4 a * signedN 4 c + signedN 4 (a / 16) * signedN 4 (c / 16)
          else half (w.piece / 4) a * half (w.piece % 4) c
        let sum (j : Nat) : Int := ((natsTo 128).map fun i =>
          match lget w.acts none i with | some a => product a (weightCode (lget w.met [] i) j) | none => 0).sum
        let int (j : Nat) : Int :=
          sum j * (if w.opfmt = 5 then 2 ^ (8 * ((1 - w.piece / 4 % 2) + (1 - w.piece % 2))) else 1)
        let flt (j : Nat) : W32 := (lget w.part none j).getD 0
        let clamp32 (i : Int) : Int := max (-2147483648) (min 2147483647 i)
        let clamp64 (i : Int) : Int := max (-9223372036854775808) (min 9223372036854775807 i)
        let code (second : Bool) : Nat :=
          if w.tfmt = 8 then 1 else if w.tfmt = 7 then 4 else (if w.tfmt = 9 then 2 else 5) + (if second then 1 else 0)
        let fits := old.2.1.stale = false ∧ old.2.1.fmt = code false ∧ (pair → old2.2.1.stale = false ∧ old2.2.1.fmt = code true)
        let arrives (t : State) := t.arr = { s.arr with waves := q, csums := t.arr.csums } ∧
          ((csumOn w = false ∧ t.arr.csums = s.arr.csums) ∨
            (csumOn w = true ∧ ∃ c, t.arr.csums = s.arr.csums ++ [c] ∧ c.due = w.entry + 264 ∧ c.uid = w.uid ∧ c.pos = w.pos ∧
              (w.opfmt = 0 → (c.mismatch = true ↔ ((natsTo 128).map sum).sum ≠ ((natsTo 128).map fun i =>
                match lget w.acts none i with
                | some a => signedN 8 a * signedN 16 (lget (lget w.met [] i) {} 0).csum
                | none => 0).sum))))
        let overwrites (t : State) := WavePut s t w
          (fun j a c =>
            (w.tfmt = 8 → a = BitVec.ofInt 32 (clamp32 (int j))) ∧
            (w.tfmt = 9 → a = BitVec.ofInt 32 (int j) ∧ c = BitVec.ofInt 32 (int j / 4294967296)) ∧
            (w.tfmt = 7 ∨ w.tfmt = 10 → a = flt j ∧ c = 0)) []
          (fun second m => m.fmt = code second ∧ m.epoch = w.tepoch ∧ m.passes = 0 ∧ m.stale = false ∧ m.poison = false ∧
            m.long = false ∧ ((∀ j, j < w.cols → w.tfmt = 8 → clamp32 (int j) = int j) → m.sat = false))
        (rowSeam s w.row = true ∨ pair ∧ rowSeam s row2 = true → Answers .wavefrontWritePort s fun t =>
          t = { s with arr := t.arr, seq := t.seq, ev := t.ev, pins := t.pins } ∧ arrives t ∧ Caused t 0x06 ∧ HaltsFor s t 3) ∧
        (rowSeam s w.row = false → (pair → rowSeam s row2 = false) →
          (w.add = false → Answers .wavefrontWritePort s fun t =>
            t = { s with arr := t.arr, acc := t.acc, pins := t.pins } ∧ arrives t ∧ overwrites t) ∧
          (w.add = true → ¬ fits → Answers .wavefrontWritePort s fun t =>
            t = { s with arr := t.arr, acc := t.acc, seq := t.seq, ev := t.ev, regs := t.regs, cyc := t.cyc, pins := t.pins } ∧
            arrives t ∧ Caused t 0x05 ∧ RegsKept s t [0x3014, 0x3018] ∧ overwrites t) ∧
          (w.add = true → fits → old.2.1.poison = true ∨ pair ∧ old2.2.1.poison = true → Answers .wavefrontWritePort s fun t =>
            t = { s with arr := t.arr, seq := t.seq, pins := t.pins } ∧ arrives t ∧ HaltsFor s t 4) ∧
          (w.add = true → fits → old.2.1.poison = false → (pair → old2.2.1.poison = false) → Answers .wavefrontWritePort s fun t =>
            t = { s with arr := t.arr, acc := t.acc, pins := t.pins } ∧ arrives t ∧
            let word (j : Nat) := lget old.1 0 j
            let total (j : Nat) := int64Of (word j) (lget old2.1 0 j)
            let saturates := ∃ j, j < w.cols ∧
              (w.tfmt = 8 ∧ clamp32 (i32 (word j) + int j) ≠ i32 (word j) + int j ∨
                w.tfmt = 9 ∧ clamp64 (total j + int j) ≠ total j + int j)
            WavePut s t w
              (fun j a c =>
                (w.tfmt = 8 → a = BitVec.ofInt 32 (clamp32 (i32 (word j) + int j))) ∧
                (w.tfmt = 9 → a = BitVec.ofInt 32 (clamp64 (total j + int j)) ∧
                  c = BitVec.ofInt 32 (clamp64 (total j + int j) / 4294967296)) ∧
                (w.tfmt = 7 → a = word j) ∧
                (w.tfmt = 10 → CompAdds w.ovfInf (word j) (lget old2.1 0 j) (flt j) a c))
              (if w.tfmt = 7 then (natsTo w.cols).map flt else [])
              (fun second m =>
                let was := if second then old2.2.1 else old.2.1
                m.fmt = was.fmt ∧ m.epoch = w.tepoch ∧ m.stale = false ∧ m.poison = false ∧
                m.passes = min 0xFFFFFF (was.passes + 1) ∧
                (w.tfmt = 8 ∨ w.tfmt = 9 → m.long = was.long ∧ (m.sat = true ↔ was.sat = true ∨ saturates)) ∧
                (w.tfmt = 7 → (m.long = true ↔ was.long = true ∨ was.passes = 65535)) ∧
                (w.tfmt = 10 → (m.long = true ↔ was.long = true ∨ was.passes = 0xFFFFFF))))))) ∧
    (∀ (v : AccWrite) j o, v.kind = .arr → v.lanes.length ≤ 128 → v.add.length = v.lanes.length → lget v.lanes none j = some o →
      accEntry (applyArr s v) v.row j =
        BitVec.ofNat 32 (f32Add v.rnd v.oi (accDraw s j) o (lget v.add 0 j)).bits) ∧
    (∀ c q, s.arr.csums = c :: q → c.due ≤ s.clk.slot → s.seq.frozen = false →
      (c.mismatch = false → Answers .csumCompare s fun t => t = { s with arr := { s.arr with csums := q }, pins := t.pins }) ∧
      (c.mismatch = true → c.tag < 8 → c.epoch < 16 → c.opfmt < 16 → c.slot < 65536 → Answers .csumCompare s fun t =>
        t = { s with arr := { s.arr with csums := q }, seq := t.seq, ev := t.ev, regs := t.regs, cyc := t.cyc, pins := t.pins } ∧
        Caused t 0x08 ∧ RegsKept s t [0x4008, 0x400C] ∧
        regF t 0x400C 0 32 = min 0xFFFFFFFF (regF s 0x400C 0 32 + 1) ∧
        (bitB (reg s 0x4008) 31 = true → reg t 0x4008 = reg s 0x4008) ∧
        (bitB (reg s 0x4008) 31 = false → bitB (reg t 0x4008) 31 = true ∧ regF t 0x4008 24 3 = c.tag ∧
          regF t 0x4008 20 4 = c.epoch ∧ regF t 0x4008 16 4 = c.opfmt ∧ regF t 0x4008 0 16 = c.slot) ∧
        (bitB (reg s 0x4000) 1 = false → t.seq = s.seq) ∧ (bitB (reg s 0x4000) 1 = true → HaltsFor s t 5))) ∧
    (∀ uid pos b r, RecNow s uid pos 2 b r → r.n < dRows r → b.start + rf r 1 16 16 + r.n ≤ s.clk.slot → r.lost = false →
      (derrickBusy s b r = true → Answers (.derrickRow uid pos) s fun t =>
        t = { s with seq := t.seq, ev := t.ev, regs := t.regs, cyc := t.cyc, pins := t.pins } ∧ Caused t 0x05 ∧
        RegsKept s t [0x3014, 0x3018] ∧ RecAtN t uid pos (dRows r)) ∧
      (derrickBusy s b r = false →
        let x := feedRow (inTurn s uid pos) b r (rf r 0 18 6) r.n 128 true true 1
        (x.1 = .nothing → Answers (.derrickRow uid pos) s fun t => t.arr = s.arr ∧ RecAtN t uid pos (r.n + 1)) ∧
        (x.1 = .wait → Answers (.derrickRow uid pos) s fun t =>
          t.arr = s.arr ∧ RecAtN t uid pos r.n ∧ (t.seq.frzNext.link = true ∨ t.seq.frzNext.feed = true)) ∧
        (∀ bs bad, x.1 = .row bs bad → Answers (.derrickRow uid pos) s fun t =>
          RecAtN t uid pos (r.n + 1) ∧ t.acc = s.acc ∧ t.seams = s.seams ∧ t.arr.planes = s.arr.planes ∧
          t.arr.waves = s.arr.waves ∧ t.arr.ldPlane = rf r 0 15 3 ∧ t.arr.lastRowSlot = s.clk.slot ∧
          (t.arr.active = true ↔ r.n + 1 < dRows r) ∧
          ∃ w p, t.arr.sweeps = s.arr.sweeps ++ [w] ∧ w.put = some p ∧ w.row = r.n ∧ w.plane = rf r 0 15 3 ∧
            w.slot = s.clk.slot ∧ w.uid = uid ∧ w.pos = pos ∧ w.epoch = rf r 0 4 4 ∧ (w.last = true ↔ r.n + 1 = dRows r) ∧
            p.stamp = rf r 0 4 4 ∧ p.stale = false ∧ p.poison = bad ∧
            (bad = true → p.data = (planeRow s (rf r 0 15 3) r.n).data ∧ p.csum = (planeRow s (rf r 0 15 3) r.n).csum) ∧
            (bad = false → ∀ j, j < bs.length → mget p.data 0 j = (lget bs 0 j).toNat))))

/-- Derived from R97, R98, R105, R106, R108 and R460: a drain that its first read finds malformed halts with BAD_FORMAT; one whose target
has no room waits with DRAIN; and a total whose rows pass their check is delivered as DR_DEST says, to the scratchpad through the writer, to a
vector register, to an accumulator row or nowhere, gives its maximum and sum to the statistics row under DR_STAT, and leaves its rows
unwritten under DR_FREE (which later totals make a pair drain is the model's reading, log 122).
So are the order of read ports in a slot (log 33), a poisoned total (log 41), the kind taken from the first row (log 42) and the zeros of the
statistics row (log 43). -/
def Obligations.DrainsReadTheirTotals : Prop :=
  ∀ (s : State) (uid pos : Nat) (b : Bench) (r : Rec),
    RecNow s uid pos 3 b r → r.n < drRows r → drDue b r r.n ≤ s.clk.slot →
    let fmt := (accMeta s (drRow b r 0)).fmt
    let pair := if r.n = 0 then fmt == 2 || fmt == 5 else r.pair
    (r.n = 0 → drBad b r fmt = true → Answers (.drainRead uid pos) s fun t =>
      t = { s with seq := t.seq, ev := t.ev, pins := t.pins } ∧ Caused t 0x04 ∧ HaltsFor s t 2 ∧ RecAtN t uid pos (drRows r)) ∧
    (r.n ≠ 0 ∨ drBad b r fmt = false →
      (drDest r = 0 → writerBlocked s b (drOtd r) = true → Answers (.drainRead uid pos) s fun t =>
        t = { s with seq := t.seq, pins := t.pins } ∧ t.seq.frzNext.drain = true ∧ RecAtN t uid pos r.n) ∧
      (drDest r ≠ 0 ∨ writerBlocked s b (drOtd r) = false → Answers (.drainRead uid pos) s fun t =>
        RecAtN t uid pos (r.n + 1) ∧ EvGrows s t ∧ t.arr = s.arr ∧ t.chans = s.chans ∧ t.seams = s.seams ∧
        t.gate = s.gate ∧ t.scan = s.scan) ∧
      (drDest r ≠ 0 → s.acc.portSlot = s.clk.slot → s.acc.reads + (if pair then 2 else 1) > 4 →
        Answers (.drainRead uid pos) s fun t =>
          t = { s with seq := t.seq, ev := t.ev, regs := t.regs, cyc := t.cyc, pins := t.pins } ∧ Caused t 0x05 ∧
          RegsKept s t [0x3014, 0x3018] ∧ RecAtN t uid pos (r.n + 1)) ∧
      (let row := if pair then drRow b r (2 * r.n) else drRow b r r.n
       let row2 := if pair then drRow b r (2 * r.n + 1) else row
       let m := accMeta s row
       let m2 := accMeta s row2
       let expect := effEp b (drTd r) (rf r 0 1 4)
       let lo (j : Nat) := accEntry s row j
       let wide := pair = true ∧ m.fmt ∈ [1, 2, 3]
       let val (j : Nat) : FVal :=
         if wide then FVal.ofInt (int64Of (lo j) (accEntry s row2 j)) else if pair = false ∧ m.fmt = 1 then FVal.ofInt (i32 (lo j)) else f32 (lo j)
       let word (j : Nat) : W32 := if wide then BitVec.ofNat 32 (fmtEncode 7 .rne false 0 (val j)).bits else lo j
       let words := (natsTo (drCols r)).map word
       let codes := (natsTo (drCols r)).map fun j =>
         (fmtEncode (tdFmt b (drOtd r)) (benchRnd b b.crnd) b.ovfInf ((lfsrDraw (genOf s siteWr j)).toNat % 65536) (val j)).bits
       let out := packCodes (tdFmt b (drOtd r)) codes
       portsTaken s uid pos + (if pair then 2 else 1) ≤ 4 → s.acc.flips = [] → rowSeam s row = false → rowSeam s row2 = false →
       m.stale = false → m2.stale = false → m.fmt ≠ 0 → m2.fmt ≠ 0 → m.epoch = expect → m2.epoch = expect → m.poison = false →
       m2.poison = false → (pair = false → m.fmt ≠ 2 ∧ m.fmt ≠ 3) →
        (drDest r ≠ 0 → Answers (.drainRead uid pos) s fun t =>
          t = { s with acc := t.acc, vec := t.vec, seq := t.seq, free := s.free + 1, gen := t.gen, regs := t.regs, cyc := t.cyc
                       ev := t.ev, pins := t.pins } ∧ RegsKept s t [0x4404] ∧
          ∃ (v : VRes) (x y : AccWrite),
            t.vec = { s.vec with res := s.vec.res ++ (if drDest r = 1 then [v] else []) } ∧
            t.acc = { s.acc with
              portSlot := s.clk.slot
              reads := (if s.acc.portSlot = s.clk.slot then s.acc.reads else 0) + (if pair then 2 else 1)
              md := t.acc.md
              wq := s.acc.wq ++ (if drDest r = 2 then [x] else []) ++ (if drStat r then [y] else []) } ∧
            (∀ k, accMeta t k = if rf r 1 7 1 = 1 ∧ (k = row ∨ k = row2) then { accMeta s k with fmt := 0, passes := 0 }
              else accMeta s k) ∧
            v.due = s.clk.slot + 1 ∧ v.dst = .v (drOtd r + r.n) ∧ v.lanes = words.map some ∧
            x.due = s.clk.slot + 1 ∧ x.row = tdAcc b (drOtd r) r.n ∧ x.kind = .row ∧ x.uid = uid ∧ x.pos = pos ∧
            x.md = { fmt := 4, epoch := effEp b (drOtd r) (rf r 0 1 4), stale := false } ∧ x.lanes.length = drCols r ∧
            (∀ j, j < drCols r → lget x.lanes none j =
              if wide ∨ pair = false ∧ m.fmt = 1 then
                some (BitVec.ofNat 32 (fmtEncode 7 (benchRnd b b.arnd) b.ovfInf (accDraw s j) (val j)).bits)
              else some (lo j)) ∧
            y.due = s.clk.slot + 8 ∧ y.row = tdAcc b (drStd r) 0 ∧ y.kind = .row ∧ y.uid = uid ∧ y.pos = pos ∧
            y.md = { fmt := 7, epoch := effEp b (drStd r) (rf r 0 1 4), stale := false } ∧ y.lanes.length = 128 ∧
            (∀ j, j < 128 → j ≠ 2 * r.n → j ≠ 2 * r.n + 1 → lget y.lanes none j = if 2 * drRows r ≤ j then some 0 else none) ∧
            ∃ top sum, (2 * r.n < 128 → lget y.lanes none (2 * r.n) = some top ∧ lget y.lanes none (2 * r.n + 1) = some sum) ∧
              (pair = false ∧ m.fmt = 1 → (∀ w ∈ words, i32 w ≤ i32 top) ∧ top ∈ words ∧
                sum = BitVec.ofInt 32 (max (-2147483648) (min 2147483647 (words.map i32).sum))) ∧
              (pair = true ∨ m.fmt ≠ 1 → sum = (treeSum b.ovfInf words).1 ∧
                ((∃ w ∈ words, (f32 w).isNan = true) → top = 0x7FC00000) ∧
                ((∀ w ∈ words, (f32 w).isNan = false) → top ∈ words ∧ ∀ w ∈ words, ltX (f32 top) (f32 w) = false))) ∧
        (drDest r = 0 → writerBlocked s b (drOtd r) = false → tdKind b (drOtd r) = 1 → Answers (.drainRead uid pos) s fun t =>
          t.spad = (slotWriteBytes s uid pos (tdSpad s b (drOtd r) r.n / 32) ((out.length + 31) / 32) out).spad ∧
          t.chans = s.chans ∧ t.rings = s.rings ∧ t.vec = s.vec ∧ t.acc.data = s.acc.data ∧
          (drStat r = false → t.acc.wq = s.acc.wq))))

-- The gate pipe.

/-- Derived from R27, R97, R112, R115, R135, R136, R137, R142, R257, R458 and R462: a gate record reads the rows of its parameter block, one
in a slot; a stream starts where its seam takes part and the pipe is free, is left out where its seam is held, and becomes spoil where
an earlier stream still takes the slot; and a step commits: what it wrote becomes the committed copy and SEAM_STEP advances by one.
The order of read ports in a slot (log 33), and that a start not performed for its spacing has dispatched the chunk (log 124), are the model's choices. -/
def Obligations.GateStreamsStartAndCommit : Prop :=
  ∀ (s : State) (uid pos : Nat) (b : Bench) (r : Rec), RecNow s uid pos 4 b r →
    (r.par.length < gParRows r → b.start + gIssue r - 13 + r.par.length ≤ s.clk.slot →
      let row := tdAcc b (rf r 2 11 6) (gParRow r r.par.length)
      (¬ PortLeft s uid pos → Answers (.gateParamRead uid pos) s fun t =>
        t = { s with seq := t.seq, ev := t.ev, regs := t.regs, cyc := t.cyc, pins := t.pins } ∧ Caused t 0x05 ∧
        RegsKept s t [0x3014, 0x3018] ∧ RecHolds t uid pos (r.par ++ [[]])) ∧
      (PortLeft s uid pos → s.acc.flips = [] → rowSeam s row = false → Answers (.gateParamRead uid pos) s fun t =>
        t = { s with seq := t.seq, ev := t.ev, regs := t.regs, cyc := t.cyc, pins := t.pins, acc := { s.acc with
          portSlot := s.clk.slot, reads := (if s.acc.portSlot = s.clk.slot then s.acc.reads else 0) + 1 } } ∧
        RegsKept s t [0x3014, 0x3018] ∧ RecHolds t uid pos (r.par ++ [(natsTo 128).map fun j => accEntry s row j]) ∧
        ((accMeta s row).stale = true ∨ (accMeta s row).fmt = 0 ∨
          (accMeta s row).epoch ≠ effEp b (rf r 2 11 6) (rf r 2 7 4) → Caused t 0x05) ∧
        ((accMeta s row).poison = true → seqActive t = true → t.seq.haltReq.isSome = true))) ∧
    (r.n < gN r → r.par.length = gParRows r → gDue b r r.n ≤ s.clk.slot →
      let k := gSeam r r.n
      let free := s.gate.hasLast = true → s.gate.lastStart + s.gate.lastP ≤ s.clk.slot
      (k ∈ b.held → k ∉ b.disp → Answers (.gateStreamStart uid pos) s fun t =>
        t = { s with seq := { s.seq with benches := t.seq.benches }, pins := t.pins } ∧ RecAtN t uid pos (r.n + 1) ∧
        ∃ q, recOf t uid pos = some q ∧ r.n ∈ q.2.dead) ∧
      (SeamJoins s b k → free → r.lost = false → Answers (.gateStreamStart uid pos) s fun t =>
        t = { s with gate := t.gate, seams := t.seams, seq := { s.seq with benches := t.seq.benches }, pins := t.pins } ∧
        RecAtN t uid pos (r.n + 1) ∧ (∀ m, m ≠ k → seam t m = seam s m) ∧
        (k ∉ b.disp → seam t k = { seam s k with st := 5, held := false, owner := uid + 1 } ∧
          ∃ x, benchOf t uid = some x ∧ k ∈ x.disp) ∧
        (k ∈ b.disp → seam t k = seam s k) ∧
        ∃ x : GateStep, t.gate = { s.gate with
            hasLast := true, lastStart := s.clk.slot, lastP := cellP (gCell r), steps := s.gate.steps ++ [x] } ∧
          x.uid = uid ∧ x.pos = pos ∧ x.k = r.n ∧ x.seam = k ∧ x.g = s.clk.slot ∧ x.bankS = s.gate.bankSig ∧
          x.bankT = s.gate.bankTnh ∧ (x.audit = true ↔ rf r 3 18 2 ≠ 0 ∧ rf r 3 12 6 = r.n)) ∧
      (SeamJoins s b k → ¬ free → Answers (.gateStreamStart uid pos) s fun t =>
        Caused t 0x05 ∧ RecAtN t uid pos (r.n + 1) ∧ (∀ x ∈ t.gate.steps, x ∈ s.gate.steps) ∧
        (∃ q, recOf t uid pos = some q ∧ r.n ∈ q.2.dead) ∧ t.gate.lastStart = s.gate.lastStart ∧
        (seam t k).step = (seam s k).step ∧ (seam t k).cur = (seam s k).cur)) ∧
    (∀ x, firstStep s b r = some x → x.g + 25 ≤ s.clk.slot →
      (gateOutBlocked s b r = true → Answers (.gateCommit uid pos) s fun t =>
        t = { s with seq := t.seq, pins := t.pins } ∧ t.seq.frzNext.drain = true ∧ t.gate.steps = s.gate.steps) ∧
      (rf r 1 0 2 = 0 →
        let m := seam s x.seam
        Answers (.gateCommit uid pos) s fun t =>
          t = { s with gate := { s.gate with steps := t.gate.steps }, acc := t.acc, seams := t.seams, rings := t.rings
                       vec := { s.vec with vsts := t.vec.vsts }
                       seq := { s.seq with benches := t.seq.benches }, ev := t.ev, pins := t.pins } ∧
          (∀ y, y ∈ t.gate.steps ↔ y ∈ s.gate.steps ∧ (y.uid, y.pos, y.k) ≠ (x.uid, x.pos, x.k)) ∧
          (∃ q, recOf t uid pos = some q ∧ x.k ∈ q.2.dead) ∧
          (seam t x.seam).cur = !m.cur ∧ (seam t x.seam).step = m.step + 1 ∧ (seam t x.seam).shadow = [] ∧
          (∀ k, k ≠ x.seam → (seam t k).step = (seam s k).step ∧ (seam t k).cur = (seam s k).cur) ∧
          (∀ i j, i < m.nrows → j < 128 → accEntry t (seamRow m (!m.cur) i) j =
            (mget m.shadow none (i * 128 + j)).getD (accEntry s (seamRow m m.cur i) j)) ∧
          (∀ row j, j < 128 → (∀ i, i < m.nrows → row ≠ seamRow m (!m.cur) i) → accEntry t row j = accEntry s row j)))

-- The scan stage and the special function unit.

/-- Derived from R97, R112, R115, R142, R153, R156, R157, R158, R160, R193, R195 and R462: a scan record reads its parameter rows; a
stream's chunk is dispatched where its seam takes part; each step reads its row, and one without a port makes the chunk spoil; and a
chunk commits all its steps at once, and is counted.
The order of read ports in a slot (log 33), the lanes of the set-up (log 17) and its slots (log 125) are the model's choices. -/
def Obligations.ScanChunksRunAndCommit : Prop :=
  ∀ (s : State) (uid pos : Nat) (b : Bench) (r : Rec), RecNow s uid pos 5 b r →
    (r.par.length < sParRows r → b.start + sIssue r - 24 + r.par.length ≤ s.clk.slot →
      let n := r.par.length
      let row := tdAcc b (rf r 2 12 6) n
      let setups := if n = 4 then s.scan.setups ++ [{ uid := uid, pos := pos, req := s.clk.slot + 4 }] else s.scan.setups
      (¬ PortLeft s uid pos → Answers (.scanParamRead uid pos) s fun t =>
        t = { s with seq := t.seq, ev := t.ev, regs := t.regs, cyc := t.cyc, scan := { s.scan with setups := setups }, pins := t.pins } ∧
        Caused t 0x05 ∧ RegsKept s t [0x3014, 0x3018] ∧ RecHolds t uid pos (r.par ++ [[]])) ∧
      (PortLeft s uid pos → s.acc.flips = [] → rowSeam s row = false → Answers (.scanParamRead uid pos) s fun t =>
        t = { s with seq := t.seq, ev := t.ev, regs := t.regs, cyc := t.cyc, scan := { s.scan with setups := setups }, pins := t.pins
                     acc := { s.acc with
          portSlot := s.clk.slot, reads := (if s.acc.portSlot = s.clk.slot then s.acc.reads else 0) + 1 } } ∧
        RegsKept s t [0x3014, 0x3018] ∧ RecHolds t uid pos (r.par ++ [(natsTo 128).map fun j => accEntry s row j]))) ∧
    (r.n < sN r → r.par.length = sParRows r → sDue b r r.n ≤ s.clk.slot →
      let k := sSeam r r.n
      (k ∈ b.held → k ∉ b.disp → Answers (.scanChunkDispatch uid pos) s fun t =>
        t = { s with seq := { s.seq with benches := t.seq.benches }, pins := t.pins } ∧ RecAtN t uid pos (r.n + 1) ∧
        ∃ q, recOf t uid pos = some q ∧ r.n ∈ q.2.dead) ∧
      (SeamJoins s b k → r.lost = false → Answers (.scanChunkDispatch uid pos) s fun t =>
        t = { s with scan := t.scan, seams := t.seams, seq := { s.seq with benches := t.seq.benches }, pins := t.pins } ∧
        RecAtN t uid pos (r.n + 1) ∧ (∀ m, m ≠ k → seam t m = seam s m) ∧
        (k ∉ b.disp → seam t k = { seam s k with st := 5, held := false, owner := uid + 1 }) ∧
        (k ∈ b.disp → seam t k = seam s k) ∧
        ∃ c : ScanChunk, t.scan = { s.scan with
            chunks := s.scan.chunks ++ [c], lastSeam := k, lastUid := uid, lastPos := pos, lastK := r.n, lastNext := 0 } ∧
          c.uid = uid ∧ c.pos = pos ∧ c.k = r.n ∧ c.seam = k ∧ c.s = s.clk.slot ∧ c.e = (seam s k).nelig ∧ c.steps = []) ∧
      (SeamJoins s b k → r.lost = true → Answers (.scanChunkDispatch uid pos) s fun t =>
        RecAtN t uid pos (r.n + 1) ∧ (∀ c ∈ t.scan.chunks, c ∈ s.scan.chunks) ∧
        regF t 0x4F0C 0 32 = min 0xFFFFFFFF (regF s 0x4F0C 0 32 + 1) ∧ (seam t k).step = (seam s k).step)) ∧
    (∀ c, scanNextRead s b r = some c → c.s + scanR r c.e * c.steps.length ≤ s.clk.slot →
      let row := tdAcc b (rf r 1 1 6) (c.k * sLen r + c.steps.length)
      (¬ PortLeft s uid pos → Answers (.scanStep uid pos) s fun t =>
        Caused t 0x05 ∧ (∀ x ∈ t.scan.chunks, x ∈ s.scan.chunks ∧ (x.uid, x.pos, x.k) ≠ (uid, pos, c.k)) ∧
        regF t 0x4F0C 0 32 = min 0xFFFFFFFF (regF s 0x4F0C 0 32 + 1) ∧ (∃ q, recOf t uid pos = some q ∧ c.k ∈ q.2.dead) ∧
        (∀ m, (seam t m).step = (seam s m).step) ∧ t.acc.data = s.acc.data ∧ t.arr = s.arr ∧ t.rings = s.rings) ∧
      (PortLeft s uid pos → sMode r ≠ 2 → s.acc.flips = [] → rowSeam s row = false → Answers (.scanStep uid pos) s fun t =>
        t = { s with seq := t.seq, ev := t.ev, regs := t.regs, cyc := t.cyc, scan := t.scan, pins := t.pins, acc := { s.acc with
          portSlot := s.clk.slot, reads := (if s.acc.portSlot = s.clk.slot then s.acc.reads else 0) + 1 } } ∧
        RegsKept s t [0x3014, 0x3018] ∧ RecAtN t uid pos r.n ∧
        ∃ x ∈ t.scan.chunks, (x.uid, x.pos, x.k, x.seam) = (uid, pos, c.k, c.seam) ∧
          ∃ y, x.steps = c.steps ++ [y] ∧ y.r = s.clk.slot ∧
            y.x = ((accMeta s row).fmt, (natsTo 128).map fun j => accEntry s row j))) ∧
    (∀ c, firstChunk s b r = some c → c.steps.length = sLen r → scanCommitDue r c ≤ s.clk.slot →
      let m := seam s c.seam
      Answers (.scanCommit uid pos) s fun t =>
        t = { s with scan := { s.scan with chunks := t.scan.chunks }, acc := t.acc, seams := t.seams, rings := t.rings
                     vec := { s.vec with vsts := t.vec.vsts }, gen := t.gen
                     seq := { s.seq with benches := t.seq.benches }, ev := t.ev, regs := t.regs, cyc := t.cyc, pins := t.pins } ∧
        (c.e ≠ 0 ∨ sOut r < 2 → t.gen = s.gen ∧ RegsKept s t [0x4F08]) ∧ RegsKept s t [0x4F00, 0x4F08] ∧ regF t 0x4F08 0 32 = min 0xFFFFFFFF (regF s 0x4F08 0 32 + 1) ∧
        (∀ y, y ∈ t.scan.chunks ↔ y ∈ s.scan.chunks ∧ (y.uid, y.pos, y.k) ≠ (uid, pos, c.k)) ∧
        (∃ q, recOf t uid pos = some q ∧ c.k ∈ q.2.dead) ∧
        (seam t c.seam).cur = !m.cur ∧ (seam t c.seam).step = m.step + BitVec.ofNat 32 (sLen r) ∧ (seam t c.seam).shadow = [] ∧
        (∀ k, k ≠ c.seam → (seam t k).step = (seam s k).step ∧ (seam t k).cur = (seam s k).cur) ∧
        (∀ i j, i < m.nrows → j < 128 → accEntry t (seamRow m (!m.cur) i) j =
          (mget m.shadow none (i * 128 + j)).getD (accEntry s (seamRow m m.cur i) j)) ∧
        ∀ row j, j < 128 → (∀ i, i < m.nrows → row ≠ seamRow m (!m.cur) i) → accEntry t row j = accEntry s row j)

/-- Derived from R168, R174, R193, R195 and R199: the special function unit delivers the request that is due first: its flags join SFU_STICKY
and the requester's sticky register, and its lanes go to the vector register, the accumulator row, or the step of the scan stage, that asked. -/
def Obligations.SpecialFunctionsDeliverInTheirSlot : Prop :=
  ∀ (s u : State) (q : SfuReq), sfuTake s = some (q, u) → q.due ≤ s.clk.slot → s.seq.frozen = false →
    Answers .sfuResult s (fun t =>
      t.sfu = { s.sfu with reqs := s.sfu.reqs.filter (· != q) } ∧ t.arr = s.arr ∧ t.gate = s.gate ∧ t.spad = s.spad ∧
      t.rings = s.rings ∧ t.vec.v = s.vec.v ∧ EvGrows s t ∧
      (∀ k, k < 5 → k ≠ 3 → (sfuFlags q).getLsbD k = true → (reg t 0x5004).getLsbD k = true) ∧
      (q.off = true → (reg t 0x5004).getLsbD 6 = true) ∧ (∀ k, (reg s 0x5004).getLsbD k = true → (reg t 0x5004).getLsbD k = true)) ∧
    (∀ d, q.who = .vec d → d < 256 → Answers .sfuResult s fun t =>
      t.vec.res = s.vec.res ++ [⟨q.due, q.ord, .v (d % 32), q.lanes, q.uid, q.pos⟩] ∧ t.scan = s.scan ∧ t.acc = s.acc ∧
      t.seams = s.seams) ∧
    (∀ d b r, q.who = .vec d → d / 256 = 1 → recOf s q.uid q.pos = some (b, r) → Answers .sfuResult s fun t =>
      t.vec.res = s.vec.res ∧ t.scan = s.scan ∧ t.seams = s.seams ∧
      ∃ x : AccWrite, t.acc = { s.acc with wq := s.acc.wq ++ [x] } ∧ x.due = s.clk.slot ∧ x.row = q.row ∧ x.kind = .row ∧
        x.uid = q.uid ∧ x.pos = r.pos ∧ x.lanes = q.lanes ∧ x.md = { fmt := 4, epoch := vEp b r (d / 64 % 4), stale := false }) ∧
    (∀ k n c, (q.who = .scanSoft k n ∨ q.who = .scanExp k n) → chunkOf s q.uid q.pos k = some c → n < c.steps.length →
      Answers .sfuResult s fun t =>
        t.acc = s.acc ∧ t.seams = s.seams ∧ t.vec = s.vec ∧ t.scan.setups = s.scan.setups ∧
        ∃ x, chunkOf t q.uid q.pos k = some x ∧ x.steps.length = c.steps.length ∧
          (∀ i, i ≠ n → lget x.steps { r := 0 } i = lget c.steps { r := 0 } i) ∧
          (q.who = .scanSoft k n → (lget x.steps { r := 0 } n).dlt = q.lanes.map fun v => v.getD 0) ∧
          (q.who = .scanExp k n → (lget x.steps { r := 0 } n).a = q.lanes.map fun v => v.getD 0))

-- The vector engine.

/-- Derived from R169, R171, R173, R174, R180, R181, R182, R183 and R423: recipes. A record starts its recipe with VL 128 and its
registers and flags cleared, or slips while another runs; END ends it and counts it; NOP passes; LOOP repeats or skips its body; SETVL
sets VL; VCOMMIT is on its way for the end of the next slot; and a word that fails its parity issues nothing.
That SETVL above 128 sets 128 is the model's reading (log 54). -/
def Obligations.RecipesStartGoOnAndEnd : Prop :=
  ∀ s : State,
    (∀ uid pos b r, RecNow s uid pos 6 b r → r.n = 0 → r.slipped = false → vDue b r ≤ s.clk.slot →
      let busy := s.vec.run.isSome = true ∨ s.vec.hasEnd = true ∧ s.clk.slot ≤ s.vec.endSlot
      (busy → Answers (.recipeStart uid pos) s fun t =>
        t = { s with seq := t.seq, ev := t.ev, regs := t.regs, cyc := t.cyc, pins := t.pins } ∧ Caused t 0x05 ∧
        RegsKept s t [0x3014, 0x3018] ∧ RecAtN t uid pos 1) ∧
      (¬ busy → Answers (.recipeStart uid pos) s fun t =>
        t = { s with pins := t.pins, seq := { s.seq with benches := t.seq.benches }, vec := { s.vec with
          run := some ⟨uid, pos, vRcp r, (mget s.vec.dir {} (vRcp r)).start, s.clk.slot, []⟩
          vl := 128, k := [0, 0, 0, 0], li := [0, 0], flags := [], lastEntry := vRcp r } } ∧
        ∃ q, recOf t uid pos = some q ∧ q.2.slipped = true)) ∧
    (∀ run b r, VNow s 0x00 run b r → Answers .recipeEnd s fun t =>
      t = { s with pins := t.pins, regs := t.regs, cyc := t.cyc, seq := { s.seq with benches := t.seq.benches }, vec := { s.vec with
        run := none, endSlot := s.clk.slot, hasEnd := true, lastEntry := run.entry, lastPc := run.pc, li := [0, 0]
        ending := s.vec.ending ++ [(run.uid, run.pos)] } } ∧
      RecAtN t run.uid run.pos 1 ∧ RegsKept s t [0x4820] ∧
      regF t 0x4820 0 32 = min 0xFFFFFFFF (regF s 0x4820 0 32 + 1)) ∧
    (∀ run b r, VNow s 0x01 run b r → Answers .nop s fun t => t = { vGo (vTurn s b r) run with pins := t.pins }) ∧
    (∀ run b r, VNow s 0x02 run b r →
      let w := vWord s run
      let count := if vF w 46 2 = 0 then vF w 48 10 else if vF w 46 2 = 1 then rf r 3 22 10 else rf r 3 12 10
      (count = 0 → Answers .recipeLoop s fun t =>
        t = { vAdvance s run run.loops (run.pc + 1 + vF w 37 9) with pins := t.pins }) ∧
      (0 < count → 0 < vF w 37 9 → run.pc < 511 → Answers .recipeLoop s fun t =>
        t = { s with pins := t.pins, vec := { s.vec with
          run := some { run with pc := run.pc + 1, loops := run.loops ++ [⟨run.pc + 1, vF w 37 9, count, 0⟩]
                                 next := s.clk.slot + 1 }
          li := loopIdx (run.loops ++ [⟨run.pc + 1, vF w 37 9, count, 0⟩]), lastPc := run.pc, lastEntry := run.entry } })) ∧
    (∀ run b r, VNow s 0x03 run b r → Answers .setvl s fun t =>
      let u := vTurn s b r
      let w := vWord s run
      let v : State := { u with vec := { u.vec with vl := t.vec.vl } }
      t = { vGo v run with pins := t.pins } ∧
      t.vec.vl = (if vF w 46 2 = 3 then min 128 (lget u.vec.k 0 (vF w 48 2)) else min 128 (vF w 48 10))) ∧
    (∀ run b r, VNow s 0x04 run b r →
      let u := vTurn s b r
      let k := vSeam r (vF (vWord s run) 48 1)
      (mget b.skips 0 k ≠ 0 → Answers .vcommit s fun t =>
        t = { vGo u run with seq := { u.seq with benches := t.seq.benches }, pins := t.pins } ∧
        t.vec.commits = u.vec.commits ∧
        ∀ y, benchOf u b.uid = some y → ∃ z, benchOf t b.uid = some z ∧ mget z.skips 0 k = mget b.skips 0 k - 1) ∧
      (mget b.skips 0 k = 0 → (∃ y, benchOf u b.uid = some y ∧ k ∈ y.disp) → Answers .vcommit s fun t =>
        let v : State := { u with vec := { u.vec with commits := u.vec.commits ++ [⟨u.clk.slot + 1, b.uid, r.pos, k⟩] } }
        t = { vGo v run with pins := t.pins }) ∧
      (mget b.skips 0 k = 0 → (∃ y, benchOf u b.uid = some y ∧ k ∉ y.disp ∧ k ∈ y.held) → Answers .vcommit s fun t =>
        t = { vGo u run with pins := t.pins })) ∧
    let fails (c : Instr) (op : Nat) : Prop :=
      ∀ run, s.vec.run = some run → vF (vWord s run) 58 6 = op → vWordBad s run = true → run.next ≤ s.clk.slot → seqActive s = true →
        s.seq.frozen = false → Answers c s fun t =>
          Caused t 0x11 ∧ HaltsFor s t 4 ∧ RegsKept s t [0xE040] ∧ t.vec = (vGo s run).vec ∧ t.acc = s.acc ∧ t.seams = s.seams
    fails .recipeEnd 0x00 ∧ fails .nop 0x01 ∧ fails .recipeLoop 0x02 ∧ fails .setvl 0x03 ∧ fails .vcommit 0x04 ∧ fails .vld 0x08 ∧
    fails .vst 0x09 ∧ fails .vmov 0x0A ∧ fails .vaddi 0x10 ∧ fails .vadd 0x20 ∧ fails .vcmpi 0x30 ∧ fails .mcnt 0x36 ∧
    fails .vcprs 0x3A ∧ fails .vsfu 0x3F

/-- Derived from R170, R174, R177, R178, R179, R182, R184, R186, R187, R188, R189 and R226: a copy, a select and the reductions reach every
acting lane; VCPRS packs the lanes of its mask from lane Kn on and advances Kn; VEXPD spreads them; VSFU makes a request of its slot;
VLD delivers its row, waits for it, or halts; VST leaves its row to the writer.
The FMT that a copy stamps is a free value (log 18); what a VST with a held seam does (log 19), the port of a write in which no lane acts (log 50), the
ports of seam rows (log 51), flags at issue (log 52) and the order of read ports in a slot (log 33) are the model's readings. -/
def Obligations.RowsMoveThroughTheVectorEngine : Prop :=
  VIssues .vmov 0x0A 1 2 none (fun _ _ _ l k => (vIn l 0 k, 0)) ∧
  VIssues .vsel 0x0B 2 2 none (fun v _ w l k => (vIn l (if (vMaskOp v (vF w 14 10)).getLsbD k then 0 else 1) k, 0)) ∧
  VIssues .vrsumi 0x3C 1 8 (some 1) (fun v _ w l _ =>
    sat32 ((((vTaking v w l).filterMap id).map i32).foldl (· + ·) 0)) ∧
  VIssues .vrmaxi 0x3D 1 8 (some 1) (fun v _ w l _ =>
    (BitVec.ofInt 32 (match ((vTaking v w l).filterMap id).map i32 with | [] => 0 | x :: q => q.foldl max x), 0)) ∧
  VIssues .vrsumf 0x3E 1 8 (some 4) (fun v b w l _ => treeLanes b.ovfInf (vTaking v w l)) ∧
  ∀ (s : State) (run : Running) (b : Bench) (r : Rec),
    let w := vWord s run
    let u := vTurn s b r
    let d := vF w 44 10
    (VNow s 0x3A run b r → ∀ l, (vSrcs u b r w 1).1 = some l → d < 256 → Answers .vcprs s fun t =>
      let v := (vSrcs u b r w 1).2
      let kn := vF w 14 10 % 4
      let k0 := lget v.vec.k 0 kn
      let ls := (natsTo 128).filter fun i => decide (i < u.vec.vl) && (vMaskOp u (vF w 24 10)).getLsbD i
      t = { v with vec := t.vec, regs := t.regs, cyc := t.cyc, pins := t.pins } ∧ RegsKept v t [0x4804, 0x4824] ∧
      t.vec.run = (vGo v run).vec.run ∧ t.vec.flags = v.vec.flags ∧
      regF t 0x4824 0 32 = min 0xFFFFFFFF (regF v 0x4824 0 32 + (k0 + ls.length - 128)) ∧
      (128 < k0 + ls.length → bitB (reg t 0x4804) 6 = true) ∧ (k0 + ls.length ≤ 128 → reg t 0x4804 = reg v 0x4804) ∧
      ∃ x y, t.vec.res = v.vec.res ++ [x, y] ∧ y.due = v.clk.slot + 3 ∧ y.dst = .k kn ∧
        lget y.lanes none 0 = some (BitVec.ofNat 32 (min 128 (k0 + ls.length))) ∧
        x.due = v.clk.slot + 3 ∧ x.dst = .v (d % 32) ∧
        ∀ j, j < 128 → lget x.lanes none j =
          if k0 ≤ j ∧ j < k0 + ls.length then some (vIn l 0 (lget ls 0 (j - k0))) else none) ∧
    (VNow s 0x3B run b r → ∀ l, (vSrcs u b r w 1).1 = some l → Answers .vexpd s fun t =>
      let v := (vSrcs u b r w 1).2
      let taken (i : Nat) : Bool := decide (i < u.vec.vl) && (vMaskOp u (vF w 24 10)).getLsbD i
      t.vec.run = (vGo v run).vec.run ∧ (d / 256 < 2 → VFrame t v run) ∧
      VWrites t v b r w 3 none fun j =>
        if j < 128 ∧ taken j = true then some (vIn l 0 ((natsTo j).filter taken).length) else none) ∧
    (VNow s 0x3F run b r → ∀ l, (vSrcs u b r w 1).1 = some l →
      let v := (vSrcs u b r w 1).2
      ((∀ q ∈ v.sfu.reqs, q.due ≠ v.clk.slot + 12) → Answers .vsfu s fun t =>
        t = { vGo v run with sfu := t.sfu, vec := { (vGo v run).vec with ord := v.vec.ord + 1 }, pins := t.pins } ∧
        ∃ q : SfuReq, t.sfu = { v.sfu with reqs := v.sfu.reqs ++ [q] } ∧ q.who = .vec d ∧ q.due = v.clk.slot + 12 ∧
          q.uid = b.uid ∧ q.pos = r.pos ∧ q.row = vRow v b r d ∧ q.lanes = (sfuEval v (vF w 0 4) true b.ovfInf (vTaking v w l)).1 ∧
          q.fls = (sfuEval v (vF w 0 4) true b.ovfInf (vTaking v w l)).2.1) ∧
      (∀ q, v.sfu.reqs.find? (fun q => q.due == v.clk.slot + 12) = some q → startedBefore q.uid q.pos b.uid r.pos = true →
        Answers .vsfu s fun t =>
          t = { vGo v run with seq := t.seq, ev := t.ev, regs := t.regs, cyc := t.cyc, pins := t.pins } ∧ Caused t 0x05 ∧ t.sfu = v.sfu)) ∧
    (VNow s 0x08 run b r →
      let td := vF w 38 6
      let fmt := vF w 34 4
      let x := feedRow u b r td (vTdRow u w) (u.vec.vl * (fmtBits fmt / 8)) false false 2
      (vTdFails b td ≠ [] → Answers .vld s fun t =>
        t = { vGo u run with seq := t.seq, ev := t.ev, regs := t.regs, cyc := t.cyc, pins := t.pins } ∧ Caused t 0x11 ∧ HaltsFor u t 4 ∧
        RegsKept u t [0xE040]) ∧
      (vTdFails b td = [] → vldBad u b td (vTdRow u w) = true → Answers .vld s fun t =>
        t = { vGo u run with seq := t.seq, ev := t.ev, pins := t.pins } ∧ Caused t 0x04 ∧ HaltsFor u t 2) ∧
      (vTdFails b td = [] → vldBad u b td (vTdRow u w) = false → u.vec.vl ≠ 0 →
        (x.1 = .wait → Answers .vld s fun t => t = { x.2 with pins := t.pins } ∧ t.vec = u.vec) ∧
        (x.1 = .nothing → Answers .vld s fun t => t = { vGo x.2 run with pins := t.pins }) ∧
        (∀ bs, x.1 = .row bs true → Answers .vld s fun t =>
          t = { vGo x.2 run with seq := t.seq, pins := t.pins } ∧ HaltsFor x.2 t 4) ∧
        (∀ bs, x.1 = .row bs false → Answers .vld s fun t =>
          t.vec.run = (vGo x.2 run).vec.run ∧ (d / 256 < 2 → VFrame t x.2 run) ∧
          VWrites t x.2 b r w 2 (some (if fmtIsInt fmt then 1 else 4)) fun j =>
            if j < u.vec.vl then some (vldLane fmt bs j) else none)) ∧
      (vTdFails b td = [] → vldBad u b td (vTdRow u w) = false → u.vec.vl = 0 → Answers .vld s fun t =>
        t.vec.run = (vGo u run).vec.run ∧ (d / 256 < 2 → VFrame t u run) ∧ VWrites t u b r w 2 none fun _ => none)) ∧
    (VNow s 0x09 run b r →
      let td := vF w 38 6
      let fmt := vF w 34 4
      let x := vSrc u b r w d
      (vTdFails b td ≠ [] → Answers .vst s fun t =>
        t = { vGo u run with seq := t.seq, ev := t.ev, regs := t.regs, cyc := t.cyc, pins := t.pins } ∧ Caused t 0x11 ∧ HaltsFor u t 4 ∧
        RegsKept u t [0xE040]) ∧
      (vTdFails b td = [] → tdKind b td = 0 ∨ 4 < tdKind b td → Answers .vst s fun t =>
        t = { vGo u run with seq := t.seq, ev := t.ev, pins := t.pins } ∧ Caused t 0x04 ∧ HaltsFor u t 2) ∧
      (vTdFails b td = [] → tdKind b td ≠ 0 → tdKind b td ≤ 4 → x.1 = none → Answers .vst s fun t => t = { vGo x.2 run with pins := t.pins }) ∧
      (∀ l, vTdFails b td = [] → tdKind b td ≠ 0 → tdKind b td ≤ 4 → x.1 = some l →
        (vHeldSeam x.2 b r = true ∨ x.2.vec.vl = 0 → Answers .vst s fun t => t = { vGo x.2 run with pins := t.pins }) ∧
        (vHeldSeam x.2 b r = false → x.2.vec.vl ≠ 0 → Answers .vst s fun t =>
          t = { x.2 with vec := t.vec, gen := t.gen, regs := t.regs, cyc := t.cyc, pins := t.pins } ∧ RegsKept x.2 t [0x4804] ∧
          t.vec.run = (vGo x.2 run).vec.run ∧
          ∃ y : HeldVst, t.vec.vsts = x.2.vec.vsts ++ [y] ∧ y.td = td ∧ y.row = vTdRow u w ∧ y.due = s.clk.slot + 1 ∧
            y.uid = b.uid ∧ y.pos = r.pos ∧ y.seams = vOpenSeams x.2 b r ∧
            (fmt = 8 → tdFmt b td = 8 → y.bytes = (natsTo x.2.vec.vl).flatMap fun i => bytesLE 4 (lget l 0 i).toNat))))

/-- Derived from R57, R101, R170, R174, R182 and R187: the integer and the logic instructions. A sum, difference, product or left shift
saturates to int32 with SAT; a right shift rounds under CRND and sets no flag; AND, OR and XOR act on bits.
Flags at issue (log 52) and the FMT of a logic result, a free value (log 18), are the model's. -/
def Obligations.IntegerAndLogicInstructions : Prop :=
  let exact (c : Instr) (op lam : Nat) (f : Int → Int → Int) : Prop :=
    VIssues c op 2 lam (some 1) fun _ _ _ l k =>
      let x := f (vIn l 0 k).toInt (vIn l 1 k).toInt
      (BitVec.ofInt 32 (max (-2147483648) (min 2147483647 x)), if x < -2147483648 ∨ 2147483647 < x then fSAT else 0)
  exact .vaddi 0x10 2 (· + ·) ∧ exact .vsubi 0x11 2 (· - ·) ∧ exact .vmuli 0x12 3 (· * ·) ∧ exact .vmini 0x13 2 min ∧
  exact .vmaxi 0x14 2 max ∧
  VIssues .vshl 0x16 1 2 (some 1) (fun _ _ w l k =>
    let x := (vIn l 0 k).toInt * 2 ^ vF w 0 5
    (BitVec.ofInt 32 (max (-2147483648) (min 2147483647 x)), if x < -2147483648 ∨ 2147483647 < x then fSAT else 0)) ∧
  VIssues .vsra 0x15 1 2 (some 1) (fun v b w l k =>
    let n := vF w 0 5
    let x := (vIn l 0 k).toInt
    let down := x.natAbs / 2 ^ n
    let rest := x.natAbs % 2 ^ n
    let up : Bool := match benchRnd b b.crnd with
      | .rz => false
      | .rne => decide (2 ^ n < 2 * rest) || (decide (2 * rest = 2 ^ n) && decide (down % 2 = 1) && decide (rest ≠ 0))
      | .sr => decide (rest ≠ 0) &&
        decide (65536 ≤ (if 16 < n then rest / 2 ^ (n - 16) else rest * 2 ^ (16 - n)) + vDraw v k)
    let m : Int := down + b2n up
    (BitVec.ofInt 32 (if x < 0 then -m else m), 0)) ∧
  VIssues .vand 0x17 2 2 none (fun _ _ _ l k => (vIn l 0 k &&& vIn l 1 k, 0)) ∧
  VIssues .vor 0x18 2 2 none (fun _ _ _ l k => (vIn l 0 k ||| vIn l 1 k, 0)) ∧
  VIssues .vxor 0x19 2 2 none (fun _ _ _ l k => (vIn l 0 k ^^^ vIn l 1 k, 0))

/-- Derived from R42, R50, R53, R55, R56, R57, R107, R170, R174, R182, R186 and R187: the binary32 instructions. Add, subtract, multiply and
fused multiply-add round once under ARND with their flags; minimum and maximum order as R107 does, and give the canonical NaN for a NaN;
absolute value and negation change the sign alone; the conversions round under CRND, and VCVTIF under ARND.
Flags at issue (log 52), the FMT that a conversion stamps (log 53), UNF of float results alone (log 10) and the order of draws (log 34) are the model's
readings. -/
def Obligations.FloatInstructions : Prop :=
  let num (r : NumR) : W32 × Flg := (BitVec.ofNat 32 r.bits, r.fl)
  let nan2 (a b : W32) : Flg := flagIf ((f32 a).isNan || (f32 b).isNan) fNAN
  let once (c : Instr) (op : Nat) (f : RMode → Bool → Nat → W32 → W32 → NumR) : Prop :=
    VIssues c op 2 3 (some 4) fun v b _ l k => num (f (benchRnd b b.arnd) b.ovfInf (vDraw v k) (vIn l 0 k) (vIn l 1 k))
  once .vadd 0x20 f32Add ∧ once .vsub 0x21 f32Sub ∧ once .vmul 0x22 f32Mul ∧
  VIssues .vfma 0x23 3 3 (some 4) (fun v b _ l k =>
    num (f32Fma (benchRnd b b.arnd) b.ovfInf (vDraw v k) (vIn l 0 k) (vIn l 1 k) (vIn l 2 k))) ∧
  VIssues .vmin 0x24 2 2 (some 4) (fun _ _ _ l k => (minMax32 false (vIn l 0 k) (vIn l 1 k), nan2 (vIn l 0 k) (vIn l 1 k))) ∧
  VIssues .vmax 0x25 2 2 (some 4) (fun _ _ _ l k => (minMax32 true (vIn l 0 k) (vIn l 1 k), nan2 (vIn l 0 k) (vIn l 1 k))) ∧
  VIssues .vabs 0x26 1 2 (some 4) (fun _ _ _ l k =>
    if (f32 (vIn l 0 k)).isNan then (0x7FC00000#32, fNAN) else (vIn l 0 k &&& 0x7FFFFFFF#32, 0)) ∧
  VIssues .vneg 0x27 1 2 (some 4) (fun _ _ _ l k =>
    if (f32 (vIn l 0 k)).isNan then (0x7FC00000#32, fNAN) else (vIn l 0 k ^^^ 0x80000000#32, 0)) ∧
  VIssues .vcvtfi 0x28 1 2 (some 1) (fun v b _ l k => num (intEncode 32 (benchRnd b b.crnd) (vDraw v k) (f32 (vIn l 0 k)))) ∧
  VIssues .vcvtif 0x29 1 2 (some 4) (fun v b _ l k =>
    num (fmtEncode 7 (benchRnd b b.arnd) b.ovfInf (vDraw v k) (FVal.ofInt (vIn l 0 k).toInt))) ∧
  VIssues .vrnd 0x2A 1 2 (some 4) (fun v b w l k =>
    let r := fmtEncode (vF w 0 4) (benchRnd b b.crnd) b.ovfInf (vDraw v k) (f32 (vIn l 0 k))
    (widen (vF w 0 4) (r.bits % 2 ^ 32), r.fl)) ∧
  VIssues .vrmaxf 0x2B 1 8 (some 4) (fun v _ w l _ => maxF ((vTaking v w l).filterMap id))

/-- Derived from R170, R174, R182 and R187: the masks. A comparison gives each acting lane its bit, where a NaN compares unequal to all;
AND, OR, XOR and NOT act on bits; MCNT counts the acting lanes of a mask into a K register; MFLG reads a flag of every lane's copy, and MFCLR
clears the copies of the acting lanes.
MCNT under a predicate (log 56) and flags at issue (log 52) are the model's readings. -/
def Obligations.MaskInstructions : Prop :=
  let holds (cc : Nat) (lt eq : Bool) : Bool :=
    match cc with | 0 => eq | 1 => !eq | 2 => lt | 3 => lt || eq | 4 => !(lt || eq) | _ => !lt
  let compares (c : Instr) (op : Nat) (f : Nat → W32 → W32 → Bool × Flg) : Prop :=
    ∀ s run b r, VNow s op run b r →
      let w := vWord s run
      let x := vSrcs (vTurn s b r) b r w 2
      (x.1 = none → Answers c s fun t => t = { vGo x.2 run with pins := t.pins }) ∧
      (∀ l, x.1 = some l → Answers c s fun t =>
        let v := x.2
        let val (k : Nat) : Bool × Flg := f (vF w 0 3) (vIn l 0 k) (vIn l 1 k)
        VFrame t v run ∧ t.acc = v.acc ∧
        (∀ k, k < 128 → BitVec.ofNat 8 (mget t.vec.flags 0 k) =
          BitVec.ofNat 8 (mget v.vec.flags 0 k) ||| (if vActs v w k then (val k).2 else 0)) ∧
        ∃ y : VRes, t.vec.res = v.vec.res ++ [y] ∧ y.due = v.clk.slot + 2 ∧ y.dst = .m (vF w 44 10 % 8) ∧
          ∀ k, k < 128 → lget y.lanes none k = if vActs v w k then some (BitVec.ofNat 32 (b2n (val k).1)) else none)
  let masks (c : Instr) (op : Nat) (f : State → W64 → BitVec 128) : Prop :=
    ∀ s run b r, VNow s op run b r →
      let w := vWord s run
      let u := vTurn s b r
      Answers c s fun t =>
        VFrame t u run ∧ t.acc = u.acc ∧ t.regs = u.regs ∧ t.vec.flags = u.vec.flags ∧
        ∃ y : VRes, t.vec.res = u.vec.res ++ [y] ∧ y.due = u.clk.slot + 1 ∧ y.dst = .m (vF w 44 10 % 8) ∧
          ∀ k, k < 128 → lget y.lanes none k =
            if vActs u w k then some (BitVec.ofNat 32 (b2n ((f u w).getLsbD k))) else none
  compares .vcmpi 0x30 (fun cc a b => (holds cc (decide (a.toInt < b.toInt)) (decide (a = b)), 0)) ∧
  compares .vcmpf 0x31 (fun cc a b =>
    if (f32 a).isNan || (f32 b).isNan then (decide (cc = 1), fNAN)
    else (holds cc (ltX (f32 a) (f32 b)) (!ltX (f32 a) (f32 b) && !ltX (f32 b) (f32 a)), 0)) ∧
  masks .mand 0x32 (fun u w => vMaskOp u (vF w 34 10) &&& vMaskOp u (vF w 24 10)) ∧
  masks .mor 0x33 (fun u w => vMaskOp u (vF w 34 10) ||| vMaskOp u (vF w 24 10)) ∧
  masks .mxor 0x34 (fun u w => vMaskOp u (vF w 34 10) ^^^ vMaskOp u (vF w 24 10)) ∧
  masks .mnot 0x35 (fun u w => ~~~(vMaskOp u (vF w 34 10))) ∧
  masks .mflg 0x37 (fun u w => BitVec.ofNat 128 ((natsTo 128).foldl (fun m k =>
    m + (if (mget u.vec.flags 0 k).testBit (vF w 0 3) then 2 ^ k else 0)) 0)) ∧
  ∀ s run b r,
    let w := vWord s run
    let u := vTurn s b r
    (VNow s 0x36 run b r → Answers .mcnt s fun t =>
      VFrame t u run ∧ t.acc = u.acc ∧ t.regs = u.regs ∧ t.vec.flags = u.vec.flags ∧
      ∃ y : VRes, t.vec.res = u.vec.res ++ [y] ∧ y.due = u.clk.slot + 1 ∧ y.dst = .k (vF w 44 10 % 4) ∧
        lget y.lanes none 0 = some (BitVec.ofNat 32
          ((natsTo 128).filter fun k => vActs u w k && (vMaskOp u (vF w 34 10)).getLsbD k).length)) ∧
    (VNow s 0x38 run b r → Answers .mfclr s fun t =>
      t = { vGo u run with vec := { (vGo u run).vec with flags := t.vec.flags }, pins := t.pins } ∧
      ∀ k, k < 128 → mget t.vec.flags 0 k = if vActs u w k then 0 else mget u.vec.flags 0 k)

-- Packets and links.

/-- Derived from R264, R270, R310, R314, R315, R317, R318, R319, R324, R330, R390 and R451: packets at a link port. A bad head is
counted and raises FAB_HEADER; a packet of a newer mode epoch is held and counted in MODE_HELD, as are those behind it and those at a tile
that is not ACTIVE, which wakes; one for another tile goes on by its route, its flits keeping their places in the buffer until they leave;
one for this tile is put before the window check, enters the peer queue, or answers the request of its TAG.
That a duplicate tile drops packets (log 14), and the credits of what is dropped (log 103), are the model's readings. -/
def Obligations.PacketsAreCheckedAndDelivered : Prop :=
  ∀ (s : State) (n : Nat) (head : Flit),
    let arrives (c : Instr) (ty : Nat) (body : List Flit) : Prop :=
      Heard s n → packetRow ty head body = true →
      let h := headOf head.data
      let pk : Packet := ⟨head.data, head.side, body⟩
      let good := sectorCheck head.data = fieldN head.side 0 16 ∧ typeVc h.ty = some (fieldN head.side 30 2)
      let newer := isNewer s (fieldN head.side 16 8) = true
      let vc0 := fieldN head.side 30 2 = 0
      let behind := holdsVc s n (fieldN head.side 30 2) = true
      let only (t : State) : Prop := t = { s with fab := { s.fab with ports := t.fab.ports }, pins := t.pins }
      let kept (t : State) : Prop :=
        RegsKept s t [0x9048] ∧ regF t 0x9048 0 16 = regF s 0x9048 0 16 ∧ (¬ newer → regF t 0x9048 16 16 = regF s 0x9048 16 16) ∧
        (newer → regF t 0x9048 16 16 = min 0xFFFF (regF s 0x9048 16 16 + 1)) ∧
        (portOf t n).held = (portOf s n).held ++ [pk] ∧ ∀ m, m ≠ n → portOf t m = portOf s m
      (¬ good → Answers c s fun t =>
        t = { s with fab := { s.fab with ports := t.fab.ports }, regs := t.regs, cyc := t.cyc, ev := t.ev, pins := t.pins } ∧
        Caused t 0x43 ∧ EvGrows s t ∧ RegsKept s t [0x7050] ∧ regF t 0x7050 0 32 = min 0xFFFFFFFF (regF s 0x7050 0 32 + 1) ∧
        (portOf t n).held = (portOf s n).held ∧ ∀ m, m ≠ n → portOf t m = portOf s m) ∧
      (good → s.clk.st ≠ 0 → vc0 → Answers c s fun t =>
        t = { s with fab := { s.fab with ports := t.fab.ports }, clk := t.clk, regs := t.regs, cyc := t.cyc, pins := t.pins } ∧
        t.clk.st = (if s.clk.st = 1 then 2 else s.clk.st) ∧ kept t) ∧
      (good → (s.clk.st = 0 ∨ ¬ vc0) →
        (newer ∨ behind → Answers c s fun t =>
          t = { s with fab := { s.fab with ports := t.fab.ports }, regs := t.regs, cyc := t.cyc, pins := t.pins } ∧ kept t) ∧
        (¬ newer → ¬ behind → s.fab.dup = true → Answers c s fun t => only t ∧ (portOf t n).held = (portOf s n).held ∧
          ∀ m, m ≠ n → portOf t m = portOf s m) ∧
        (¬ newer → ¬ behind → s.fab.dup = false → ¬ (h.ty = 2 ∧ h.dst = 255) →
          (∀ e, h.dst ≠ tileId s → routeFor s h.dst = e → e ≠ 6 → portUp s e = false → Answers c s fun t => only t ∧
            ∀ m, m ≠ n → portOf t m = portOf s m) ∧
          (∀ e, h.dst ≠ tileId s → e < 6 → routeFor s h.dst = e → portUp s e = true → Answers c s fun t =>
            t = { s with fab := { s.fab with ports := t.fab.ports, rr := t.fab.rr }, pins := t.pins } ∧
            ∃ p, p < 6 ∧ portUp s p = true ∧ (portOf s p).peerId = (portOf s e).peerId ∧ (portOf t n).owed = (portOf s n).owed ∧
              (vc0 → (portOf t p).outVc0 = (portOf s p).outVc0 ++ (head :: body).map fun f => (n, f)) ∧
              (¬ vc0 → (portOf t p).outVc1 = (portOf s p).outVc1 ++ (head :: body).map fun f => (n, f)) ∧
              ∀ m, m ≠ n → m ≠ p → portOf t m = portOf s m) ∧
          (h.dst = tileId s → fabHeld s = false →
            (h.ty < 2 → unitHeld s 7 = false → Answers c s fun t =>
              t = { s with pins := t.pins, fab := { s.fab with ports := t.fab.ports, chk := s.fab.chk ++ [(n, pk)] } }) ∧
            (h.ty = 2 → s.mb.peerQ.length < 8 → Answers c s fun t =>
              t = { s with pins := t.pins, fab := { s.fab with ports := t.fab.ports }, mb := { s.mb with
                peerQ := s.mb.peerQ ++ [⟨h.src, h.tag, false, wordsOf h.payload⟩] } }) ∧
            (3 ≤ h.ty → s.fab.waitq = [] →
              let q := mget s.fab.reqs {} h.tag
              let own := q.act = true ∧ h.ty = (if q.isCmd then 5 else if q.isRead then 3 else 4)
              let freed (t : State) : Prop :=
                mget t.fab.reqs {} h.tag = {} ∧ ∀ k, k ≠ h.tag → mget t.fab.reqs {} k = mget s.fab.reqs {} k
              (¬ own → Answers c s only) ∧
              (own → q.isCmd = false → (h.status = 1 ∨ h.status = 2) → Answers c s fun t =>
                t = { s with pins := t.pins, fab := { s.fab with
                  ports := t.fab.ports, reqs := t.fab.reqs, wfails := s.fab.wfails ++ [(q.win, h.status, if q.isRead then q.rd else 0)] } } ∧
                freed t) ∧
              (own → q.isCmd = false → 3 ≤ h.status → Answers c s fun t =>
                t = { s with fab := { s.fab with ports := t.fab.ports, reqs := t.fab.reqs, reads := t.fab.reads }, ev := t.ev
                             pins := t.pins } ∧ freed t ∧ Caused t 0x44 ∧ EvGrows s t ∧
                (q.isRead = false → t.fab.reads = s.fab.reads) ∧
                (q.isRead = true → mget t.fab.reads {} q.rd =
                  { mget s.fab.reads {} q.rd with left := (mget s.fab.reads {} q.rd).left - 1, failed := true })) ∧
              (own → h.ty = 4 → h.status = 0 → Answers c s fun t =>
                t = { s with fab := { s.fab with ports := t.fab.ports, reqs := t.fab.reqs }, pins := t.pins } ∧ freed t) ∧
              (own → h.ty = 3 → h.status = 0 → 1 ≤ q.step → Answers c s fun t =>
                t = { s with fab := { s.fab with ports := t.fab.ports, reqs := t.fab.reqs, reads := t.fab.reads }
                             pins := t.pins } ∧ freed t ∧
                (∀ k, k ≠ q.rd → mget t.fab.reads {} k = mget s.fab.reads {} k) ∧
                mget t.fab.reads {} q.rd = { mget s.fab.reads {} q.rd with
                  left := (mget s.fab.reads {} q.rd).left - 1, got := (mget t.fab.reads {} q.rd).got } ∧
                ∀ i, i < body.length →
                  mget (mget t.fab.reads {} q.rd).got {} (q.off + i * q.step) = lget (packetSectors pk) {} i) ∧
              (∀ o m, own → h.ty = 5 → q.cli = some { o := o } → mboxOf o = some m → Answers c s fun t =>
                t = { s with fab := { s.fab with ports := t.fab.ports, reqs := t.fab.reqs }, mb := t.mb, regs := t.regs, cyc := t.cyc
                             pins := t.pins } ∧ freed t ∧
                MbDone t m (fieldN h.payload 0 8) ∧ reg t (mboxBase m + 0x18) = BitVec.ofNat 32 (fieldN h.payload 32 32) ∧
                RegsKept s t (mbRegs m))))))
    arrives (.read n head) 0 [] ∧ (∀ body, arrives (.write n head body) 1 body) ∧ arrives (.cmd n head) 2 [] ∧
    (∀ body, arrives (.readData n head body) 3 body) ∧ arrives (.writeAck n head) 4 [] ∧ arrives (.cmdDone n head) 5 []

/-- Derived from R309, R312, R318, R322, R326, R331, R332, R333 and R334: the links. Any control flit returns its credit; one of a reserved
type is counted; a port held in reset takes the credit and drops the flit; a RESYNC_REQ is answered and starts the exchange at this end, unless it
is open or was the cause of this request (log 134), a RESYNC_ACK sets the credits exactly and brings a port
in HELLO that has received HELLO UP; a port that falls silent is FAILED, one that hears LINK_RESET is DOWN with its credits back, and what
queued there is lost; a request whose time is up fails with LINK_DOWN. That a FAILED or DOWN port takes no part in a resync, and that each end
runs the exchange once, are the model's choices (logs 127 and 134).
So are the credits of a dropped flit (log 103), a reserved type (log 104), the credits after LINK_RESET (log 67) and the answers to what a failing port
lost (log 68). -/
def Obligations.LinksCountResyncAndFail : Prop :=
  ∀ (s : State) (n cr : Nat),
    let p := portOf s n
    let credOk (t : State) : Prop :=
      ((cr % 4 = 0 ∨ p.resync = true ∨ p.st ≠ 3) → (portOf t n).cred = p.cred) ∧
      (cr % 4 ≠ 0 → p.resync = false → p.st = 3 → p.cred.length = 3 →
        ∀ v, v < 3 → lget (portOf t n).cred 0 v = if v + 1 = cr % 4 then min 32 (lget p.cred 0 v + 1) else lget p.cred 0 v)
    let again := bitB (reg s 0x7004) 0 = true ∧ s.fab.st ∈ [2, 3, 4]
    let lost (t : State) : Prop :=
      (portOf t n).resync = false ∧ (portOf t n).heard = false ∧ (portOf t n).outVc0 = [] ∧ (portOf t n).outVc1 = [] ∧
      (portOf t n).outVc2 = [] ∧ (portOf t n).ctl = [] ∧
      ((∀ e ∈ p.outVc0 ++ p.outVc1 ++ p.outVc2, e.1 ≠ n) → (portOf t n).owed = [0, 0, 0]) ∧
      (again → t.fab.st = 1 ∧ t.fab.surveyRoot = regF s 0x7008 0 8) ∧ (¬ again → t.fab.st = s.fab.st) ∧
      EvGrows s t ∧ t.spad = s.spad ∧ t.acc = s.acc ∧ t.mode = s.mode ∧ t.red = s.red ∧ t.chans = s.chans
    (Heard s n →
      Answers (.idle n cr) s (fun t => PortNow s t n id ∧ credOk t) ∧
      (∀ k, 9 ≤ k → k ≤ 15 → Answers (.reservedCtypeFlit n cr k) s fun t =>
        t = { s with fab := { s.fab with ports := t.fab.ports }, regs := t.regs, cyc := t.cyc, pins := t.pins } ∧ RegsKept s t [0x7050] ∧
        regF t 0x7050 0 32 = min 0xFFFFFFFF (regF s 0x7050 0 32 + 1) ∧ credOk t ∧ ∀ m, m ≠ n → portOf t m = portOf s m) ∧
      ((p.st = 2 ∨ p.st = 3) → p.resync = true ∨ p.farReq = true → Answers (.resyncReq n cr) s fun t => credOk t ∧
        PortNow s t n fun q => { q with ctl := q.ctl ++ [{ ctype := 6 }], farReq := false }) ∧
      ((p.st = 2 ∨ p.st = 3) → p.resync = false → p.farReq = false → Answers (.resyncReq n cr) s fun t => credOk t ∧
        PortNow s t n fun q => { q with ctl := q.ctl ++ [{ ctype := 6 }, { ctype := 5 }], resync := true, resyncT := mclkOf s }) ∧
      (p.st ≠ 2 → p.st ≠ 3 → Answers (.resyncReq n cr) s fun t => credOk t ∧ PortNow s t n id) ∧
      (∀ c0 c1 c2,
        let up := p.st = 2 ∧ p.heard = true
        (p.resync = true → up → p.tree.isSome = true → Answers (.resyncAck n cr c0 c1 c2) s fun t =>
          (portOf t n).st = 3 ∧ (portOf t n).tree = none ∧ (portOf t n).resync = false) ∧
        (p.resync = true → (up → p.tree = none) → Answers (.resyncAck n cr c0 c1 c2) s fun t =>
          PortNow s t n (fun q => { q with
            resync := false, st := if up then 3 else q.st
            ctl := if up ∧ s.fab.st = 1 then
                q.ctl ++ [{ ctype := 2, a := s.fab.candRoot, b := s.fab.candDepth, c := propId s }]
              else q.ctl }) ∧
          ∀ v, v < 3 → lget (portOf t n).cred 0 v =
            if v + 1 = cr % 4 ∧ (portOf t n).st = 3 then min 32 (min 32 (lget [c0, c1, c2] 0 v) + 1)
            else min 32 (lget [c0, c1, c2] 0 v)) ∧
        (p.resync = false → Answers (.resyncAck n cr c0 c1 c2) s fun t => PortNow s t n id ∧ credOk t)) ∧
      Answers (.linkReset n cr) s fun t => lost t ∧ (portOf t n).st = 1 ∧ (portOf t n).cred = [32, 32, 32] ∧
        regF t 0x7048 0 32 = min 0xFFFFFFFF (regF s 0x7048 0 32 + (queuedHeads p 1).length)) ∧
    (linkIn s n = true → unitHeld s (10 + n) = true →
      ∀ c, (c = .idle n cr ∨ c = .resyncReq n cr ∨ (∃ c0 c1 c2, c = .resyncAck n cr c0 c1 c2) ∨ c = .linkReset n cr ∨
        ∃ id q, c = .hello n cr id q) → Answers c s fun t => PortNow s t n id ∧ credOk t) ∧
    (let lim := zeroIs 256 (regF s 0x7004 8 8) * 64;
      ((p.st = 3 ∧ p.lastRx + lim ≤ mclkOf s) ∨ (p.resync = true ∧ p.resyncT + lim ≤ mclkOf s)) → linkIn s n = true →
      Answers (.linkTimeout n) s fun t => lost t ∧ (∀ x, routeFor t x ≠ n) ∧ (portOf t n).st = 4 ∧ (portOf t n).cred = [0, 0, 0] ∧
        regF t 0x7048 0 32 = min 0xFFFFFFFF (regF s 0x7048 0 32 + (32 - lget p.cred 0 0) + (32 - lget p.cred 0 1) + (32 - lget p.cred 0 2)
          + (queuedHeads p 1).length) ∧
        regF t 0x704C 0 32 = min 0xFFFFFFFF (regF s 0x704C 0 32 + 1) ∧ Caused t 0x42) ∧
    (∀ tag, let q := mget s.fab.reqs {} tag
      q.act = true → q.t0 + zeroIs 256 (regF s 0x7004 16 8) * 1024 ≤ mclkOf s → s.fab.waitq = [] →
      Answers (.reqTimeout tag) s fun t =>
        mget t.fab.reqs {} tag = {} ∧ (∀ k, k ≠ tag → mget t.fab.reqs {} k = mget s.fab.reqs {} k) ∧
        Caused t 0x44 ∧ EvGrows s t ∧ regF t 0x7054 0 32 = min 0xFFFFFFFF (regF s 0x7054 0 32 + 1) ∧
        (q.isCmd = false → RegsKept s t [0x7054] ∧ (q.isRead = false → t.fab.reads = s.fab.reads) ∧
          t = { s with fab := { s.fab with reqs := t.fab.reqs, reads := t.fab.reads }, regs := t.regs, cyc := t.cyc, ev := t.ev
                       pins := t.pins }) ∧
        (q.isCmd = false → q.isRead = true → mget t.fab.reads {} q.rd =
          { mget s.fab.reads {} q.rd with left := (mget s.fab.reads {} q.rd).left - 1, failed := true }) ∧
        (∀ o m, q.isCmd = true → q.cli = some { o := o } → mboxOf o = some m → MbDone t m 13))

-- The survey and the mode barrier.

/-- Derived from R321, R322, R323, R324, R325, R326, R331 and R332: the survey. HELLO gives a port its neighbour and a resync, or LOOP for
the tile's own ID, and is kept at a FAILED or DOWN port; a better TREE candidate is adopted and flooded, and a RESURVEY restarts at TREE; reports go up to the root, which
floods TOPO down the tree once they are whole; a tile is in TOPO for one MCLK cycle, and READY then with its route table; the timers bring the
tile to its next state. When reports are whole, how long TOPO lasts, TREE at a port that is not UP and a port that has heard no HELLO by the
end of HELLO are the model's choices (log 134).
HELLO at a FAILED or DOWN port (log 69), both ends' resync (log 70), where TOPO goes (log 75), when the survey's events are raised (log 76) and the
count of HELLO's period (log 102) are its readings. -/
def Obligations.TheSurveyReachesReady : Prop :=
  ∀ s : State,
    let whole : Prop := ∀ e ∈ s.fab.reports, ∀ x ∈ e.2,
      (∃ q ∈ s.fab.reports, ∃ y ∈ q.2, y.tile = x.peer ∧ y.port = x.peerPort ∧ y.peer = x.tile ∧ y.peerPort = x.port) ∨
        s.fab.phaseT + 43548 ≤ mclkOf s ∧ ∃ q ∈ s.fab.reports, q.1 = x.peer
    let ready (t : State) (root : Nat) : Prop :=
      t.fab.st = 4 ∧ t.fab.idValid = true ∧ t.fab.id = propId s ∧ t.fab.root = root ∧ Caused t 0x40 ∧ EvGrows s t
    (∀ n cr, Heard s n → fabHeld s = false → 2 ≤ s.boot.st →
      let p := portOf s n
      (∀ peer port,
        (p.st = 2 → peer = propId s → Answers (.hello n cr peer port) s fun t => PortNow s t n fun q => { q with st := 5 }) ∧
        (p.st = 2 → peer ≠ propId s → p.resync = false → Answers (.hello n cr peer port) s fun t => PortNow s t n fun q =>
          { q with heard := true, peerId := peer, peerPort := port, resync := true, resyncT := mclkOf s, farReq := true
                   ctl := q.ctl ++ [{ ctype := 5 }] }) ∧
        ((p.st = 2 ∧ peer ≠ propId s ∧ p.resync = true ∨ p.st = 4 ∨ p.st = 1 ∧ s.fab.st ≠ 5) → Answers (.hello n cr peer port) s fun t =>
          PortNow s t n fun q => { q with heard := true, peerId := peer, peerPort := port }) ∧
        ((p.st = 3 ∨ p.st = 5 ∨ p.st = 1 ∧ s.fab.st = 5) → Answers (.hello n cr peer port) s fun t => PortNow s t n id)) ∧
      (∀ root depth sender,
        let adopts := s.fab.st < 2 ∧ candBefore s.fab.surveyRoot (root, depth + 1, sender, n) (candOf s) = true
        let tells (m : Nat) : Prop := adopts ∧ s.fab.st = 1 ∧ m < 6 ∧ portUp s m = true
        (∀ restart, (restart = false ∨ s.fab.st ∉ [2, 3, 4]) → p.st ≠ 3 → Answers (.tree n cr root depth sender restart) s fun t =>
          PortNow s t n fun q => { q with tree := some (root, depth, sender) }) ∧
        (∀ restart, (restart = false ∨ s.fab.st ∉ [2, 3, 4]) → portUp s n = true → Answers (.tree n cr root depth sender restart) s fun t =>
          (¬ adopts → t = { s with fab := { s.fab with ports := t.fab.ports }, pins := t.pins }) ∧
          (adopts → t = { s with pins := t.pins, fab := { s.fab with
            ports := t.fab.ports, candRoot := root, candDepth := depth + 1, candSender := sender, candPort := n
            phaseT := if s.fab.st = 1 then mclkOf s else s.fab.phaseT } }) ∧
          ∀ m,
            let q := if m = n then { p with lastRx := mclkOf s, cred := (portOf t n).cred } else portOf s m
            let r := if m = n ∧ p.peerId ≠ sender then
              { q with peerId := sender, resync := true, resyncT := mclkOf s, farReq := true, ctl := q.ctl ++ [{ ctype := 5 }] } else q
            (tells m → portOf t m = { r with ctl := r.ctl ++ [{ ctype := 2, a := root, b := depth + 1, c := propId s }] }) ∧
            (¬ tells m → portOf t m = r)) ∧
        (s.fab.st ∈ [2, 3, 4] → Answers (.tree n cr root depth sender true) s fun t =>
          t = { s with fab := t.fab, pins := t.pins } ∧ t.fab.st = 1 ∧ t.fab.phaseT = mclkOf s ∧
          t.fab.surveyRoot = regF s 0x7008 0 8 ∧ t.fab.reports = [] ∧ t.fab.below = [] ∧ t.fab.topo = none ∧ t.fab.route = s.fab.route ∧
          t.fab.parent = s.fab.parent ∧ t.fab.kids = s.fab.kids ∧
          ∀ m, m < 6 → portUp s m = true → ({ ctype := 2, sub := 1, a := propId s, c := propId s } : CMsg) ∈ (portOf t m).ctl)) ∧
      (∀ tile links,
        let below := if n ∈ s.fab.below then s.fab.below else s.fab.below ++ [n]
        (s.fab.candPort ≠ 7 → s.fab.candPort < s.fab.ports.length → Answers (.report n cr tile links) s fun t =>
          t = { s with fab := { s.fab with ports := t.fab.ports, below := below }, pins := t.pins } ∧
          (portOf t s.fab.candPort).ctl = (portOf s s.fab.candPort).ctl ++ [{ ctype := 3, a := tile, links := links }]) ∧
        (s.fab.candPort = 7 → Answers (.report n cr tile links) s fun t =>
          t = { s with pins := t.pins, fab := { s.fab with
            ports := t.fab.ports, below := below, reports := s.fab.reports ++ [(tile, links)] } })) ∧
      (∀ links tiles dups,
        (3 ≤ s.fab.st → Answers (.topo n cr links tiles dups) s fun t => PortNow s t n id) ∧
        (s.fab.st < 3 → Answers (.topo n cr links tiles dups) s fun t =>
          t = { s with fab := { s.fab with ports := t.fab.ports, st := 3, topo := some ⟨links, tiles, dups⟩ }, pins := t.pins } ∧
          ∀ m ∈ s.fab.below, portUp s m = true → ∃ x ∈ (portOf t m).ctl,
            x = { ctype := 4, a := tiles.length, links := links, tiles := tiles ++ dups }))) ∧
    (s.fab.st = 2 → s.fab.candPort = 7 → ¬ whole → topoTick s = s) ∧
    (s.fab.st = 2 → s.fab.candPort = 7 → whole →
      let t := topoTick s
      ∃ tp : Topo, t = { s with fab := { s.fab with ports := t.fab.ports, st := 3, topo := some tp } } ∧
        tp.links = s.fab.reports.flatMap (·.2) ∧ (∀ x, x ∈ tp.tiles ↔ ∃ e ∈ s.fab.reports, e.1 = x) ∧ tp.tiles.Nodup ∧
        (∀ x, x ∈ tp.dups ↔ 1 < ((s.fab.reports.map (·.1)).filter (· == x)).length) ∧
        ∀ m ∈ s.fab.below, portUp s m = true → ∃ x ∈ (portOf t m).ctl,
          x = { ctype := 4, a := tp.tiles.length, links := tp.links, tiles := tp.tiles ++ tp.dups }) ∧
    (∀ tp : Topo, s.fab.st = 3 → s.fab.topo = some tp →
      let t := topoTick s
      ready t s.fab.candRoot ∧ t.fab.route = routesOf tp.links tp.tiles tp.dups s.fab.candRoot (propId s) ∧
      (propId s ∈ tp.dups → t.fab.dup = true ∧ Caused t 0x41) ∧ (propId s ∉ tp.dups → t.fab.dup = false)) ∧
    (surveyOn s = true → (s.fab.st = 0 ∨ ∃ m, m < 6 ∧ (portOf s m).st = 2) → (mclkOf s - s.fab.phaseT) % 1000 = 0 →
      Answers .helloTimer s fun t =>
        t = { s with fab := { s.fab with ports := t.fab.ports }, pins := t.pins } ∧
        ∀ m, portOf t m = if m < 6 ∧ ((portOf s m).st = 2 ∨ s.fab.st = 0 ∧ (portOf s m).st = 3)
          then { portOf s m with ctl := (portOf s m).ctl ++ [{ ctype := 1, a := propId s, b := m }] } else portOf s m) ∧
    (surveyIn s 0 = true → s.fab.phaseT + 20000 ≤ mclkOf s →
      (upPorts s = [] → Answers .helloPhaseEnd s fun t => ready t (propId s)) ∧
      (upPorts s ≠ [] → Answers .helloPhaseEnd s fun t =>
        t = { s with pins := t.pins, fab := { s.fab with ports := t.fab.ports, st := 1, phaseT := mclkOf s } } ∧
        ∀ m, portOf t m =
          if m < 6 ∧ (portOf s m).st = 3 then { portOf s m with
            ctl := (portOf s m).ctl ++ [{ ctype := 2, a := s.fab.candRoot, b := s.fab.candDepth, c := propId s }] }
          else if (portOf s m).st = 2 ∧ (portOf s m).heard = false then { portOf s m with st := 1 }
          else if ((portOf s m).st = 4 ∨ (portOf s m).st = 1) ∧ (portOf s m).heard = true then
            { portOf s m with st := 2, heard := false, farReq := false, tree := none }
          else portOf s m)) ∧
    (surveyIn s 1 = true → s.fab.phaseT + 8000 ≤ mclkOf s →
      (s.fab.candPort ≠ 7 → s.fab.candPort < s.fab.ports.length → Answers .treePhaseEnd s fun t =>
        t = { s with fab := { s.fab with ports := t.fab.ports, st := 2, phaseT := mclkOf s }, pins := t.pins } ∧
        (portOf t s.fab.candPort).ctl =
          (portOf s s.fab.candPort).ctl ++ [{ ctype := 3, a := propId s, links := ownLinks s }]) ∧
      (s.fab.candPort = 7 → Answers .treePhaseEnd s fun t =>
        t = { s with pins := t.pins, fab := { s.fab with
          st := 2, phaseT := mclkOf s, reports := s.fab.reports ++ [(propId s, ownLinks s)] } }))

/-- Derived from R327, R328, R329, R330 and R342: the mode barrier. A message for another tile goes on along its route; a member answers PREPARE
4 MCLK cycles later, with ACK, holding the mode, or with NAK; the leader's last ACK commits and a NAK or the time-out aborts, with the late tiles listed; a COMMIT is applied at once
where the sequencer has stopped, an ABORT drops the mode; the last DONE completes with OKAY, and COMMIT is sent again four times at most. That a
PREPARE of the values which a member holds prepared, from a leader at the epoch they are for, stands for the COMMIT that the member missed is
the model's choice (log 134).
That a repeated PREPARE is answered again (log 65), and that the leader's own answers need no flit (log 66), are its readings. -/
def Obligations.TheModeBarrierPreparesAndCommits : Prop :=
  ∀ s : State,
    let own := tileId s
    let ended (t : State) (status last code : Nat) : Prop :=
      t.mode.lead = 0 ∧ t.mode.members = [] ∧ Caused t code ∧ EvGrows s t ∧ regF t 0x900C 26 3 = last ∧
      ∀ o m, s.mode.cli = some { o := o } → mboxOf o = some m → MbDone t m status
    let late (t : State) (l : List Nat) : Prop :=
      ∀ x ∈ s.mode.members, x ∉ l → x < 192 → bitB (reg t (0x9030 + 4 * (x / 32))) (x % 32) = true
    let held (t : State) (e : Nat) (x : CMsg) : Prop := portUp s e = true → x ∈ (portOf t e).ctl
    let aborted (t : State) : Prop := ended t 6 2 0x46 ∧ late t s.mode.acks ∧
      ∀ x ∈ s.mode.members, x ≠ own → held t (routeFor s x) { ctype := 8, sub := 4, a := own, b := x }
    (∀ n cr, Heard s n → fabHeld s = false → 2 ≤ s.boot.st →
      (∀ src dst e e1 m, dst ≠ own →
        let goes (c : Instr) (x : CMsg) : Prop := Answers c s fun t =>
          t = { s with fab := { s.fab with ports := t.fab.ports }, pins := t.pins } ∧
          Sent s t (routeFor s dst) x ∧ (portUp s (routeFor s dst) = false → PortNow s t n id)
        goes (.prepare n cr src dst e e1 m) { ctype := 8, sub := 0, a := src, b := dst, c := e, d := e1, m := m } ∧
        goes (.barrierAck n cr src dst) { ctype := 8, sub := 1, a := src, b := dst } ∧
        goes (.barrierNak n cr src dst) { ctype := 8, sub := 2, a := src, b := dst } ∧
        goes (.commit n cr src dst e1) { ctype := 8, sub := 3, a := src, b := dst, d := e1 } ∧
        goes (.barrierAbort n cr src dst) { ctype := 8, sub := 4, a := src, b := dst } ∧
        goes (.barrierDone n cr src dst) { ctype := 8, sub := 5, a := src, b := dst }) ∧
      (∀ src e e1 m, src ≠ own →
        let answers (sub : Nat) : List (Nat × CMsg) :=
          s.mode.answers ++ [(mclkOf s + 4, { ctype := 8, sub := sub, a := own, b := src, m := ⟨0, 0, 0, false⟩ })]
        (src ≠ leaderId s → Answers (.prepare n cr src own e e1 m) s fun t =>
          t = { s with fab := { s.fab with ports := t.fab.ports }, mode := { s.mode with answers := answers 2 }, ev := t.ev
                       pins := t.pins } ∧ Caused t 0x6B ∧ EvGrows s t ∧ ∀ k, k ≠ n → portOf t k = portOf s k) ∧
        (src = leaderId s → s.mode.prepared = some m → s.mode.prepE = e → s.mode.prepSrc = src → applyNow s = true →
          Answers (.prepare n cr src own e e1 m) s fun t =>
            t.mode.rnd = m.rnd ∧ t.mode.pepoch = m.pepoch ∧ t.mode.user = m.user ∧ t.mode.epoch = e ∧ t.mode.joined = true ∧
            EvGrows s t ∧ t.seq = s.seq ∧ t.acc = s.acc ∧ t.spad = s.spad ∧
            held t (routeFor s src) { ctype := 8, sub := 5, a := own, b := src }) ∧
        let missed := s.mode.prepared = some m ∧ s.mode.prepE = e
        (¬ missed → src = leaderId s → mayPrepare s src e e1 m = false → Answers (.prepare n cr src own e e1 m) s fun t =>
          t = { s with fab := { s.fab with ports := t.fab.ports }, mode := { s.mode with answers := answers 2 }, pins := t.pins } ∧
          ∀ k, k ≠ n → portOf t k = portOf s k) ∧
        (¬ missed → src = leaderId s → mayPrepare s src e e1 m = true → Answers (.prepare n cr src own e e1 m) s fun t =>
          t = { s with pins := t.pins, fab := { s.fab with ports := t.fab.ports }, mode := { s.mode with
            prepared := some m, prepE := e1, prepSrc := src, committed := s.mode.committed && s.mode.prepared.isSome
            answers := answers 1 } } ∧ ∀ k, k ≠ n → portOf t k = portOf s k)) ∧
      (∀ src, let acks := if src ∈ s.mode.acks then s.mode.acks else src :: s.mode.acks
        ((s.mode.lead ≠ 1 ∨ src ∉ s.mode.members) → Answers (.barrierAck n cr src own) s fun t => PortNow s t n id) ∧
        (s.mode.lead = 1 → src ∈ s.mode.members → (∃ x ∈ s.mode.members, x ∉ acks) → Answers (.barrierAck n cr src own) s fun t =>
          t = { s with fab := { s.fab with ports := t.fab.ports }, mode := { s.mode with acks := acks }, pins := t.pins }) ∧
        (s.mode.lead = 1 → src ∈ s.mode.members → (∀ x ∈ s.mode.members, x ∈ acks) → own ∉ s.mode.members →
          Answers (.barrierAck n cr src own) s fun t =>
            t = { s with pins := t.pins, fab := { s.fab with ports := t.fab.ports }, mode := { s.mode with
              acks := acks, lead := 2, t0 := mclkOf s, resends := 0 } } ∧
            ∀ x ∈ s.mode.members, held t (routeFor s x) { ctype := 8, sub := 3, a := own, b := x, d := s.mode.leadE })) ∧
      (∀ src, s.mode.lead = 1 → src ∈ s.mode.members → Answers (.barrierNak n cr src own) s aborted) ∧
      (∀ src e1, s.mode.prepared.isSome = true → s.mode.prepE = e1 → s.mode.prepSrc = src →
        (applyNow s = false → Answers (.commit n cr src own e1) s fun t =>
          t = { s with fab := { s.fab with ports := t.fab.ports }, mode := { s.mode with committed := true }, pins := t.pins }) ∧
        (∀ m, s.mode.prepared = some m → applyNow s = true → Answers (.commit n cr src own e1) s fun t =>
          t.mode.rnd = m.rnd ∧ t.mode.pepoch = m.pepoch ∧ t.mode.user = m.user ∧ t.mode.epoch = e1 ∧ t.mode.joined = true ∧
          t.mode.prepared = none ∧ t.mode.committed = false ∧ EvGrows s t ∧ t.seq = s.seq ∧ t.acc = s.acc ∧ t.spad = s.spad ∧
          (src ≠ own → held t (routeFor s src) { ctype := 8, sub := 5, a := own, b := src }))) ∧
      (∀ src e1, s.mode.prepared = none → s.mode.joined = true → s.mode.epoch = e1 → src ≠ own →
        Answers (.commit n cr src own e1) s fun t =>
          t = { s with fab := { s.fab with ports := t.fab.ports }, pins := t.pins } ∧
          Sent s t (routeFor s src) { ctype := 8, sub := 5, a := own, b := src }) ∧
      (∀ src, let drops := s.mode.prepared.isSome = true ∧ s.mode.committed = false ∧ s.mode.prepSrc = src
        (drops → Answers (.barrierAbort n cr src own) s fun t =>
          t = { s with fab := { s.fab with ports := t.fab.ports }, mode := { s.mode with prepared := none }, pins := t.pins }) ∧
        (¬ drops → Answers (.barrierAbort n cr src own) s fun t => PortNow s t n id)) ∧
      (∀ src, let dones := if src ∈ s.mode.dones then s.mode.dones else src :: s.mode.dones
        s.mode.lead = 2 → src ∈ s.mode.members →
        ((∃ x ∈ s.mode.members, x ∉ dones) → Answers (.barrierDone n cr src own) s fun t =>
          t = { s with fab := { s.fab with ports := t.fab.ports }, mode := { s.mode with dones := dones }, pins := t.pins }) ∧
        ((∀ x ∈ s.mode.members, x ∈ dones) → Answers (.barrierDone n cr src own) s fun t => ended t 0 1 0x45))) ∧
    (s.mode.lead = 1 → s.mode.t0 + barrierTo s ≤ mclkOf s → Answers .barrierTimeout s aborted) ∧
    (s.mode.lead = 2 → s.mode.t0 + barrierTo s ≤ mclkOf s →
      (s.mode.resends < 4 → own ∉ s.mode.members → Answers .commitResend s fun t =>
        t = { s with pins := t.pins, fab := { s.fab with ports := t.fab.ports }, mode := { s.mode with
          resends := s.mode.resends + 1, t0 := mclkOf s } } ∧
        ∀ x ∈ s.mode.members, x ∉ s.mode.dones →
          held t (routeFor s x) { ctype := 8, sub := 3, a := own, b := x, d := s.mode.leadE }) ∧
      (4 ≤ s.mode.resends → Answers .commitResend s fun t => ended t 7 3 0x47 ∧ late t s.mode.dones))

-- Reduction.

/-- Derived from R340, R341, R343, R345, R347 to R350, R352 to R354 and R390: a round. A formed block holds its mean
magnitude, its signs and its contribution, and leaves what it does not hold in the residual, which a second pass corrects; an owner starts a sum pass and a parameter pass with a token and its flits; a relay passes
flits on from where they stand; a member adds its contribution, or waits for it, and the sum leaves 4 MCLK cycles later; an owner settles
its block, writing the next copy by the update rule of its segment, or sends it on a second pass; a parameter flit is written to the next copy and passed on; the time-out aborts the round, and
an aborted member takes its own passes home. That a flit waits at a member whose round has not begun is the model's (log 74).
So are the fresh checks of what the unit writes (log 24), DMA data that moves at its event (log 32), the pass-1 contribution that is taken back
(log 73) and relays in a reset of the unit (log 85). -/
def Obligations.ReductionRoundsPassTheirFlits : Prop :=
  ∀ s : State,
    let clamp (x : Int) : Int := max (-127) (min 127 x)
    (∀ k, redRuns s k = true → let g := grp s k
      let out := gOut g
      (g.formed < gNblk g → g.t0 + 8 * (g.formed + 1) ≤ mclkOf s → g.waiting = [] → Answers (.blockFormed k) s fun t =>
        let gr := readBlock s (gradAt g g.formed)
        let rs := readBlock gr.2 (residAt g g.formed)
        let v (i : Nat) : W32 :=
          let a := w32 (f32Add .rne false 0 (lget gr.1 0 i) (lget rs.1 0 i))
          if isFin a then a else 0
        let c := mget (grp t k).blks {} g.formed
        t = { rs.2 with red := t.red, spad := t.spad, ev := t.ev, pins := t.pins } ∧ EvGrows s t ∧
        grp t k = { g with formed := g.formed + 1, blks := (grp t k).blks } ∧ (∀ j, j ≠ k → grp t j = grp s j) ∧
        (∀ b, b ≠ g.formed → mget (grp t k).blks {} b = mget g.blks {} b) ∧
        c = { mget g.blks {} g.formed with formed := true, sgn := c.sgn, m := c.m, q := quant c.m c.x, x1 := c.x } ∧
        c.m = blockMean ((natsTo 32).map v) ∧ (∀ i, i < 32 → c.sgn.getLsbD i = (v i).getLsbD 31) ∧
        (BlockFits s (residAt g g.formed) → ∀ i, i < 32 → blockEntry t (residAt g g.formed) i =
          w32 (f32Sub .rne false 0 (v i) (scaled ((v i).getLsbD 31) (quant c.m c.x) c.x))) ∧
        ∀ a, (∀ i, i < 4 → a / 32 ≠ (residAt g g.formed + 32 * i) % spadBytes rs.2 / 32) → spadByte t a = spadByte rs.2 a) ∧
      (∀ b, sumMay s k b = true → Answers (.sumPassStart k b) s fun t =>
        let c := mget g.blks {} b
        let q := quant c.m c.x
        t = { s with red := t.red, pins := t.pins } ∧
        grp t k = { g with sumTok := g.sumTok - 1, inSum := g.inSum + 1, blks := (grp t k).blks, leaving := g.leaving ++ [(mclkOf s + 4,
          redFlit (2 * k) (mantissas ((natsTo 32).map fun i => clamp (if c.sgn.getLsbD i then -(q : Int) else q)))
            c.x (if 127 < q then ovsOf q else 0) b)] } ∧
        (∀ j, j ≠ k → grp t j = grp s j) ∧ (∀ d, d ≠ b → mget (grp t k).blks {} d = mget g.blks {} d) ∧
        mget (grp t k).blks {} b = { c with passed := true, seen := 1, q := q, x1 := c.x }) ∧
      (∀ b, parMay s k b = true → Answers (.paramPassStart k b) s fun t =>
        let r := readBlock s (copyBase g (liveCopy s + 1) + 128 * b)
        let c := mget g.blks {} b
        t = { r.2 with red := t.red, fab := { s.fab with ports := t.fab.ports }, pins := t.pins } ∧
        grp t k = { g with parTok := g.parTok - 1, inPar := g.inPar + 1, blks := (grp t k).blks } ∧
        (∀ j, j ≠ k → grp t j = grp s j) ∧ (∀ d, d ≠ b → mget (grp t k).blks {} d = mget g.blks {} d) ∧
        mget (grp t k).blks {} b = { c with parSent := true } ∧
        Passed s t out 6 ((natsTo 4).map fun f => redFlit (2 * k + 1) (sectorOf (r.1.drop (8 * f))) c.x f b)) ∧
      (g.t0 + zeroIs 256 (fieldN g.live.size 24 8) * 65536 ≤ mclkOf s → Answers (.reduceTimeout k) s fun t =>
        let mine := (g.waiting.filter fun e => gOwns g (flBlock e.2)).length
        let tok := if mine = 0 then g.sumTok else min (gTokens g) (g.sumTok + mine)
        t = { s with red := t.red, fab := { s.fab with ports := t.fab.ports }, regs := t.regs, cyc := t.cyc, ev := t.ev
                     pins := t.pins } ∧ Caused t 0x49 ∧ EvGrows s t ∧ RegsKept s t [0x8058 + 256 * k] ∧
        ((∀ e ∈ g.waiting, parOk e.2 = true) → t.regs = s.regs) ∧
        grp t k = { g with cause := 1, waiting := [], sumTok := tok, inSum := g.inSum - mine
                           st := if tok = gTokens g ∧ g.parTok = 1 then 0 else 3 } ∧
        (∀ j, j ≠ k → grp t j = grp s j) ∧
        Passed s t out 6 ((g.waiting.filter fun e => !gOwns g (flBlock e.2)).map Prod.snd))) ∧
    (∀ n fl,
      let k := flRch fl / 2
      let g := grp s k
      let out := gOut g
      let b := flBlock fl
      let good := parOk fl = true
      let others := ∀ m, m < 6 → m ≠ n → (portOf s m).inVc2 = [] ∨ transit s m 2 ≠ 0
      let near (t : State) : Prop :=
        t = { s with fab := { s.fab with ports := t.fab.ports }, red := t.red, regs := t.regs, cyc := t.cyc, ev := t.ev, pins := t.pins } ∧
        (∀ j, j ≠ k → grp t j = grp s j) ∧ (good → t.regs = s.regs ∧ t.ev = s.ev) ∧ EvGrows s t ∧ RegsKept s t [0x8058 + 256 * k] ∧
        (¬ good → Caused t 0x4D ∧
          regF t (0x8058 + 256 * k) 16 16 = min 0xFFFF (regF s (0x8058 + 256 * k) 16 16 + (if gRole g = 1 then 1 else 0)))
      let arrives (c : Instr) (par : Nat) : Prop := Heard s n → fieldN fl.side 30 2 = 2 → flRch fl % 2 = par → others →
        (s.clk.st ≠ 0 → Answers c s fun t =>
          t = { s with fab := { s.fab with ports := t.fab.ports }, clk := t.clk, pins := t.pins } ∧
          (portOf t n).inVc2 = (portOf s n).inVc2 ++ [fl] ∧ t.clk.st = (if s.clk.st = 1 then 2 else s.clk.st)) ∧
        (s.clk.st = 0 → transit s n 2 ≠ 0 → Answers c s fun t =>
          t = { s with fab := { s.fab with ports := t.fab.ports }, pins := t.pins } ∧
          (portOf t n).inVc2 = (portOf s n).inVc2 ++ [fl] ∧ (portOf t n).owed = (portOf s n).owed) ∧
        (s.clk.st = 0 → transit s n 2 = 0 → (portOf s n).inVc2 = [] →
          (s.fab.dup = true → Answers c s fun t => t = { s with fab := { s.fab with ports := t.fab.ports }, pins := t.pins } ∧
            (portOf t n).inVc2 = []) ∧
          (s.fab.dup = false → (hasAdapt s = false ∨ gRole g = 0 ∨ gRole g = 3) → Answers c s fun t =>
            t = { s with fab := { s.fab with ports := t.fab.ports }, regs := t.regs, cyc := t.cyc, ev := t.ev, pins := t.pins } ∧
            RegsKept s t [0x7050] ∧ (good → t.ev = s.ev) ∧ (¬ good → Caused t 0x4D) ∧
            regF t 0x7050 0 32 = min 0xFFFFFFFF (regF s 0x7050 0 32 + 1)) ∧
          (s.fab.dup = false → hasAdapt s = true → gRole g = 2 → Answers c s fun t =>
            near t ∧ t.red = s.red ∧ Passed s t out n [fl] ∧ (portUp s out = true → (portOf t n).owed = (portOf s n).owed)))
      let takes := Heard s n ∧ fieldN fl.side 30 2 = 2 ∧ others ∧ s.clk.st = 0 ∧ transit s n 2 = 0 ∧ (portOf s n).inVc2 = [] ∧
        s.fab.dup = false ∧ hasAdapt s = true ∧ gRole g = 1 ∧ k < s.red.length
      arrives (.sumFlit n fl) 0 ∧ arrives (.paramFlit n fl) 1 ∧
      (takes → flRch fl % 2 = 0 → g.waiting = [] →
        let x := mget g.blks {} b
        let q := quant x.m (flExp fl)
        let man (i : Nat) : Int := if good then mantissa fl.data i else 0
        let ovs := if good then flOvs fl else 7
        let peak (l : List Int) : Nat := l.foldl (fun a v => max a v.natAbs) 0
        let sumTok := min (gTokens g) (g.sumTok + 1)
        let resid := residAt g b
        let next := copyBase g (liveCopy s + 1) + 128 * b
        let live (i : Nat) : W32 := blockEntry s (copyBase g (liveCopy s) + 128 * b) i
        let fits := s.spad.flips = [] ∧ BlockFits s resid ∧ BlockFits s next ∧ BlockFits s (copyBase g (liveCopy s) + 128 * b)
        let corrects (t : State) (x2 : Int) : Prop := fits → ∀ i, i < 32 →
          let neg := x.sgn.getLsbD i
          blockEntry t resid i = w32 (f32Add .rne false 0 (blockEntry s resid i)
            (w32 (f32Sub .rne false 0 (scaled neg x.q x.x1) (scaled neg (quant x.m x2) x2))))
        let segEnd (j : Nat) : Nat := fieldN (if j < 2 then g.live.end01 else g.live.end23) (16 * (j % 2)) 12
        let updates (t : State) : Prop := fits → ∀ i, i < 32 →
          ((∀ j, j < 4 → segEnd j ≤ b) → blockEntry t next i = live i) ∧
          ∀ j, j < 4 → b < segEnd j → (∀ h, h < j → segEnd h ≤ b) →
            let p := w32 (arith32 .rne false 0
              (fmaX (f32 (lget g.live.lr 0 j)).negate (.fin (decide (man i < 0)) (man i).natAbs (flExp fl)) (f32 (live i))))
            let lo := lget g.live.pmin 0 j
            let hi := lget g.live.pmax 0 j
            blockEntry t next i =
              if (f32 p).isNan then live i else if ltX (f32 p) (f32 lo) then lo else if ltX (f32 hi) (f32 p) then hi else p
        let home (t : State) : Prop :=
          grp t k = { g with sumTok := sumTok, inSum := g.inSum - 1, blks := (grp t k).blks } ∧
          (∀ j, j ≠ k → grp t j = grp s j) ∧ (∀ d, d ≠ b → mget (grp t k).blks {} d = mget g.blks {} d) ∧
          EvGrows s t ∧ t.mode = s.mode ∧ t.acc = s.acc ∧ t.seq.benches = s.seq.benches
        (g.st ≠ 3 → (g.st ≠ 1 ∨ x.formed = false) → Answers (.sumFlit n fl) s fun t =>
          t = { s with fab := { s.fab with ports := t.fab.ports }, red := t.red, pins := t.pins } ∧
          (∀ j, j ≠ k → grp t j = grp s j) ∧ grp t k = { g with waiting := [(n, fl)] }) ∧
        (g.st = 1 → x.formed = true → gOwns g b = false → Answers (.sumFlit n fl) s fun t =>
          let l := (natsTo 32).map fun i => man i + (if x.sgn.getLsbD i then -(q : Int) else q)
          grp t k = { g with blks := (grp t k).blks, leaving := g.leaving ++ [(mclkOf s + 4,
            redFlit (2 * k) (mantissas (l.map clamp)) (flExp fl) (if 127 < peak l then max ovs (ovsOf (peak l)) else ovs) b)] } ∧
          (∀ d, d ≠ b → mget (grp t k).blks {} d = mget g.blks {} d) ∧ EvGrows s t ∧
          (x.seen = 0 → near t ∧ mget (grp t k).blks {} b = { x with seen := 1, q := q, x1 := flExp fl }) ∧
          (x.seen ≠ 0 → mget (grp t k).blks {} b = { x with seen := 2 } ∧ corrects t (flExp fl))) ∧
        (g.st = 1 → x.formed = true → gOwns g b = true → ovs = 0 → Answers (.sumFlit n fl) s fun t => home t ∧ updates t ∧
          mget (grp t k).blks {} b = { x with updated := true, x := nextExp g (peak ((natsTo 32).map man)) (flExp fl) }) ∧
        (g.st = 1 → x.formed = true → gOwns g b = true → ovs ≠ 0 → x.seen ≠ 2 → Answers (.sumFlit n fl) s fun t =>
          Caused t 0x4A ∧ EvGrows s t ∧ (grp t k).sumTok = g.sumTok ∧ (mget (grp t k).blks {} b).seen = 2 ∧
          corrects t (min 120 (flExp fl + ovs)) ∧ ∃ d o, (grp t k).leaving = g.leaving ++ [(mclkOf s + 4, redFlit (2 * k) d (min 120 (flExp fl + ovs)) o b)]) ∧
        (g.st = 1 → x.formed = true → gOwns g b = true → ovs ≠ 0 → x.seen = 2 → Answers (.sumFlit n fl) s fun t => home t ∧
          Caused t (if ovs = 7 then 0x4C else 0x4B) ∧ (ovs ≠ 7 → updates t) ∧
          (ovs = 7 → fits → ∀ i, i < 32 → blockEntry t next i = live i) ∧ mget (grp t k).blks {} b = { x with
            updated := true, x := if ovs = 7 then flExp fl else nextExp g (peak ((natsTo 32).map man)) (flExp fl) }) ∧
        (g.st = 3 → gOwns g b = true → Answers (.sumFlit n fl) s fun t => near t ∧
          grp t k = { g with sumTok := sumTok, inSum := g.inSum - 1, st := if sumTok = gTokens g ∧ g.parTok = 1 then 0 else 3 }) ∧
        (g.st = 3 → gOwns g b = false → Answers (.sumFlit n fl) s fun t => near t ∧ Passed s t out 6 [fl] ∧
          grp t k = { g with st := if g.sumTok = gTokens g ∧ g.parTok = 1 then 0 else 3 })) ∧
      (takes → flRch fl % 2 = 1 →
        let i := flOvs fl % 4
        let sec := (copyBase g (liveCopy s + 1) + 128 * b + 32 * i) % spadBytes s / 32
        let parTok := if i = 3 then min 1 (g.parTok + 1) else g.parTok
        let inPar := if i = 3 then g.inPar - 1 else g.inPar
        let fin := ∀ d, d < gNblk g → let y := mget g.blks {} d
          if gOwns g d then y.updated = true ∧ (d = b ∨ y.home = true) else y.arrived = 15
        let ends (t : State) : Prop := Caused t 0x49 ∧ Caused t 0x4D ∧ EvGrows s t ∧ t.spad = s.spad ∧ t.mode = s.mode ∧ t.acc = s.acc ∧
          (grp t k).cause = 2 ∧ (grp t k).waiting = [] ∧ ((grp t k).st = 0 ∨ (grp t k).st = 3)
        (gOwns g b = true → g.st = 1 → good → i = 3 → Answers (.paramFlit n fl) s fun t =>
          t = { s with fab := { s.fab with ports := t.fab.ports }, red := t.red, ev := t.ev, pins := t.pins } ∧ EvGrows s t ∧
          grp t k = { g with parTok := parTok, inPar := inPar, st := (grp t k).st, blks := (grp t k).blks } ∧
          mget (grp t k).blks {} b = { mget g.blks {} b with home := true } ∧
          (fin → (grp t k).st = 2 ∧ Caused t 0x48) ∧ (¬ fin → (grp t k).st = 1 ∧ t.ev = s.ev)) ∧
        (gOwns g b = true → g.st = 1 → good → i ≠ 3 → Answers (.paramFlit n fl) s fun t => near t ∧ grp t k = g) ∧
        (gOwns g b = true → g.st = 1 → ¬ good → Answers (.paramFlit n fl) s ends) ∧
        (gOwns g b = true → g.st = 3 → Answers (.paramFlit n fl) s fun t => near t ∧
          grp t k = { g with parTok := parTok, inPar := inPar, st := if g.sumTok = gTokens g ∧ parTok = 1 then 0 else 3 }) ∧
        (gOwns g b = true → g.st ≠ 1 → g.st ≠ 3 → Answers (.paramFlit n fl) s fun t => near t ∧
          grp t k = { g with parTok := parTok, inPar := inPar }) ∧
        (gOwns g b = false → g.st = 1 → good → spadFits s (32 * sec) 32 = true → Answers (.paramFlit n fl) s fun t =>
          (∀ j, j < 32 → spadByte t (32 * sec + j) = BitVec.ofNat 8 (fl.data.toNat / 256 ^ j)) ∧
          (∀ a, a / 32 ≠ sec → spadByte t a = spadByte s a) ∧
          (mget (grp t k).blks {} b).arrived = (mget g.blks {} b).arrived ||| 2 ^ i ∧
          (mget (grp t k).blks {} b).x = (if i = 3 then flExp fl else (mget g.blks {} b).x) ∧
          (grp t k).leaving = g.leaving ++ [(mclkOf s + 4, fl)] ∧ EvGrows s t ∧ t.mode = s.mode ∧ t.acc = s.acc ∧ t.regs = s.regs) ∧
        (gOwns g b = false → g.st = 1 → ¬ good → Answers (.paramFlit n fl) s fun t => ends t ∧
          (grp t k).leaving = g.leaving ++ [(mclkOf s + 4, fl)]) ∧
        (gOwns g b = false → g.st ≠ 1 → Answers (.paramFlit n fl) s fun t => near t ∧ grp t k = g ∧ Passed s t out 6 [fl])))
end

