-- ==== Sys2Proof/Laws/SMap.lean ====
section
/-! SUPPORT. Laws of sparse maps and lists: what is read after a write, and that every operation keeps the canonical form. -/
namespace Sys2Proof.Machine

variable {α : Type}

-- Reading after a write.

/-- A deleted key reads as the default, and no other key changes. -/
@[simp] theorem mget_mdel (m : SMap α) (d : α) (k j : Nat) : mget (mdel m k) d j = if j = k then d else mget m d j := by
  induction m with
  | nil => simp [mdel, mget]
  | cons e r ih =>
    by_cases h : e.1 = k
    · simp only [mdel, h, if_true, ih]
      by_cases hj : j = k
      · simp [hj]
      · simp [hj, mget, h, Ne.symm hj]
    · simp only [mdel, h, if_false, mget, ih]
      by_cases hj : e.1 = j
      · subst hj; simp [h]
      · simp [hj]

/-- An inserted key reads as its value, and every other key as before; the key was not listed. -/
theorem mget_mins (m : SMap α) (d v : α) (k j : Nat) (h : ∀ e ∈ m, e.1 ≠ k) :
    mget (mins m k v) d j = if j = k then v else mget m d j := by
  induction m with
  | nil =>
    by_cases hj : j = k
    · simp [mins, mget, hj]
    · simp [mins, mget, hj, Ne.symm hj]
  | cons e r ih =>
    have he : e.1 ≠ k := h e (by simp)
    have hr : ∀ x ∈ r, x.1 ≠ k := fun x hx => h x (by simp [hx])
    by_cases hlt : k < e.1
    · simp only [mins, hlt, if_true, mget]
      by_cases hj : j = k
      · simp [hj]
      · simp [hj, Ne.symm hj]
    · simp only [mins, hlt, if_false, mget, ih hr]
      by_cases hj : e.1 = j
      · subst hj; simp [he]
      · simp [hj]

/-- A deleted key is not listed. -/
theorem mdel_ne (m : SMap α) (k : Nat) : ∀ e ∈ mdel m k, e.1 ≠ k := by
  induction m with
  | nil => simp [mdel]
  | cons x r ih =>
    by_cases h : x.1 = k
    · simpa [mdel, h] using ih
    · intro e he
      simp only [mdel, h, if_false, List.mem_cons] at he
      rcases he with rfl | he
      · exact h
      · exact ih e he

/-- What is read after a write: the value written at its key, and what was there at every other key. -/
@[simp] theorem mget_mset [DecidableEq α] (m : SMap α) (d v : α) (k j : Nat) :
    mget (mset m d k v) d j = if j = k then v else mget m d j := by
  by_cases h : v = d
  · simp [mset, h]
  · simp only [mset, h, if_false]
    rw [mget_mins _ _ _ _ _ (mdel_ne m k), mget_mdel]
    by_cases hj : j = k <;> simp [hj]

/-- The same for a change of the value. -/
@[simp] theorem mget_mupd [DecidableEq α] (m : SMap α) (d : α) (k j : Nat) (f : α → α) :
    mget (mupd m d k f) d j = if j = k then f (mget m d k) else mget m d j := by
  simp [mupd]

-- The canonical form.

/-- A smaller bound holds too. -/
theorem mwfFrom_mono [DecidableEq α] (d : α) (m : SMap α) (lo lo' : Nat) (h : lo' ≤ lo) (w : mwfFrom d lo m = true) :
    mwfFrom d lo' m = true := by
  cases m with
  | nil => rfl
  | cons e r =>
    simp only [mwfFrom, Bool.and_eq_true, decide_eq_true_eq] at w ⊢
    exact ⟨⟨by omega, w.1.2⟩, w.2⟩

/-- Deletion keeps the form. -/
theorem mwfFrom_mdel [DecidableEq α] (d : α) (k : Nat) (m : SMap α) (lo : Nat) (w : mwfFrom d lo m = true) :
    mwfFrom d lo (mdel m k) = true := by
  induction m generalizing lo with
  | nil => rfl
  | cons e r ih =>
    simp only [mwfFrom, Bool.and_eq_true, decide_eq_true_eq] at w
    by_cases h : e.1 = k
    · simp only [mdel, h, if_true]
      exact mwfFrom_mono d _ (e.1 + 1) lo (by omega) (ih _ w.2)
    · simp only [mdel, h, if_false, mwfFrom, Bool.and_eq_true, decide_eq_true_eq]
      exact ⟨w.1, ih _ w.2⟩

/-- Insertion of a value that is not the default at a key that is not listed keeps the form. -/
theorem mwfFrom_mins [DecidableEq α] (d v : α) (k : Nat) (hv : v ≠ d) (m : SMap α) (lo : Nat) (hk : lo ≤ k)
    (hm : ∀ e ∈ m, e.1 ≠ k) (w : mwfFrom d lo m = true) : mwfFrom d lo (mins m k v) = true := by
  induction m generalizing lo with
  | nil => simp [mins, mwfFrom, hk, hv]
  | cons e r ih =>
    simp only [mwfFrom, Bool.and_eq_true, decide_eq_true_eq] at w
    have he : e.1 ≠ k := hm e (by simp)
    by_cases hlt : k < e.1
    · simp only [mins, hlt, if_true, mwfFrom, Bool.and_eq_true, decide_eq_true_eq]
      exact ⟨⟨hk, hv⟩, ⟨by omega, w.1.2⟩, w.2⟩
    · simp only [mins, hlt, if_false, mwfFrom, Bool.and_eq_true, decide_eq_true_eq]
      exact ⟨w.1, ih _ (by omega) (fun x hx => hm x (by simp [hx])) w.2⟩

/-- A write keeps the canonical form. -/
theorem mwf_mset [DecidableEq α] (m : SMap α) (d v : α) (k : Nat) (w : mwf d m = true) : mwf d (mset m d k v) = true := by
  by_cases h : v = d
  · rw [mset, if_pos h]; exact mwfFrom_mdel d k m 0 w
  · simp only [mset, h, if_false]
    exact mwfFrom_mins d v k h _ 0 (Nat.zero_le _) (mdel_ne m k) (mwfFrom_mdel d k m 0 w)

/-- A change keeps the canonical form. -/
theorem mwf_mupd [DecidableEq α] (m : SMap α) (d : α) (k : Nat) (f : α → α) (w : mwf d m = true) :
    mwf d (mupd m d k f) = true := mwf_mset m d _ k w

/-- Writes at consecutive keys keep the canonical form. -/
theorem mwf_msetFrom [DecidableEq α] (d : α) (l : List α) (m : SMap α) (k : Nat) (w : mwf d m = true) :
    mwf d (msetFrom m d k l) = true := by
  induction l generalizing m k with
  | nil => exact w
  | cons v r ih => exact ih _ _ (mwf_mset m d v k w)

/-- Any choice among the entries keeps the canonical form. -/
theorem mwfFrom_filter [DecidableEq α] (d : α) (p : Nat × α → Bool) (m : SMap α) (lo : Nat) (w : mwfFrom d lo m = true) :
    mwfFrom d lo (m.filter p) = true := by
  induction m generalizing lo with
  | nil => rfl
  | cons e r ih =>
    simp only [mwfFrom, Bool.and_eq_true, decide_eq_true_eq] at w
    cases h : p e
    · simp only [List.filter, h]
      exact mwfFrom_mono d _ (e.1 + 1) lo (by omega) (ih _ w.2)
    · simp only [List.filter, h, mwfFrom, Bool.and_eq_true, decide_eq_true_eq]
      exact ⟨w.1, ih _ w.2⟩

/-- A range reset keeps the canonical form. -/
theorem mwf_mclear [DecidableEq α] (d : α) (m : SMap α) (lo hi : Nat) (w : mwf d m = true) : mwf d (mclear m lo hi) = true :=
  mwfFrom_filter d _ m 0 w

/-- A range that is reset reads as the default, and no other key changes. -/
@[simp] theorem mget_mclear (m : SMap α) (d : α) (lo hi j : Nat) :
    mget (mclear m lo hi) d j = if lo ≤ j ∧ j < hi then d else mget m d j := by
  induction m with
  | nil => simp [mclear, mget]
  | cons e r ih =>
    have step : mclear (e :: r) lo hi = if lo ≤ e.1 ∧ e.1 < hi then mclear r lo hi else e :: mclear r lo hi := by
      by_cases h : lo ≤ e.1 ∧ e.1 < hi
      · simp [mclear, h]
      · simp only [h, if_false]
        have hb : (!(decide (lo ≤ e.1) && decide (e.1 < hi))) = true := by
          simp only [Bool.not_eq_true', Bool.and_eq_false_iff, decide_eq_false_iff_not]; omega
        simp [mclear, List.filter, hb]
    rw [step]
    by_cases h : lo ≤ e.1 ∧ e.1 < hi
    · rw [if_pos h, ih]
      by_cases hj : lo ≤ j ∧ j < hi
      · simp [hj]
      · have : e.1 ≠ j := fun x => hj (x ▸ h)
        simp [hj, mget, this]
    · rw [if_neg h]
      simp only [mget, ih]
      by_cases hj : e.1 = j
      · subst hj; simp [h]
      · simp [hj]

-- Lists.

/-- A change of element i changes no other element and no length. -/
@[simp] theorem length_lupd (l : List α) (i : Nat) (f : α → α) : (lupd l i f).length = l.length := by
  induction l generalizing i with
  | nil => rfl
  | cons a r ih => cases i <;> simp [lupd, ih]

/-- What is read after a change of element i. -/
theorem lget_lupd (l : List α) (d : α) (i j : Nat) (f : α → α) :
    lget (lupd l i f) d j = if j = i ∧ i < l.length then f (lget l d i) else lget l d j := by
  induction l generalizing i j with
  | nil => simp [lupd, lget]
  | cons a r ih =>
    cases i with
    | zero => cases j <;> simp [lupd, lget]
    | succ i =>
      cases j with
      | zero => simp [lupd, lget]
      | succ j => simp [lupd, lget, ih]

/-- Past its end a list reads as the default. -/
theorem lget_past (l : List α) (d : α) (i : Nat) (h : l.length ≤ i) : lget l d i = d := by
  induction l generalizing i with
  | nil => rfl
  | cons a r ih =>
    cases i with
    | zero => simp at h
    | succ i => exact ih i (by simpa using h)

/-- The numbers from `lo` on. -/
theorem mem_natsFrom (lo n j : Nat) : j ∈ natsFrom lo n ↔ lo ≤ j ∧ j < lo + n := by
  induction n generalizing lo with
  | zero => simp [natsFrom]
  | succ n ih => simp only [natsFrom, List.mem_cons, ih]; omega

/-- The numbers below n. -/
@[simp] theorem mem_natsTo (n j : Nat) : j ∈ natsTo n ↔ j < n := by
  simp [natsTo, mem_natsFrom]

@[simp] theorem length_natsFrom (lo n : Nat) : (natsFrom lo n).length = n := by
  induction n generalizing lo with
  | zero => rfl
  | succ n ih => simp [natsFrom, ih]

@[simp] theorem length_natsTo (n : Nat) : (natsTo n).length = n := length_natsFrom 0 n

/-- A list made of the values at the numbers below n. -/
theorem lget_map_natsFrom (f : Nat → α) (d : α) (lo n i : Nat) (h : i < n) : lget ((natsFrom lo n).map f) d i = f (lo + i) := by
  induction n generalizing lo i with
  | zero => omega
  | succ n ih =>
    cases i with
    | zero => simp [natsFrom, lget]
    | succ i => simp only [natsFrom, List.map_cons, lget]; rw [ih (lo + 1) i (by omega)]; congr 1; omega

/-- The same from 0. -/
theorem lget_map_natsTo (f : Nat → α) (d : α) (n i : Nat) (h : i < n) : lget ((natsTo n).map f) d i = f i := by
  rw [natsTo, lget_map_natsFrom f d 0 n i h, Nat.zero_add]

/-- A property kept by every change of a fold over numbers is kept by the fold. -/
theorem foldTo_keeps {σ : Type} (P : σ → Prop) (f : Nat → σ → σ) (h : ∀ i s, P s → P (f i s)) (n : Nat) (s : σ) (hs : P s) :
    P (foldTo n f s) := by
  unfold foldTo
  generalize natsTo n = l
  induction l generalizing s with
  | nil => exact hs
  | cons i r ih => exact ih _ (h i s hs)

end Sys2Proof.Machine
end

