-- ==== Sys2Proof/Laws/State.lean ====
section
/-! SUPPORT. One lemma for each field and each update of the state: what an update leaves as it was. -/
namespace Sys2Proof.Machine

variable (s : State)

-- putReg.
@[simp] theorem putReg_clk (off : Nat) (v : W32) : (putReg s off v).clk = s.clk := rfl
@[simp] theorem putReg_ev (off : Nat) (v : W32) : (putReg s off v).ev = s.ev := rfl
@[simp] theorem putReg_perf (off : Nat) (v : W32) : (putReg s off v).perf = s.perf := rfl
@[simp] theorem putReg_mb (off : Nat) (v : W32) : (putReg s off v).mb = s.mb := rfl
@[simp] theorem putReg_cyc (off : Nat) (v : W32) : (putReg s off v).cyc = s.cyc := rfl
@[simp] theorem putReg_seq (off : Nat) (v : W32) : (putReg s off v).seq = s.seq := rfl
@[simp] theorem putReg_gen (off : Nat) (v : W32) : (putReg s off v).gen = s.gen := rfl
@[simp] theorem putReg_genSeed (off : Nat) (v : W32) : (putReg s off v).genSeed = s.genSeed := rfl
@[simp] theorem putReg_arr (off : Nat) (v : W32) : (putReg s off v).arr = s.arr := rfl
@[simp] theorem putReg_acc (off : Nat) (v : W32) : (putReg s off v).acc = s.acc := rfl
@[simp] theorem putReg_seams (off : Nat) (v : W32) : (putReg s off v).seams = s.seams := rfl
@[simp] theorem putReg_gate (off : Nat) (v : W32) : (putReg s off v).gate = s.gate := rfl
@[simp] theorem putReg_scan (off : Nat) (v : W32) : (putReg s off v).scan = s.scan := rfl
@[simp] theorem putReg_vec (off : Nat) (v : W32) : (putReg s off v).vec = s.vec := rfl
@[simp] theorem putReg_sfu (off : Nat) (v : W32) : (putReg s off v).sfu = s.sfu := rfl
@[simp] theorem putReg_spad (off : Nat) (v : W32) : (putReg s off v).spad = s.spad := rfl
@[simp] theorem putReg_rings (off : Nat) (v : W32) : (putReg s off v).rings = s.rings := rfl
@[simp] theorem putReg_wins (off : Nat) (v : W32) : (putReg s off v).wins = s.wins := rfl
@[simp] theorem putReg_chans (off : Nat) (v : W32) : (putReg s off v).chans = s.chans := rfl
@[simp] theorem putReg_memp (off : Nat) (v : W32) : (putReg s off v).memp = s.memp := rfl
@[simp] theorem putReg_fab (off : Nat) (v : W32) : (putReg s off v).fab = s.fab := rfl
@[simp] theorem putReg_mode (off : Nat) (v : W32) : (putReg s off v).mode = s.mode := rfl
@[simp] theorem putReg_red (off : Nat) (v : W32) : (putReg s off v).red = s.red := rfl
@[simp] theorem putReg_boot (off : Nat) (v : W32) : (putReg s off v).boot = s.boot := rfl
@[simp] theorem putReg_store (off : Nat) (v : W32) : (putReg s off v).store = s.store := rfl
@[simp] theorem putReg_sup (off : Nat) (v : W32) : (putReg s off v).sup = s.sup := rfl
@[simp] theorem putReg_rst (off : Nat) (v : W32) : (putReg s off v).rst = s.rst := rfl
@[simp] theorem putReg_pins (off : Nat) (v : W32) : (putReg s off v).pins = s.pins := rfl
@[simp] theorem putReg_fuse (off : Nat) (v : W32) : (putReg s off v).fuse = s.fuse := rfl
@[simp] theorem putReg_straps (off : Nat) (v : W32) : (putReg s off v).straps = s.straps := rfl
@[simp] theorem putReg_variant (off : Nat) (v : W32) : (putReg s off v).variant = s.variant := rfl
@[simp] theorem putReg_denied (off : Nat) (v : W32) : (putReg s off v).denied = s.denied := rfl
@[simp] theorem putReg_free (off : Nat) (v : W32) : (putReg s off v).free = s.free := rfl
@[simp] theorem putReg_pending (off : Nat) (v : W32) : (putReg s off v).pending = s.pending := rfl

-- hostReg.
@[simp] theorem hostReg_clk (off : Nat) (v : W32) : (hostReg s off v).clk = s.clk := rfl
@[simp] theorem hostReg_ev (off : Nat) (v : W32) : (hostReg s off v).ev = s.ev := rfl
@[simp] theorem hostReg_perf (off : Nat) (v : W32) : (hostReg s off v).perf = s.perf := rfl
@[simp] theorem hostReg_mb (off : Nat) (v : W32) : (hostReg s off v).mb = s.mb := rfl
@[simp] theorem hostReg_cyc (off : Nat) (v : W32) : (hostReg s off v).cyc = s.cyc := rfl
@[simp] theorem hostReg_seq (off : Nat) (v : W32) : (hostReg s off v).seq = s.seq := rfl
@[simp] theorem hostReg_gen (off : Nat) (v : W32) : (hostReg s off v).gen = s.gen := rfl
@[simp] theorem hostReg_genSeed (off : Nat) (v : W32) : (hostReg s off v).genSeed = s.genSeed := rfl
@[simp] theorem hostReg_arr (off : Nat) (v : W32) : (hostReg s off v).arr = s.arr := rfl
@[simp] theorem hostReg_acc (off : Nat) (v : W32) : (hostReg s off v).acc = s.acc := rfl
@[simp] theorem hostReg_seams (off : Nat) (v : W32) : (hostReg s off v).seams = s.seams := rfl
@[simp] theorem hostReg_gate (off : Nat) (v : W32) : (hostReg s off v).gate = s.gate := rfl
@[simp] theorem hostReg_scan (off : Nat) (v : W32) : (hostReg s off v).scan = s.scan := rfl
@[simp] theorem hostReg_vec (off : Nat) (v : W32) : (hostReg s off v).vec = s.vec := rfl
@[simp] theorem hostReg_sfu (off : Nat) (v : W32) : (hostReg s off v).sfu = s.sfu := rfl
@[simp] theorem hostReg_spad (off : Nat) (v : W32) : (hostReg s off v).spad = s.spad := rfl
@[simp] theorem hostReg_rings (off : Nat) (v : W32) : (hostReg s off v).rings = s.rings := rfl
@[simp] theorem hostReg_wins (off : Nat) (v : W32) : (hostReg s off v).wins = s.wins := rfl
@[simp] theorem hostReg_chans (off : Nat) (v : W32) : (hostReg s off v).chans = s.chans := rfl
@[simp] theorem hostReg_memp (off : Nat) (v : W32) : (hostReg s off v).memp = s.memp := rfl
@[simp] theorem hostReg_fab (off : Nat) (v : W32) : (hostReg s off v).fab = s.fab := rfl
@[simp] theorem hostReg_mode (off : Nat) (v : W32) : (hostReg s off v).mode = s.mode := rfl
@[simp] theorem hostReg_red (off : Nat) (v : W32) : (hostReg s off v).red = s.red := rfl
@[simp] theorem hostReg_boot (off : Nat) (v : W32) : (hostReg s off v).boot = s.boot := rfl
@[simp] theorem hostReg_store (off : Nat) (v : W32) : (hostReg s off v).store = s.store := rfl
@[simp] theorem hostReg_sup (off : Nat) (v : W32) : (hostReg s off v).sup = s.sup := rfl
@[simp] theorem hostReg_rst (off : Nat) (v : W32) : (hostReg s off v).rst = s.rst := rfl
@[simp] theorem hostReg_pins (off : Nat) (v : W32) : (hostReg s off v).pins = s.pins := rfl
@[simp] theorem hostReg_fuse (off : Nat) (v : W32) : (hostReg s off v).fuse = s.fuse := rfl
@[simp] theorem hostReg_straps (off : Nat) (v : W32) : (hostReg s off v).straps = s.straps := rfl
@[simp] theorem hostReg_variant (off : Nat) (v : W32) : (hostReg s off v).variant = s.variant := rfl
@[simp] theorem hostReg_denied (off : Nat) (v : W32) : (hostReg s off v).denied = s.denied := rfl
@[simp] theorem hostReg_free (off : Nat) (v : W32) : (hostReg s off v).free = s.free := rfl
@[simp] theorem hostReg_pending (off : Nat) (v : W32) : (hostReg s off v).pending = s.pending := rfl

-- tileUpd.
@[simp] theorem tileUpd_clk (off : Nat) (m : W32) : (tileUpd s off m).clk = s.clk := by unfold tileUpd; split <;> rfl
@[simp] theorem tileUpd_ev (off : Nat) (m : W32) : (tileUpd s off m).ev = s.ev := by unfold tileUpd; split <;> rfl
@[simp] theorem tileUpd_perf (off : Nat) (m : W32) : (tileUpd s off m).perf = s.perf := by unfold tileUpd; split <;> rfl
@[simp] theorem tileUpd_mb (off : Nat) (m : W32) : (tileUpd s off m).mb = s.mb := by unfold tileUpd; split <;> rfl
@[simp] theorem tileUpd_regs (off : Nat) (m : W32) : (tileUpd s off m).regs = s.regs := by unfold tileUpd; split <;> rfl
@[simp] theorem tileUpd_seq (off : Nat) (m : W32) : (tileUpd s off m).seq = s.seq := by unfold tileUpd; split <;> rfl
@[simp] theorem tileUpd_gen (off : Nat) (m : W32) : (tileUpd s off m).gen = s.gen := by unfold tileUpd; split <;> rfl
@[simp] theorem tileUpd_genSeed (off : Nat) (m : W32) : (tileUpd s off m).genSeed = s.genSeed := by unfold tileUpd; split <;> rfl
@[simp] theorem tileUpd_arr (off : Nat) (m : W32) : (tileUpd s off m).arr = s.arr := by unfold tileUpd; split <;> rfl
@[simp] theorem tileUpd_acc (off : Nat) (m : W32) : (tileUpd s off m).acc = s.acc := by unfold tileUpd; split <;> rfl
@[simp] theorem tileUpd_seams (off : Nat) (m : W32) : (tileUpd s off m).seams = s.seams := by unfold tileUpd; split <;> rfl
@[simp] theorem tileUpd_gate (off : Nat) (m : W32) : (tileUpd s off m).gate = s.gate := by unfold tileUpd; split <;> rfl
@[simp] theorem tileUpd_scan (off : Nat) (m : W32) : (tileUpd s off m).scan = s.scan := by unfold tileUpd; split <;> rfl
@[simp] theorem tileUpd_vec (off : Nat) (m : W32) : (tileUpd s off m).vec = s.vec := by unfold tileUpd; split <;> rfl
@[simp] theorem tileUpd_sfu (off : Nat) (m : W32) : (tileUpd s off m).sfu = s.sfu := by unfold tileUpd; split <;> rfl
@[simp] theorem tileUpd_spad (off : Nat) (m : W32) : (tileUpd s off m).spad = s.spad := by unfold tileUpd; split <;> rfl
@[simp] theorem tileUpd_rings (off : Nat) (m : W32) : (tileUpd s off m).rings = s.rings := by unfold tileUpd; split <;> rfl
@[simp] theorem tileUpd_wins (off : Nat) (m : W32) : (tileUpd s off m).wins = s.wins := by unfold tileUpd; split <;> rfl
@[simp] theorem tileUpd_chans (off : Nat) (m : W32) : (tileUpd s off m).chans = s.chans := by unfold tileUpd; split <;> rfl
@[simp] theorem tileUpd_memp (off : Nat) (m : W32) : (tileUpd s off m).memp = s.memp := by unfold tileUpd; split <;> rfl
@[simp] theorem tileUpd_fab (off : Nat) (m : W32) : (tileUpd s off m).fab = s.fab := by unfold tileUpd; split <;> rfl
@[simp] theorem tileUpd_mode (off : Nat) (m : W32) : (tileUpd s off m).mode = s.mode := by unfold tileUpd; split <;> rfl
@[simp] theorem tileUpd_red (off : Nat) (m : W32) : (tileUpd s off m).red = s.red := by unfold tileUpd; split <;> rfl
@[simp] theorem tileUpd_boot (off : Nat) (m : W32) : (tileUpd s off m).boot = s.boot := by unfold tileUpd; split <;> rfl
@[simp] theorem tileUpd_store (off : Nat) (m : W32) : (tileUpd s off m).store = s.store := by unfold tileUpd; split <;> rfl
@[simp] theorem tileUpd_sup (off : Nat) (m : W32) : (tileUpd s off m).sup = s.sup := by unfold tileUpd; split <;> rfl
@[simp] theorem tileUpd_rst (off : Nat) (m : W32) : (tileUpd s off m).rst = s.rst := by unfold tileUpd; split <;> rfl
@[simp] theorem tileUpd_pins (off : Nat) (m : W32) : (tileUpd s off m).pins = s.pins := by unfold tileUpd; split <;> rfl
@[simp] theorem tileUpd_fuse (off : Nat) (m : W32) : (tileUpd s off m).fuse = s.fuse := by unfold tileUpd; split <;> rfl
@[simp] theorem tileUpd_straps (off : Nat) (m : W32) : (tileUpd s off m).straps = s.straps := by unfold tileUpd; split <;> rfl
@[simp] theorem tileUpd_variant (off : Nat) (m : W32) : (tileUpd s off m).variant = s.variant := by unfold tileUpd; split <;> rfl
@[simp] theorem tileUpd_denied (off : Nat) (m : W32) : (tileUpd s off m).denied = s.denied := by unfold tileUpd; split <;> rfl
@[simp] theorem tileUpd_free (off : Nat) (m : W32) : (tileUpd s off m).free = s.free := by unfold tileUpd; split <;> rfl
@[simp] theorem tileUpd_pending (off : Nat) (m : W32) : (tileUpd s off m).pending = s.pending := by unfold tileUpd; split <;> rfl

-- setReg.
@[simp] theorem setReg_clk (off : Nat) (v : W32) : (setReg s off v).clk = s.clk := tileUpd_clk _ _ _
@[simp] theorem setReg_ev (off : Nat) (v : W32) : (setReg s off v).ev = s.ev := tileUpd_ev _ _ _
@[simp] theorem setReg_perf (off : Nat) (v : W32) : (setReg s off v).perf = s.perf := tileUpd_perf _ _ _
@[simp] theorem setReg_mb (off : Nat) (v : W32) : (setReg s off v).mb = s.mb := tileUpd_mb _ _ _
@[simp] theorem setReg_seq (off : Nat) (v : W32) : (setReg s off v).seq = s.seq := tileUpd_seq _ _ _
@[simp] theorem setReg_gen (off : Nat) (v : W32) : (setReg s off v).gen = s.gen := tileUpd_gen _ _ _
@[simp] theorem setReg_genSeed (off : Nat) (v : W32) : (setReg s off v).genSeed = s.genSeed := tileUpd_genSeed _ _ _
@[simp] theorem setReg_arr (off : Nat) (v : W32) : (setReg s off v).arr = s.arr := tileUpd_arr _ _ _
@[simp] theorem setReg_acc (off : Nat) (v : W32) : (setReg s off v).acc = s.acc := tileUpd_acc _ _ _
@[simp] theorem setReg_seams (off : Nat) (v : W32) : (setReg s off v).seams = s.seams := tileUpd_seams _ _ _
@[simp] theorem setReg_gate (off : Nat) (v : W32) : (setReg s off v).gate = s.gate := tileUpd_gate _ _ _
@[simp] theorem setReg_scan (off : Nat) (v : W32) : (setReg s off v).scan = s.scan := tileUpd_scan _ _ _
@[simp] theorem setReg_vec (off : Nat) (v : W32) : (setReg s off v).vec = s.vec := tileUpd_vec _ _ _
@[simp] theorem setReg_sfu (off : Nat) (v : W32) : (setReg s off v).sfu = s.sfu := tileUpd_sfu _ _ _
@[simp] theorem setReg_spad (off : Nat) (v : W32) : (setReg s off v).spad = s.spad := tileUpd_spad _ _ _
@[simp] theorem setReg_rings (off : Nat) (v : W32) : (setReg s off v).rings = s.rings := tileUpd_rings _ _ _
@[simp] theorem setReg_wins (off : Nat) (v : W32) : (setReg s off v).wins = s.wins := tileUpd_wins _ _ _
@[simp] theorem setReg_chans (off : Nat) (v : W32) : (setReg s off v).chans = s.chans := tileUpd_chans _ _ _
@[simp] theorem setReg_memp (off : Nat) (v : W32) : (setReg s off v).memp = s.memp := tileUpd_memp _ _ _
@[simp] theorem setReg_fab (off : Nat) (v : W32) : (setReg s off v).fab = s.fab := tileUpd_fab _ _ _
@[simp] theorem setReg_mode (off : Nat) (v : W32) : (setReg s off v).mode = s.mode := tileUpd_mode _ _ _
@[simp] theorem setReg_red (off : Nat) (v : W32) : (setReg s off v).red = s.red := tileUpd_red _ _ _
@[simp] theorem setReg_boot (off : Nat) (v : W32) : (setReg s off v).boot = s.boot := tileUpd_boot _ _ _
@[simp] theorem setReg_store (off : Nat) (v : W32) : (setReg s off v).store = s.store := tileUpd_store _ _ _
@[simp] theorem setReg_sup (off : Nat) (v : W32) : (setReg s off v).sup = s.sup := tileUpd_sup _ _ _
@[simp] theorem setReg_rst (off : Nat) (v : W32) : (setReg s off v).rst = s.rst := tileUpd_rst _ _ _
@[simp] theorem setReg_pins (off : Nat) (v : W32) : (setReg s off v).pins = s.pins := tileUpd_pins _ _ _
@[simp] theorem setReg_fuse (off : Nat) (v : W32) : (setReg s off v).fuse = s.fuse := tileUpd_fuse _ _ _
@[simp] theorem setReg_straps (off : Nat) (v : W32) : (setReg s off v).straps = s.straps := tileUpd_straps _ _ _
@[simp] theorem setReg_variant (off : Nat) (v : W32) : (setReg s off v).variant = s.variant := tileUpd_variant _ _ _
@[simp] theorem setReg_denied (off : Nat) (v : W32) : (setReg s off v).denied = s.denied := tileUpd_denied _ _ _
@[simp] theorem setReg_free (off : Nat) (v : W32) : (setReg s off v).free = s.free := tileUpd_free _ _ _
@[simp] theorem setReg_pending (off : Nat) (v : W32) : (setReg s off v).pending = s.pending := tileUpd_pending _ _ _

-- setRw.
@[simp] theorem setRw_clk (off : Nat) (m v : W32) : (setRw s off m v).clk = s.clk := tileUpd_clk _ _ _
@[simp] theorem setRw_ev (off : Nat) (m v : W32) : (setRw s off m v).ev = s.ev := tileUpd_ev _ _ _
@[simp] theorem setRw_perf (off : Nat) (m v : W32) : (setRw s off m v).perf = s.perf := tileUpd_perf _ _ _
@[simp] theorem setRw_mb (off : Nat) (m v : W32) : (setRw s off m v).mb = s.mb := tileUpd_mb _ _ _
@[simp] theorem setRw_seq (off : Nat) (m v : W32) : (setRw s off m v).seq = s.seq := tileUpd_seq _ _ _
@[simp] theorem setRw_gen (off : Nat) (m v : W32) : (setRw s off m v).gen = s.gen := tileUpd_gen _ _ _
@[simp] theorem setRw_genSeed (off : Nat) (m v : W32) : (setRw s off m v).genSeed = s.genSeed := tileUpd_genSeed _ _ _
@[simp] theorem setRw_arr (off : Nat) (m v : W32) : (setRw s off m v).arr = s.arr := tileUpd_arr _ _ _
@[simp] theorem setRw_acc (off : Nat) (m v : W32) : (setRw s off m v).acc = s.acc := tileUpd_acc _ _ _
@[simp] theorem setRw_seams (off : Nat) (m v : W32) : (setRw s off m v).seams = s.seams := tileUpd_seams _ _ _
@[simp] theorem setRw_gate (off : Nat) (m v : W32) : (setRw s off m v).gate = s.gate := tileUpd_gate _ _ _
@[simp] theorem setRw_scan (off : Nat) (m v : W32) : (setRw s off m v).scan = s.scan := tileUpd_scan _ _ _
@[simp] theorem setRw_vec (off : Nat) (m v : W32) : (setRw s off m v).vec = s.vec := tileUpd_vec _ _ _
@[simp] theorem setRw_sfu (off : Nat) (m v : W32) : (setRw s off m v).sfu = s.sfu := tileUpd_sfu _ _ _
@[simp] theorem setRw_spad (off : Nat) (m v : W32) : (setRw s off m v).spad = s.spad := tileUpd_spad _ _ _
@[simp] theorem setRw_rings (off : Nat) (m v : W32) : (setRw s off m v).rings = s.rings := tileUpd_rings _ _ _
@[simp] theorem setRw_wins (off : Nat) (m v : W32) : (setRw s off m v).wins = s.wins := tileUpd_wins _ _ _
@[simp] theorem setRw_chans (off : Nat) (m v : W32) : (setRw s off m v).chans = s.chans := tileUpd_chans _ _ _
@[simp] theorem setRw_memp (off : Nat) (m v : W32) : (setRw s off m v).memp = s.memp := tileUpd_memp _ _ _
@[simp] theorem setRw_fab (off : Nat) (m v : W32) : (setRw s off m v).fab = s.fab := tileUpd_fab _ _ _
@[simp] theorem setRw_mode (off : Nat) (m v : W32) : (setRw s off m v).mode = s.mode := tileUpd_mode _ _ _
@[simp] theorem setRw_red (off : Nat) (m v : W32) : (setRw s off m v).red = s.red := tileUpd_red _ _ _
@[simp] theorem setRw_boot (off : Nat) (m v : W32) : (setRw s off m v).boot = s.boot := tileUpd_boot _ _ _
@[simp] theorem setRw_store (off : Nat) (m v : W32) : (setRw s off m v).store = s.store := tileUpd_store _ _ _
@[simp] theorem setRw_sup (off : Nat) (m v : W32) : (setRw s off m v).sup = s.sup := tileUpd_sup _ _ _
@[simp] theorem setRw_rst (off : Nat) (m v : W32) : (setRw s off m v).rst = s.rst := tileUpd_rst _ _ _
@[simp] theorem setRw_pins (off : Nat) (m v : W32) : (setRw s off m v).pins = s.pins := tileUpd_pins _ _ _
@[simp] theorem setRw_fuse (off : Nat) (m v : W32) : (setRw s off m v).fuse = s.fuse := tileUpd_fuse _ _ _
@[simp] theorem setRw_straps (off : Nat) (m v : W32) : (setRw s off m v).straps = s.straps := tileUpd_straps _ _ _
@[simp] theorem setRw_variant (off : Nat) (m v : W32) : (setRw s off m v).variant = s.variant := tileUpd_variant _ _ _
@[simp] theorem setRw_denied (off : Nat) (m v : W32) : (setRw s off m v).denied = s.denied := tileUpd_denied _ _ _
@[simp] theorem setRw_free (off : Nat) (m v : W32) : (setRw s off m v).free = s.free := tileUpd_free _ _ _
@[simp] theorem setRw_pending (off : Nat) (m v : W32) : (setRw s off m v).pending = s.pending := tileUpd_pending _ _ _

-- setRegF.
@[simp] theorem setRegF_clk (off lo len v : Nat) : (setRegF s off lo len v).clk = s.clk := setReg_clk s _ _
@[simp] theorem setRegF_ev (off lo len v : Nat) : (setRegF s off lo len v).ev = s.ev := setReg_ev s _ _
@[simp] theorem setRegF_perf (off lo len v : Nat) : (setRegF s off lo len v).perf = s.perf := setReg_perf s _ _
@[simp] theorem setRegF_mb (off lo len v : Nat) : (setRegF s off lo len v).mb = s.mb := setReg_mb s _ _
@[simp] theorem setRegF_seq (off lo len v : Nat) : (setRegF s off lo len v).seq = s.seq := setReg_seq s _ _
@[simp] theorem setRegF_gen (off lo len v : Nat) : (setRegF s off lo len v).gen = s.gen := setReg_gen s _ _
@[simp] theorem setRegF_genSeed (off lo len v : Nat) : (setRegF s off lo len v).genSeed = s.genSeed := setReg_genSeed s _ _
@[simp] theorem setRegF_arr (off lo len v : Nat) : (setRegF s off lo len v).arr = s.arr := setReg_arr s _ _
@[simp] theorem setRegF_acc (off lo len v : Nat) : (setRegF s off lo len v).acc = s.acc := setReg_acc s _ _
@[simp] theorem setRegF_seams (off lo len v : Nat) : (setRegF s off lo len v).seams = s.seams := setReg_seams s _ _
@[simp] theorem setRegF_gate (off lo len v : Nat) : (setRegF s off lo len v).gate = s.gate := setReg_gate s _ _
@[simp] theorem setRegF_scan (off lo len v : Nat) : (setRegF s off lo len v).scan = s.scan := setReg_scan s _ _
@[simp] theorem setRegF_vec (off lo len v : Nat) : (setRegF s off lo len v).vec = s.vec := setReg_vec s _ _
@[simp] theorem setRegF_sfu (off lo len v : Nat) : (setRegF s off lo len v).sfu = s.sfu := setReg_sfu s _ _
@[simp] theorem setRegF_spad (off lo len v : Nat) : (setRegF s off lo len v).spad = s.spad := setReg_spad s _ _
@[simp] theorem setRegF_rings (off lo len v : Nat) : (setRegF s off lo len v).rings = s.rings := setReg_rings s _ _
@[simp] theorem setRegF_wins (off lo len v : Nat) : (setRegF s off lo len v).wins = s.wins := setReg_wins s _ _
@[simp] theorem setRegF_chans (off lo len v : Nat) : (setRegF s off lo len v).chans = s.chans := setReg_chans s _ _
@[simp] theorem setRegF_memp (off lo len v : Nat) : (setRegF s off lo len v).memp = s.memp := setReg_memp s _ _
@[simp] theorem setRegF_fab (off lo len v : Nat) : (setRegF s off lo len v).fab = s.fab := setReg_fab s _ _
@[simp] theorem setRegF_mode (off lo len v : Nat) : (setRegF s off lo len v).mode = s.mode := setReg_mode s _ _
@[simp] theorem setRegF_red (off lo len v : Nat) : (setRegF s off lo len v).red = s.red := setReg_red s _ _
@[simp] theorem setRegF_boot (off lo len v : Nat) : (setRegF s off lo len v).boot = s.boot := setReg_boot s _ _
@[simp] theorem setRegF_store (off lo len v : Nat) : (setRegF s off lo len v).store = s.store := setReg_store s _ _
@[simp] theorem setRegF_sup (off lo len v : Nat) : (setRegF s off lo len v).sup = s.sup := setReg_sup s _ _
@[simp] theorem setRegF_rst (off lo len v : Nat) : (setRegF s off lo len v).rst = s.rst := setReg_rst s _ _
@[simp] theorem setRegF_pins (off lo len v : Nat) : (setRegF s off lo len v).pins = s.pins := setReg_pins s _ _
@[simp] theorem setRegF_fuse (off lo len v : Nat) : (setRegF s off lo len v).fuse = s.fuse := setReg_fuse s _ _
@[simp] theorem setRegF_straps (off lo len v : Nat) : (setRegF s off lo len v).straps = s.straps := setReg_straps s _ _
@[simp] theorem setRegF_variant (off lo len v : Nat) : (setRegF s off lo len v).variant = s.variant := setReg_variant s _ _
@[simp] theorem setRegF_denied (off lo len v : Nat) : (setRegF s off lo len v).denied = s.denied := setReg_denied s _ _
@[simp] theorem setRegF_free (off lo len v : Nat) : (setRegF s off lo len v).free = s.free := setReg_free s _ _
@[simp] theorem setRegF_pending (off lo len v : Nat) : (setRegF s off lo len v).pending = s.pending := setReg_pending s _ _

-- orReg.
@[simp] theorem orReg_clk (off : Nat) (m : W32) : (orReg s off m).clk = s.clk := tileUpd_clk _ _ _
@[simp] theorem orReg_ev (off : Nat) (m : W32) : (orReg s off m).ev = s.ev := tileUpd_ev _ _ _
@[simp] theorem orReg_perf (off : Nat) (m : W32) : (orReg s off m).perf = s.perf := tileUpd_perf _ _ _
@[simp] theorem orReg_mb (off : Nat) (m : W32) : (orReg s off m).mb = s.mb := tileUpd_mb _ _ _
@[simp] theorem orReg_seq (off : Nat) (m : W32) : (orReg s off m).seq = s.seq := tileUpd_seq _ _ _
@[simp] theorem orReg_gen (off : Nat) (m : W32) : (orReg s off m).gen = s.gen := tileUpd_gen _ _ _
@[simp] theorem orReg_genSeed (off : Nat) (m : W32) : (orReg s off m).genSeed = s.genSeed := tileUpd_genSeed _ _ _
@[simp] theorem orReg_arr (off : Nat) (m : W32) : (orReg s off m).arr = s.arr := tileUpd_arr _ _ _
@[simp] theorem orReg_acc (off : Nat) (m : W32) : (orReg s off m).acc = s.acc := tileUpd_acc _ _ _
@[simp] theorem orReg_seams (off : Nat) (m : W32) : (orReg s off m).seams = s.seams := tileUpd_seams _ _ _
@[simp] theorem orReg_gate (off : Nat) (m : W32) : (orReg s off m).gate = s.gate := tileUpd_gate _ _ _
@[simp] theorem orReg_scan (off : Nat) (m : W32) : (orReg s off m).scan = s.scan := tileUpd_scan _ _ _
@[simp] theorem orReg_vec (off : Nat) (m : W32) : (orReg s off m).vec = s.vec := tileUpd_vec _ _ _
@[simp] theorem orReg_sfu (off : Nat) (m : W32) : (orReg s off m).sfu = s.sfu := tileUpd_sfu _ _ _
@[simp] theorem orReg_spad (off : Nat) (m : W32) : (orReg s off m).spad = s.spad := tileUpd_spad _ _ _
@[simp] theorem orReg_rings (off : Nat) (m : W32) : (orReg s off m).rings = s.rings := tileUpd_rings _ _ _
@[simp] theorem orReg_wins (off : Nat) (m : W32) : (orReg s off m).wins = s.wins := tileUpd_wins _ _ _
@[simp] theorem orReg_chans (off : Nat) (m : W32) : (orReg s off m).chans = s.chans := tileUpd_chans _ _ _
@[simp] theorem orReg_memp (off : Nat) (m : W32) : (orReg s off m).memp = s.memp := tileUpd_memp _ _ _
@[simp] theorem orReg_fab (off : Nat) (m : W32) : (orReg s off m).fab = s.fab := tileUpd_fab _ _ _
@[simp] theorem orReg_mode (off : Nat) (m : W32) : (orReg s off m).mode = s.mode := tileUpd_mode _ _ _
@[simp] theorem orReg_red (off : Nat) (m : W32) : (orReg s off m).red = s.red := tileUpd_red _ _ _
@[simp] theorem orReg_boot (off : Nat) (m : W32) : (orReg s off m).boot = s.boot := tileUpd_boot _ _ _
@[simp] theorem orReg_store (off : Nat) (m : W32) : (orReg s off m).store = s.store := tileUpd_store _ _ _
@[simp] theorem orReg_sup (off : Nat) (m : W32) : (orReg s off m).sup = s.sup := tileUpd_sup _ _ _
@[simp] theorem orReg_rst (off : Nat) (m : W32) : (orReg s off m).rst = s.rst := tileUpd_rst _ _ _
@[simp] theorem orReg_pins (off : Nat) (m : W32) : (orReg s off m).pins = s.pins := tileUpd_pins _ _ _
@[simp] theorem orReg_fuse (off : Nat) (m : W32) : (orReg s off m).fuse = s.fuse := tileUpd_fuse _ _ _
@[simp] theorem orReg_straps (off : Nat) (m : W32) : (orReg s off m).straps = s.straps := tileUpd_straps _ _ _
@[simp] theorem orReg_variant (off : Nat) (m : W32) : (orReg s off m).variant = s.variant := tileUpd_variant _ _ _
@[simp] theorem orReg_denied (off : Nat) (m : W32) : (orReg s off m).denied = s.denied := tileUpd_denied _ _ _
@[simp] theorem orReg_free (off : Nat) (m : W32) : (orReg s off m).free = s.free := tileUpd_free _ _ _
@[simp] theorem orReg_pending (off : Nat) (m : W32) : (orReg s off m).pending = s.pending := tileUpd_pending _ _ _

-- addReg.
@[simp] theorem addReg_clk (off lo len n : Nat) : (addReg s off lo len n).clk = s.clk := setRegF_clk s _ _ _ _
@[simp] theorem addReg_ev (off lo len n : Nat) : (addReg s off lo len n).ev = s.ev := setRegF_ev s _ _ _ _
@[simp] theorem addReg_perf (off lo len n : Nat) : (addReg s off lo len n).perf = s.perf := setRegF_perf s _ _ _ _
@[simp] theorem addReg_mb (off lo len n : Nat) : (addReg s off lo len n).mb = s.mb := setRegF_mb s _ _ _ _
@[simp] theorem addReg_seq (off lo len n : Nat) : (addReg s off lo len n).seq = s.seq := setRegF_seq s _ _ _ _
@[simp] theorem addReg_gen (off lo len n : Nat) : (addReg s off lo len n).gen = s.gen := setRegF_gen s _ _ _ _
@[simp] theorem addReg_genSeed (off lo len n : Nat) : (addReg s off lo len n).genSeed = s.genSeed := setRegF_genSeed s _ _ _ _
@[simp] theorem addReg_arr (off lo len n : Nat) : (addReg s off lo len n).arr = s.arr := setRegF_arr s _ _ _ _
@[simp] theorem addReg_acc (off lo len n : Nat) : (addReg s off lo len n).acc = s.acc := setRegF_acc s _ _ _ _
@[simp] theorem addReg_seams (off lo len n : Nat) : (addReg s off lo len n).seams = s.seams := setRegF_seams s _ _ _ _
@[simp] theorem addReg_gate (off lo len n : Nat) : (addReg s off lo len n).gate = s.gate := setRegF_gate s _ _ _ _
@[simp] theorem addReg_scan (off lo len n : Nat) : (addReg s off lo len n).scan = s.scan := setRegF_scan s _ _ _ _
@[simp] theorem addReg_vec (off lo len n : Nat) : (addReg s off lo len n).vec = s.vec := setRegF_vec s _ _ _ _
@[simp] theorem addReg_sfu (off lo len n : Nat) : (addReg s off lo len n).sfu = s.sfu := setRegF_sfu s _ _ _ _
@[simp] theorem addReg_spad (off lo len n : Nat) : (addReg s off lo len n).spad = s.spad := setRegF_spad s _ _ _ _
@[simp] theorem addReg_rings (off lo len n : Nat) : (addReg s off lo len n).rings = s.rings := setRegF_rings s _ _ _ _
@[simp] theorem addReg_wins (off lo len n : Nat) : (addReg s off lo len n).wins = s.wins := setRegF_wins s _ _ _ _
@[simp] theorem addReg_chans (off lo len n : Nat) : (addReg s off lo len n).chans = s.chans := setRegF_chans s _ _ _ _
@[simp] theorem addReg_memp (off lo len n : Nat) : (addReg s off lo len n).memp = s.memp := setRegF_memp s _ _ _ _
@[simp] theorem addReg_fab (off lo len n : Nat) : (addReg s off lo len n).fab = s.fab := setRegF_fab s _ _ _ _
@[simp] theorem addReg_mode (off lo len n : Nat) : (addReg s off lo len n).mode = s.mode := setRegF_mode s _ _ _ _
@[simp] theorem addReg_red (off lo len n : Nat) : (addReg s off lo len n).red = s.red := setRegF_red s _ _ _ _
@[simp] theorem addReg_boot (off lo len n : Nat) : (addReg s off lo len n).boot = s.boot := setRegF_boot s _ _ _ _
@[simp] theorem addReg_store (off lo len n : Nat) : (addReg s off lo len n).store = s.store := setRegF_store s _ _ _ _
@[simp] theorem addReg_sup (off lo len n : Nat) : (addReg s off lo len n).sup = s.sup := setRegF_sup s _ _ _ _
@[simp] theorem addReg_rst (off lo len n : Nat) : (addReg s off lo len n).rst = s.rst := setRegF_rst s _ _ _ _
@[simp] theorem addReg_pins (off lo len n : Nat) : (addReg s off lo len n).pins = s.pins := setRegF_pins s _ _ _ _
@[simp] theorem addReg_fuse (off lo len n : Nat) : (addReg s off lo len n).fuse = s.fuse := setRegF_fuse s _ _ _ _
@[simp] theorem addReg_straps (off lo len n : Nat) : (addReg s off lo len n).straps = s.straps := setRegF_straps s _ _ _ _
@[simp] theorem addReg_variant (off lo len n : Nat) : (addReg s off lo len n).variant = s.variant := setRegF_variant s _ _ _ _
@[simp] theorem addReg_denied (off lo len n : Nat) : (addReg s off lo len n).denied = s.denied := setRegF_denied s _ _ _ _
@[simp] theorem addReg_free (off lo len n : Nat) : (addReg s off lo len n).free = s.free := setRegF_free s _ _ _ _
@[simp] theorem addReg_pending (off lo len n : Nat) : (addReg s off lo len n).pending = s.pending := setRegF_pending s _ _ _ _

-- incReg.
@[simp] theorem incReg_clk (off lo len : Nat) : (incReg s off lo len).clk = s.clk := addReg_clk s _ _ _ _
@[simp] theorem incReg_ev (off lo len : Nat) : (incReg s off lo len).ev = s.ev := addReg_ev s _ _ _ _
@[simp] theorem incReg_perf (off lo len : Nat) : (incReg s off lo len).perf = s.perf := addReg_perf s _ _ _ _
@[simp] theorem incReg_mb (off lo len : Nat) : (incReg s off lo len).mb = s.mb := addReg_mb s _ _ _ _
@[simp] theorem incReg_seq (off lo len : Nat) : (incReg s off lo len).seq = s.seq := addReg_seq s _ _ _ _
@[simp] theorem incReg_gen (off lo len : Nat) : (incReg s off lo len).gen = s.gen := addReg_gen s _ _ _ _
@[simp] theorem incReg_genSeed (off lo len : Nat) : (incReg s off lo len).genSeed = s.genSeed := addReg_genSeed s _ _ _ _
@[simp] theorem incReg_arr (off lo len : Nat) : (incReg s off lo len).arr = s.arr := addReg_arr s _ _ _ _
@[simp] theorem incReg_acc (off lo len : Nat) : (incReg s off lo len).acc = s.acc := addReg_acc s _ _ _ _
@[simp] theorem incReg_seams (off lo len : Nat) : (incReg s off lo len).seams = s.seams := addReg_seams s _ _ _ _
@[simp] theorem incReg_gate (off lo len : Nat) : (incReg s off lo len).gate = s.gate := addReg_gate s _ _ _ _
@[simp] theorem incReg_scan (off lo len : Nat) : (incReg s off lo len).scan = s.scan := addReg_scan s _ _ _ _
@[simp] theorem incReg_vec (off lo len : Nat) : (incReg s off lo len).vec = s.vec := addReg_vec s _ _ _ _
@[simp] theorem incReg_sfu (off lo len : Nat) : (incReg s off lo len).sfu = s.sfu := addReg_sfu s _ _ _ _
@[simp] theorem incReg_spad (off lo len : Nat) : (incReg s off lo len).spad = s.spad := addReg_spad s _ _ _ _
@[simp] theorem incReg_rings (off lo len : Nat) : (incReg s off lo len).rings = s.rings := addReg_rings s _ _ _ _
@[simp] theorem incReg_wins (off lo len : Nat) : (incReg s off lo len).wins = s.wins := addReg_wins s _ _ _ _
@[simp] theorem incReg_chans (off lo len : Nat) : (incReg s off lo len).chans = s.chans := addReg_chans s _ _ _ _
@[simp] theorem incReg_memp (off lo len : Nat) : (incReg s off lo len).memp = s.memp := addReg_memp s _ _ _ _
@[simp] theorem incReg_fab (off lo len : Nat) : (incReg s off lo len).fab = s.fab := addReg_fab s _ _ _ _
@[simp] theorem incReg_mode (off lo len : Nat) : (incReg s off lo len).mode = s.mode := addReg_mode s _ _ _ _
@[simp] theorem incReg_red (off lo len : Nat) : (incReg s off lo len).red = s.red := addReg_red s _ _ _ _
@[simp] theorem incReg_boot (off lo len : Nat) : (incReg s off lo len).boot = s.boot := addReg_boot s _ _ _ _
@[simp] theorem incReg_store (off lo len : Nat) : (incReg s off lo len).store = s.store := addReg_store s _ _ _ _
@[simp] theorem incReg_sup (off lo len : Nat) : (incReg s off lo len).sup = s.sup := addReg_sup s _ _ _ _
@[simp] theorem incReg_rst (off lo len : Nat) : (incReg s off lo len).rst = s.rst := addReg_rst s _ _ _ _
@[simp] theorem incReg_pins (off lo len : Nat) : (incReg s off lo len).pins = s.pins := addReg_pins s _ _ _ _
@[simp] theorem incReg_fuse (off lo len : Nat) : (incReg s off lo len).fuse = s.fuse := addReg_fuse s _ _ _ _
@[simp] theorem incReg_straps (off lo len : Nat) : (incReg s off lo len).straps = s.straps := addReg_straps s _ _ _ _
@[simp] theorem incReg_variant (off lo len : Nat) : (incReg s off lo len).variant = s.variant := addReg_variant s _ _ _ _
@[simp] theorem incReg_denied (off lo len : Nat) : (incReg s off lo len).denied = s.denied := addReg_denied s _ _ _ _
@[simp] theorem incReg_free (off lo len : Nat) : (incReg s off lo len).free = s.free := addReg_free s _ _ _ _
@[simp] theorem incReg_pending (off lo len : Nat) : (incReg s off lo len).pending = s.pending := addReg_pending s _ _ _ _

-- settle.
@[simp] theorem settle_clk : (settle s).clk = s.clk := rfl
@[simp] theorem settle_ev : (settle s).ev = s.ev := rfl
@[simp] theorem settle_perf : (settle s).perf = s.perf := rfl
@[simp] theorem settle_mb : (settle s).mb = s.mb := rfl
@[simp] theorem settle_regs : (settle s).regs = s.regs := rfl
@[simp] theorem settle_cyc : (settle s).cyc = s.cyc := rfl
@[simp] theorem settle_seq : (settle s).seq = s.seq := rfl
@[simp] theorem settle_gen : (settle s).gen = s.gen := rfl
@[simp] theorem settle_genSeed : (settle s).genSeed = s.genSeed := rfl
@[simp] theorem settle_arr : (settle s).arr = s.arr := rfl
@[simp] theorem settle_acc : (settle s).acc = s.acc := rfl
@[simp] theorem settle_seams : (settle s).seams = s.seams := rfl
@[simp] theorem settle_gate : (settle s).gate = s.gate := rfl
@[simp] theorem settle_scan : (settle s).scan = s.scan := rfl
@[simp] theorem settle_vec : (settle s).vec = s.vec := rfl
@[simp] theorem settle_sfu : (settle s).sfu = s.sfu := rfl
@[simp] theorem settle_spad : (settle s).spad = s.spad := rfl
@[simp] theorem settle_rings : (settle s).rings = s.rings := rfl
@[simp] theorem settle_wins : (settle s).wins = s.wins := rfl
@[simp] theorem settle_chans : (settle s).chans = s.chans := rfl
@[simp] theorem settle_memp : (settle s).memp = s.memp := rfl
@[simp] theorem settle_fab : (settle s).fab = s.fab := rfl
@[simp] theorem settle_mode : (settle s).mode = s.mode := rfl
@[simp] theorem settle_red : (settle s).red = s.red := rfl
@[simp] theorem settle_boot : (settle s).boot = s.boot := rfl
@[simp] theorem settle_store : (settle s).store = s.store := rfl
@[simp] theorem settle_sup : (settle s).sup = s.sup := rfl
@[simp] theorem settle_rst : (settle s).rst = s.rst := rfl
@[simp] theorem settle_fuse : (settle s).fuse = s.fuse := rfl
@[simp] theorem settle_straps : (settle s).straps = s.straps := rfl
@[simp] theorem settle_variant : (settle s).variant = s.variant := rfl
@[simp] theorem settle_denied : (settle s).denied = s.denied := rfl
@[simp] theorem settle_free : (settle s).free = s.free := rfl
@[simp] theorem settle_pending : (settle s).pending = s.pending := rfl

-- setRdata.
@[simp] theorem setRdata_clk (p : Port) (v : W32) : (setRdata s p v).clk = s.clk := rfl
@[simp] theorem setRdata_ev (p : Port) (v : W32) : (setRdata s p v).ev = s.ev := rfl
@[simp] theorem setRdata_perf (p : Port) (v : W32) : (setRdata s p v).perf = s.perf := rfl
@[simp] theorem setRdata_regs (p : Port) (v : W32) : (setRdata s p v).regs = s.regs := rfl
@[simp] theorem setRdata_cyc (p : Port) (v : W32) : (setRdata s p v).cyc = s.cyc := rfl
@[simp] theorem setRdata_seq (p : Port) (v : W32) : (setRdata s p v).seq = s.seq := rfl
@[simp] theorem setRdata_gen (p : Port) (v : W32) : (setRdata s p v).gen = s.gen := rfl
@[simp] theorem setRdata_genSeed (p : Port) (v : W32) : (setRdata s p v).genSeed = s.genSeed := rfl
@[simp] theorem setRdata_arr (p : Port) (v : W32) : (setRdata s p v).arr = s.arr := rfl
@[simp] theorem setRdata_acc (p : Port) (v : W32) : (setRdata s p v).acc = s.acc := rfl
@[simp] theorem setRdata_seams (p : Port) (v : W32) : (setRdata s p v).seams = s.seams := rfl
@[simp] theorem setRdata_gate (p : Port) (v : W32) : (setRdata s p v).gate = s.gate := rfl
@[simp] theorem setRdata_scan (p : Port) (v : W32) : (setRdata s p v).scan = s.scan := rfl
@[simp] theorem setRdata_vec (p : Port) (v : W32) : (setRdata s p v).vec = s.vec := rfl
@[simp] theorem setRdata_sfu (p : Port) (v : W32) : (setRdata s p v).sfu = s.sfu := rfl
@[simp] theorem setRdata_spad (p : Port) (v : W32) : (setRdata s p v).spad = s.spad := rfl
@[simp] theorem setRdata_rings (p : Port) (v : W32) : (setRdata s p v).rings = s.rings := rfl
@[simp] theorem setRdata_wins (p : Port) (v : W32) : (setRdata s p v).wins = s.wins := rfl
@[simp] theorem setRdata_chans (p : Port) (v : W32) : (setRdata s p v).chans = s.chans := rfl
@[simp] theorem setRdata_memp (p : Port) (v : W32) : (setRdata s p v).memp = s.memp := rfl
@[simp] theorem setRdata_fab (p : Port) (v : W32) : (setRdata s p v).fab = s.fab := rfl
@[simp] theorem setRdata_mode (p : Port) (v : W32) : (setRdata s p v).mode = s.mode := rfl
@[simp] theorem setRdata_red (p : Port) (v : W32) : (setRdata s p v).red = s.red := rfl
@[simp] theorem setRdata_boot (p : Port) (v : W32) : (setRdata s p v).boot = s.boot := rfl
@[simp] theorem setRdata_store (p : Port) (v : W32) : (setRdata s p v).store = s.store := rfl
@[simp] theorem setRdata_sup (p : Port) (v : W32) : (setRdata s p v).sup = s.sup := rfl
@[simp] theorem setRdata_rst (p : Port) (v : W32) : (setRdata s p v).rst = s.rst := rfl
@[simp] theorem setRdata_pins (p : Port) (v : W32) : (setRdata s p v).pins = s.pins := rfl
@[simp] theorem setRdata_fuse (p : Port) (v : W32) : (setRdata s p v).fuse = s.fuse := rfl
@[simp] theorem setRdata_straps (p : Port) (v : W32) : (setRdata s p v).straps = s.straps := rfl
@[simp] theorem setRdata_variant (p : Port) (v : W32) : (setRdata s p v).variant = s.variant := rfl
@[simp] theorem setRdata_denied (p : Port) (v : W32) : (setRdata s p v).denied = s.denied := rfl
@[simp] theorem setRdata_free (p : Port) (v : W32) : (setRdata s p v).free = s.free := rfl
@[simp] theorem setRdata_pending (p : Port) (v : W32) : (setRdata s p v).pending = s.pending := rfl

-- setMeta.
@[simp] theorem setMeta_clk (r : Nat) (m : Meta) : (setMeta s r m).clk = s.clk := rfl
@[simp] theorem setMeta_ev (r : Nat) (m : Meta) : (setMeta s r m).ev = s.ev := rfl
@[simp] theorem setMeta_perf (r : Nat) (m : Meta) : (setMeta s r m).perf = s.perf := rfl
@[simp] theorem setMeta_mb (r : Nat) (m : Meta) : (setMeta s r m).mb = s.mb := rfl
@[simp] theorem setMeta_regs (r : Nat) (m : Meta) : (setMeta s r m).regs = s.regs := rfl
@[simp] theorem setMeta_cyc (r : Nat) (m : Meta) : (setMeta s r m).cyc = s.cyc := rfl
@[simp] theorem setMeta_seq (r : Nat) (m : Meta) : (setMeta s r m).seq = s.seq := rfl
@[simp] theorem setMeta_gen (r : Nat) (m : Meta) : (setMeta s r m).gen = s.gen := rfl
@[simp] theorem setMeta_genSeed (r : Nat) (m : Meta) : (setMeta s r m).genSeed = s.genSeed := rfl
@[simp] theorem setMeta_arr (r : Nat) (m : Meta) : (setMeta s r m).arr = s.arr := rfl
@[simp] theorem setMeta_seams (r : Nat) (m : Meta) : (setMeta s r m).seams = s.seams := rfl
@[simp] theorem setMeta_gate (r : Nat) (m : Meta) : (setMeta s r m).gate = s.gate := rfl
@[simp] theorem setMeta_scan (r : Nat) (m : Meta) : (setMeta s r m).scan = s.scan := rfl
@[simp] theorem setMeta_vec (r : Nat) (m : Meta) : (setMeta s r m).vec = s.vec := rfl
@[simp] theorem setMeta_sfu (r : Nat) (m : Meta) : (setMeta s r m).sfu = s.sfu := rfl
@[simp] theorem setMeta_spad (r : Nat) (m : Meta) : (setMeta s r m).spad = s.spad := rfl
@[simp] theorem setMeta_rings (r : Nat) (m : Meta) : (setMeta s r m).rings = s.rings := rfl
@[simp] theorem setMeta_wins (r : Nat) (m : Meta) : (setMeta s r m).wins = s.wins := rfl
@[simp] theorem setMeta_chans (r : Nat) (m : Meta) : (setMeta s r m).chans = s.chans := rfl
@[simp] theorem setMeta_memp (r : Nat) (m : Meta) : (setMeta s r m).memp = s.memp := rfl
@[simp] theorem setMeta_fab (r : Nat) (m : Meta) : (setMeta s r m).fab = s.fab := rfl
@[simp] theorem setMeta_mode (r : Nat) (m : Meta) : (setMeta s r m).mode = s.mode := rfl
@[simp] theorem setMeta_red (r : Nat) (m : Meta) : (setMeta s r m).red = s.red := rfl
@[simp] theorem setMeta_boot (r : Nat) (m : Meta) : (setMeta s r m).boot = s.boot := rfl
@[simp] theorem setMeta_store (r : Nat) (m : Meta) : (setMeta s r m).store = s.store := rfl
@[simp] theorem setMeta_sup (r : Nat) (m : Meta) : (setMeta s r m).sup = s.sup := rfl
@[simp] theorem setMeta_rst (r : Nat) (m : Meta) : (setMeta s r m).rst = s.rst := rfl
@[simp] theorem setMeta_pins (r : Nat) (m : Meta) : (setMeta s r m).pins = s.pins := rfl
@[simp] theorem setMeta_fuse (r : Nat) (m : Meta) : (setMeta s r m).fuse = s.fuse := rfl
@[simp] theorem setMeta_straps (r : Nat) (m : Meta) : (setMeta s r m).straps = s.straps := rfl
@[simp] theorem setMeta_variant (r : Nat) (m : Meta) : (setMeta s r m).variant = s.variant := rfl
@[simp] theorem setMeta_denied (r : Nat) (m : Meta) : (setMeta s r m).denied = s.denied := rfl
@[simp] theorem setMeta_free (r : Nat) (m : Meta) : (setMeta s r m).free = s.free := rfl
@[simp] theorem setMeta_pending (r : Nat) (m : Meta) : (setMeta s r m).pending = s.pending := rfl

-- setEntry.
@[simp] theorem setEntry_clk (r j : Nat) (v : W32) : (setEntry s r j v).clk = s.clk := rfl
@[simp] theorem setEntry_ev (r j : Nat) (v : W32) : (setEntry s r j v).ev = s.ev := rfl
@[simp] theorem setEntry_perf (r j : Nat) (v : W32) : (setEntry s r j v).perf = s.perf := rfl
@[simp] theorem setEntry_mb (r j : Nat) (v : W32) : (setEntry s r j v).mb = s.mb := rfl
@[simp] theorem setEntry_regs (r j : Nat) (v : W32) : (setEntry s r j v).regs = s.regs := rfl
@[simp] theorem setEntry_cyc (r j : Nat) (v : W32) : (setEntry s r j v).cyc = s.cyc := rfl
@[simp] theorem setEntry_seq (r j : Nat) (v : W32) : (setEntry s r j v).seq = s.seq := rfl
@[simp] theorem setEntry_gen (r j : Nat) (v : W32) : (setEntry s r j v).gen = s.gen := rfl
@[simp] theorem setEntry_genSeed (r j : Nat) (v : W32) : (setEntry s r j v).genSeed = s.genSeed := rfl
@[simp] theorem setEntry_arr (r j : Nat) (v : W32) : (setEntry s r j v).arr = s.arr := rfl
@[simp] theorem setEntry_seams (r j : Nat) (v : W32) : (setEntry s r j v).seams = s.seams := rfl
@[simp] theorem setEntry_gate (r j : Nat) (v : W32) : (setEntry s r j v).gate = s.gate := rfl
@[simp] theorem setEntry_scan (r j : Nat) (v : W32) : (setEntry s r j v).scan = s.scan := rfl
@[simp] theorem setEntry_vec (r j : Nat) (v : W32) : (setEntry s r j v).vec = s.vec := rfl
@[simp] theorem setEntry_sfu (r j : Nat) (v : W32) : (setEntry s r j v).sfu = s.sfu := rfl
@[simp] theorem setEntry_spad (r j : Nat) (v : W32) : (setEntry s r j v).spad = s.spad := rfl
@[simp] theorem setEntry_rings (r j : Nat) (v : W32) : (setEntry s r j v).rings = s.rings := rfl
@[simp] theorem setEntry_wins (r j : Nat) (v : W32) : (setEntry s r j v).wins = s.wins := rfl
@[simp] theorem setEntry_chans (r j : Nat) (v : W32) : (setEntry s r j v).chans = s.chans := rfl
@[simp] theorem setEntry_memp (r j : Nat) (v : W32) : (setEntry s r j v).memp = s.memp := rfl
@[simp] theorem setEntry_fab (r j : Nat) (v : W32) : (setEntry s r j v).fab = s.fab := rfl
@[simp] theorem setEntry_mode (r j : Nat) (v : W32) : (setEntry s r j v).mode = s.mode := rfl
@[simp] theorem setEntry_red (r j : Nat) (v : W32) : (setEntry s r j v).red = s.red := rfl
@[simp] theorem setEntry_boot (r j : Nat) (v : W32) : (setEntry s r j v).boot = s.boot := rfl
@[simp] theorem setEntry_store (r j : Nat) (v : W32) : (setEntry s r j v).store = s.store := rfl
@[simp] theorem setEntry_sup (r j : Nat) (v : W32) : (setEntry s r j v).sup = s.sup := rfl
@[simp] theorem setEntry_rst (r j : Nat) (v : W32) : (setEntry s r j v).rst = s.rst := rfl
@[simp] theorem setEntry_pins (r j : Nat) (v : W32) : (setEntry s r j v).pins = s.pins := rfl
@[simp] theorem setEntry_fuse (r j : Nat) (v : W32) : (setEntry s r j v).fuse = s.fuse := rfl
@[simp] theorem setEntry_straps (r j : Nat) (v : W32) : (setEntry s r j v).straps = s.straps := rfl
@[simp] theorem setEntry_variant (r j : Nat) (v : W32) : (setEntry s r j v).variant = s.variant := rfl
@[simp] theorem setEntry_denied (r j : Nat) (v : W32) : (setEntry s r j v).denied = s.denied := rfl
@[simp] theorem setEntry_free (r j : Nat) (v : W32) : (setEntry s r j v).free = s.free := rfl
@[simp] theorem setEntry_pending (r j : Nat) (v : W32) : (setEntry s r j v).pending = s.pending := rfl

-- pushWrite.
@[simp] theorem pushWrite_clk (w : AccWrite) : (pushWrite s w).clk = s.clk := rfl
@[simp] theorem pushWrite_ev (w : AccWrite) : (pushWrite s w).ev = s.ev := rfl
@[simp] theorem pushWrite_perf (w : AccWrite) : (pushWrite s w).perf = s.perf := rfl
@[simp] theorem pushWrite_mb (w : AccWrite) : (pushWrite s w).mb = s.mb := rfl
@[simp] theorem pushWrite_regs (w : AccWrite) : (pushWrite s w).regs = s.regs := rfl
@[simp] theorem pushWrite_cyc (w : AccWrite) : (pushWrite s w).cyc = s.cyc := rfl
@[simp] theorem pushWrite_seq (w : AccWrite) : (pushWrite s w).seq = s.seq := rfl
@[simp] theorem pushWrite_gen (w : AccWrite) : (pushWrite s w).gen = s.gen := rfl
@[simp] theorem pushWrite_genSeed (w : AccWrite) : (pushWrite s w).genSeed = s.genSeed := rfl
@[simp] theorem pushWrite_arr (w : AccWrite) : (pushWrite s w).arr = s.arr := rfl
@[simp] theorem pushWrite_seams (w : AccWrite) : (pushWrite s w).seams = s.seams := rfl
@[simp] theorem pushWrite_gate (w : AccWrite) : (pushWrite s w).gate = s.gate := rfl
@[simp] theorem pushWrite_scan (w : AccWrite) : (pushWrite s w).scan = s.scan := rfl
@[simp] theorem pushWrite_vec (w : AccWrite) : (pushWrite s w).vec = s.vec := rfl
@[simp] theorem pushWrite_sfu (w : AccWrite) : (pushWrite s w).sfu = s.sfu := rfl
@[simp] theorem pushWrite_spad (w : AccWrite) : (pushWrite s w).spad = s.spad := rfl
@[simp] theorem pushWrite_rings (w : AccWrite) : (pushWrite s w).rings = s.rings := rfl
@[simp] theorem pushWrite_wins (w : AccWrite) : (pushWrite s w).wins = s.wins := rfl
@[simp] theorem pushWrite_chans (w : AccWrite) : (pushWrite s w).chans = s.chans := rfl
@[simp] theorem pushWrite_memp (w : AccWrite) : (pushWrite s w).memp = s.memp := rfl
@[simp] theorem pushWrite_fab (w : AccWrite) : (pushWrite s w).fab = s.fab := rfl
@[simp] theorem pushWrite_mode (w : AccWrite) : (pushWrite s w).mode = s.mode := rfl
@[simp] theorem pushWrite_red (w : AccWrite) : (pushWrite s w).red = s.red := rfl
@[simp] theorem pushWrite_boot (w : AccWrite) : (pushWrite s w).boot = s.boot := rfl
@[simp] theorem pushWrite_store (w : AccWrite) : (pushWrite s w).store = s.store := rfl
@[simp] theorem pushWrite_sup (w : AccWrite) : (pushWrite s w).sup = s.sup := rfl
@[simp] theorem pushWrite_rst (w : AccWrite) : (pushWrite s w).rst = s.rst := rfl
@[simp] theorem pushWrite_pins (w : AccWrite) : (pushWrite s w).pins = s.pins := rfl
@[simp] theorem pushWrite_fuse (w : AccWrite) : (pushWrite s w).fuse = s.fuse := rfl
@[simp] theorem pushWrite_straps (w : AccWrite) : (pushWrite s w).straps = s.straps := rfl
@[simp] theorem pushWrite_variant (w : AccWrite) : (pushWrite s w).variant = s.variant := rfl
@[simp] theorem pushWrite_denied (w : AccWrite) : (pushWrite s w).denied = s.denied := rfl
@[simp] theorem pushWrite_free (w : AccWrite) : (pushWrite s w).free = s.free := rfl
@[simp] theorem pushWrite_pending (w : AccWrite) : (pushWrite s w).pending = s.pending := rfl

-- updSeam.
@[simp] theorem updSeam_clk (k : Nat) (f : Seam → Seam) : (updSeam s k f).clk = s.clk := rfl
@[simp] theorem updSeam_ev (k : Nat) (f : Seam → Seam) : (updSeam s k f).ev = s.ev := rfl
@[simp] theorem updSeam_perf (k : Nat) (f : Seam → Seam) : (updSeam s k f).perf = s.perf := rfl
@[simp] theorem updSeam_mb (k : Nat) (f : Seam → Seam) : (updSeam s k f).mb = s.mb := rfl
@[simp] theorem updSeam_regs (k : Nat) (f : Seam → Seam) : (updSeam s k f).regs = s.regs := rfl
@[simp] theorem updSeam_cyc (k : Nat) (f : Seam → Seam) : (updSeam s k f).cyc = s.cyc := rfl
@[simp] theorem updSeam_seq (k : Nat) (f : Seam → Seam) : (updSeam s k f).seq = s.seq := rfl
@[simp] theorem updSeam_gen (k : Nat) (f : Seam → Seam) : (updSeam s k f).gen = s.gen := rfl
@[simp] theorem updSeam_genSeed (k : Nat) (f : Seam → Seam) : (updSeam s k f).genSeed = s.genSeed := rfl
@[simp] theorem updSeam_arr (k : Nat) (f : Seam → Seam) : (updSeam s k f).arr = s.arr := rfl
@[simp] theorem updSeam_acc (k : Nat) (f : Seam → Seam) : (updSeam s k f).acc = s.acc := rfl
@[simp] theorem updSeam_gate (k : Nat) (f : Seam → Seam) : (updSeam s k f).gate = s.gate := rfl
@[simp] theorem updSeam_scan (k : Nat) (f : Seam → Seam) : (updSeam s k f).scan = s.scan := rfl
@[simp] theorem updSeam_vec (k : Nat) (f : Seam → Seam) : (updSeam s k f).vec = s.vec := rfl
@[simp] theorem updSeam_sfu (k : Nat) (f : Seam → Seam) : (updSeam s k f).sfu = s.sfu := rfl
@[simp] theorem updSeam_spad (k : Nat) (f : Seam → Seam) : (updSeam s k f).spad = s.spad := rfl
@[simp] theorem updSeam_rings (k : Nat) (f : Seam → Seam) : (updSeam s k f).rings = s.rings := rfl
@[simp] theorem updSeam_wins (k : Nat) (f : Seam → Seam) : (updSeam s k f).wins = s.wins := rfl
@[simp] theorem updSeam_chans (k : Nat) (f : Seam → Seam) : (updSeam s k f).chans = s.chans := rfl
@[simp] theorem updSeam_memp (k : Nat) (f : Seam → Seam) : (updSeam s k f).memp = s.memp := rfl
@[simp] theorem updSeam_fab (k : Nat) (f : Seam → Seam) : (updSeam s k f).fab = s.fab := rfl
@[simp] theorem updSeam_mode (k : Nat) (f : Seam → Seam) : (updSeam s k f).mode = s.mode := rfl
@[simp] theorem updSeam_red (k : Nat) (f : Seam → Seam) : (updSeam s k f).red = s.red := rfl
@[simp] theorem updSeam_boot (k : Nat) (f : Seam → Seam) : (updSeam s k f).boot = s.boot := rfl
@[simp] theorem updSeam_store (k : Nat) (f : Seam → Seam) : (updSeam s k f).store = s.store := rfl
@[simp] theorem updSeam_sup (k : Nat) (f : Seam → Seam) : (updSeam s k f).sup = s.sup := rfl
@[simp] theorem updSeam_rst (k : Nat) (f : Seam → Seam) : (updSeam s k f).rst = s.rst := rfl
@[simp] theorem updSeam_pins (k : Nat) (f : Seam → Seam) : (updSeam s k f).pins = s.pins := rfl
@[simp] theorem updSeam_fuse (k : Nat) (f : Seam → Seam) : (updSeam s k f).fuse = s.fuse := rfl
@[simp] theorem updSeam_straps (k : Nat) (f : Seam → Seam) : (updSeam s k f).straps = s.straps := rfl
@[simp] theorem updSeam_variant (k : Nat) (f : Seam → Seam) : (updSeam s k f).variant = s.variant := rfl
@[simp] theorem updSeam_denied (k : Nat) (f : Seam → Seam) : (updSeam s k f).denied = s.denied := rfl
@[simp] theorem updSeam_free (k : Nat) (f : Seam → Seam) : (updSeam s k f).free = s.free := rfl
@[simp] theorem updSeam_pending (k : Nat) (f : Seam → Seam) : (updSeam s k f).pending = s.pending := rfl

-- updChan.
@[simp] theorem updChan_clk (c : Nat) (f : Chan → Chan) : (updChan s c f).clk = s.clk := rfl
@[simp] theorem updChan_ev (c : Nat) (f : Chan → Chan) : (updChan s c f).ev = s.ev := rfl
@[simp] theorem updChan_perf (c : Nat) (f : Chan → Chan) : (updChan s c f).perf = s.perf := rfl
@[simp] theorem updChan_mb (c : Nat) (f : Chan → Chan) : (updChan s c f).mb = s.mb := rfl
@[simp] theorem updChan_regs (c : Nat) (f : Chan → Chan) : (updChan s c f).regs = s.regs := rfl
@[simp] theorem updChan_cyc (c : Nat) (f : Chan → Chan) : (updChan s c f).cyc = s.cyc := rfl
@[simp] theorem updChan_seq (c : Nat) (f : Chan → Chan) : (updChan s c f).seq = s.seq := rfl
@[simp] theorem updChan_gen (c : Nat) (f : Chan → Chan) : (updChan s c f).gen = s.gen := rfl
@[simp] theorem updChan_genSeed (c : Nat) (f : Chan → Chan) : (updChan s c f).genSeed = s.genSeed := rfl
@[simp] theorem updChan_arr (c : Nat) (f : Chan → Chan) : (updChan s c f).arr = s.arr := rfl
@[simp] theorem updChan_acc (c : Nat) (f : Chan → Chan) : (updChan s c f).acc = s.acc := rfl
@[simp] theorem updChan_seams (c : Nat) (f : Chan → Chan) : (updChan s c f).seams = s.seams := rfl
@[simp] theorem updChan_gate (c : Nat) (f : Chan → Chan) : (updChan s c f).gate = s.gate := rfl
@[simp] theorem updChan_scan (c : Nat) (f : Chan → Chan) : (updChan s c f).scan = s.scan := rfl
@[simp] theorem updChan_vec (c : Nat) (f : Chan → Chan) : (updChan s c f).vec = s.vec := rfl
@[simp] theorem updChan_sfu (c : Nat) (f : Chan → Chan) : (updChan s c f).sfu = s.sfu := rfl
@[simp] theorem updChan_spad (c : Nat) (f : Chan → Chan) : (updChan s c f).spad = s.spad := rfl
@[simp] theorem updChan_rings (c : Nat) (f : Chan → Chan) : (updChan s c f).rings = s.rings := rfl
@[simp] theorem updChan_wins (c : Nat) (f : Chan → Chan) : (updChan s c f).wins = s.wins := rfl
@[simp] theorem updChan_memp (c : Nat) (f : Chan → Chan) : (updChan s c f).memp = s.memp := rfl
@[simp] theorem updChan_fab (c : Nat) (f : Chan → Chan) : (updChan s c f).fab = s.fab := rfl
@[simp] theorem updChan_mode (c : Nat) (f : Chan → Chan) : (updChan s c f).mode = s.mode := rfl
@[simp] theorem updChan_red (c : Nat) (f : Chan → Chan) : (updChan s c f).red = s.red := rfl
@[simp] theorem updChan_boot (c : Nat) (f : Chan → Chan) : (updChan s c f).boot = s.boot := rfl
@[simp] theorem updChan_store (c : Nat) (f : Chan → Chan) : (updChan s c f).store = s.store := rfl
@[simp] theorem updChan_sup (c : Nat) (f : Chan → Chan) : (updChan s c f).sup = s.sup := rfl
@[simp] theorem updChan_rst (c : Nat) (f : Chan → Chan) : (updChan s c f).rst = s.rst := rfl
@[simp] theorem updChan_pins (c : Nat) (f : Chan → Chan) : (updChan s c f).pins = s.pins := rfl
@[simp] theorem updChan_fuse (c : Nat) (f : Chan → Chan) : (updChan s c f).fuse = s.fuse := rfl
@[simp] theorem updChan_straps (c : Nat) (f : Chan → Chan) : (updChan s c f).straps = s.straps := rfl
@[simp] theorem updChan_variant (c : Nat) (f : Chan → Chan) : (updChan s c f).variant = s.variant := rfl
@[simp] theorem updChan_denied (c : Nat) (f : Chan → Chan) : (updChan s c f).denied = s.denied := rfl
@[simp] theorem updChan_free (c : Nat) (f : Chan → Chan) : (updChan s c f).free = s.free := rfl
@[simp] theorem updChan_pending (c : Nat) (f : Chan → Chan) : (updChan s c f).pending = s.pending := rfl

-- setRing.
@[simp] theorem setRing_clk (n : Nat) (r : Ring) : (setRing s n r).clk = s.clk := rfl
@[simp] theorem setRing_ev (n : Nat) (r : Ring) : (setRing s n r).ev = s.ev := rfl
@[simp] theorem setRing_perf (n : Nat) (r : Ring) : (setRing s n r).perf = s.perf := rfl
@[simp] theorem setRing_mb (n : Nat) (r : Ring) : (setRing s n r).mb = s.mb := rfl
@[simp] theorem setRing_regs (n : Nat) (r : Ring) : (setRing s n r).regs = s.regs := rfl
@[simp] theorem setRing_cyc (n : Nat) (r : Ring) : (setRing s n r).cyc = s.cyc := rfl
@[simp] theorem setRing_seq (n : Nat) (r : Ring) : (setRing s n r).seq = s.seq := rfl
@[simp] theorem setRing_gen (n : Nat) (r : Ring) : (setRing s n r).gen = s.gen := rfl
@[simp] theorem setRing_genSeed (n : Nat) (r : Ring) : (setRing s n r).genSeed = s.genSeed := rfl
@[simp] theorem setRing_arr (n : Nat) (r : Ring) : (setRing s n r).arr = s.arr := rfl
@[simp] theorem setRing_acc (n : Nat) (r : Ring) : (setRing s n r).acc = s.acc := rfl
@[simp] theorem setRing_seams (n : Nat) (r : Ring) : (setRing s n r).seams = s.seams := rfl
@[simp] theorem setRing_gate (n : Nat) (r : Ring) : (setRing s n r).gate = s.gate := rfl
@[simp] theorem setRing_scan (n : Nat) (r : Ring) : (setRing s n r).scan = s.scan := rfl
@[simp] theorem setRing_vec (n : Nat) (r : Ring) : (setRing s n r).vec = s.vec := rfl
@[simp] theorem setRing_sfu (n : Nat) (r : Ring) : (setRing s n r).sfu = s.sfu := rfl
@[simp] theorem setRing_spad (n : Nat) (r : Ring) : (setRing s n r).spad = s.spad := rfl
@[simp] theorem setRing_wins (n : Nat) (r : Ring) : (setRing s n r).wins = s.wins := rfl
@[simp] theorem setRing_chans (n : Nat) (r : Ring) : (setRing s n r).chans = s.chans := rfl
@[simp] theorem setRing_memp (n : Nat) (r : Ring) : (setRing s n r).memp = s.memp := rfl
@[simp] theorem setRing_fab (n : Nat) (r : Ring) : (setRing s n r).fab = s.fab := rfl
@[simp] theorem setRing_mode (n : Nat) (r : Ring) : (setRing s n r).mode = s.mode := rfl
@[simp] theorem setRing_red (n : Nat) (r : Ring) : (setRing s n r).red = s.red := rfl
@[simp] theorem setRing_boot (n : Nat) (r : Ring) : (setRing s n r).boot = s.boot := rfl
@[simp] theorem setRing_store (n : Nat) (r : Ring) : (setRing s n r).store = s.store := rfl
@[simp] theorem setRing_sup (n : Nat) (r : Ring) : (setRing s n r).sup = s.sup := rfl
@[simp] theorem setRing_rst (n : Nat) (r : Ring) : (setRing s n r).rst = s.rst := rfl
@[simp] theorem setRing_pins (n : Nat) (r : Ring) : (setRing s n r).pins = s.pins := rfl
@[simp] theorem setRing_fuse (n : Nat) (r : Ring) : (setRing s n r).fuse = s.fuse := rfl
@[simp] theorem setRing_straps (n : Nat) (r : Ring) : (setRing s n r).straps = s.straps := rfl
@[simp] theorem setRing_variant (n : Nat) (r : Ring) : (setRing s n r).variant = s.variant := rfl
@[simp] theorem setRing_denied (n : Nat) (r : Ring) : (setRing s n r).denied = s.denied := rfl
@[simp] theorem setRing_free (n : Nat) (r : Ring) : (setRing s n r).free = s.free := rfl
@[simp] theorem setRing_pending (n : Nat) (r : Ring) : (setRing s n r).pending = s.pending := rfl

-- setAhead.
@[simp] theorem setAhead_clk (n : Nat) : (setAhead s n).clk = s.clk := rfl
@[simp] theorem setAhead_ev (n : Nat) : (setAhead s n).ev = s.ev := rfl
@[simp] theorem setAhead_perf (n : Nat) : (setAhead s n).perf = s.perf := rfl
@[simp] theorem setAhead_mb (n : Nat) : (setAhead s n).mb = s.mb := rfl
@[simp] theorem setAhead_regs (n : Nat) : (setAhead s n).regs = s.regs := rfl
@[simp] theorem setAhead_cyc (n : Nat) : (setAhead s n).cyc = s.cyc := rfl
@[simp] theorem setAhead_seq (n : Nat) : (setAhead s n).seq = s.seq := rfl
@[simp] theorem setAhead_gen (n : Nat) : (setAhead s n).gen = s.gen := rfl
@[simp] theorem setAhead_genSeed (n : Nat) : (setAhead s n).genSeed = s.genSeed := rfl
@[simp] theorem setAhead_arr (n : Nat) : (setAhead s n).arr = s.arr := rfl
@[simp] theorem setAhead_seams (n : Nat) : (setAhead s n).seams = s.seams := rfl
@[simp] theorem setAhead_gate (n : Nat) : (setAhead s n).gate = s.gate := rfl
@[simp] theorem setAhead_scan (n : Nat) : (setAhead s n).scan = s.scan := rfl
@[simp] theorem setAhead_vec (n : Nat) : (setAhead s n).vec = s.vec := rfl
@[simp] theorem setAhead_sfu (n : Nat) : (setAhead s n).sfu = s.sfu := rfl
@[simp] theorem setAhead_spad (n : Nat) : (setAhead s n).spad = s.spad := rfl
@[simp] theorem setAhead_rings (n : Nat) : (setAhead s n).rings = s.rings := rfl
@[simp] theorem setAhead_wins (n : Nat) : (setAhead s n).wins = s.wins := rfl
@[simp] theorem setAhead_chans (n : Nat) : (setAhead s n).chans = s.chans := rfl
@[simp] theorem setAhead_memp (n : Nat) : (setAhead s n).memp = s.memp := rfl
@[simp] theorem setAhead_fab (n : Nat) : (setAhead s n).fab = s.fab := rfl
@[simp] theorem setAhead_mode (n : Nat) : (setAhead s n).mode = s.mode := rfl
@[simp] theorem setAhead_red (n : Nat) : (setAhead s n).red = s.red := rfl
@[simp] theorem setAhead_boot (n : Nat) : (setAhead s n).boot = s.boot := rfl
@[simp] theorem setAhead_store (n : Nat) : (setAhead s n).store = s.store := rfl
@[simp] theorem setAhead_sup (n : Nat) : (setAhead s n).sup = s.sup := rfl
@[simp] theorem setAhead_rst (n : Nat) : (setAhead s n).rst = s.rst := rfl
@[simp] theorem setAhead_pins (n : Nat) : (setAhead s n).pins = s.pins := rfl
@[simp] theorem setAhead_fuse (n : Nat) : (setAhead s n).fuse = s.fuse := rfl
@[simp] theorem setAhead_straps (n : Nat) : (setAhead s n).straps = s.straps := rfl
@[simp] theorem setAhead_variant (n : Nat) : (setAhead s n).variant = s.variant := rfl
@[simp] theorem setAhead_denied (n : Nat) : (setAhead s n).denied = s.denied := rfl
@[simp] theorem setAhead_free (n : Nat) : (setAhead s n).free = s.free := rfl
@[simp] theorem setAhead_pending (n : Nat) : (setAhead s n).pending = s.pending := rfl

-- noteSpoil.
@[simp] theorem noteSpoil_clk (uid : Nat) : (noteSpoil s uid).clk = s.clk := rfl
@[simp] theorem noteSpoil_ev (uid : Nat) : (noteSpoil s uid).ev = s.ev := rfl
@[simp] theorem noteSpoil_perf (uid : Nat) : (noteSpoil s uid).perf = s.perf := rfl
@[simp] theorem noteSpoil_mb (uid : Nat) : (noteSpoil s uid).mb = s.mb := rfl
@[simp] theorem noteSpoil_regs (uid : Nat) : (noteSpoil s uid).regs = s.regs := rfl
@[simp] theorem noteSpoil_cyc (uid : Nat) : (noteSpoil s uid).cyc = s.cyc := rfl
@[simp] theorem noteSpoil_gen (uid : Nat) : (noteSpoil s uid).gen = s.gen := rfl
@[simp] theorem noteSpoil_genSeed (uid : Nat) : (noteSpoil s uid).genSeed = s.genSeed := rfl
@[simp] theorem noteSpoil_arr (uid : Nat) : (noteSpoil s uid).arr = s.arr := rfl
@[simp] theorem noteSpoil_acc (uid : Nat) : (noteSpoil s uid).acc = s.acc := rfl
@[simp] theorem noteSpoil_seams (uid : Nat) : (noteSpoil s uid).seams = s.seams := rfl
@[simp] theorem noteSpoil_gate (uid : Nat) : (noteSpoil s uid).gate = s.gate := rfl
@[simp] theorem noteSpoil_scan (uid : Nat) : (noteSpoil s uid).scan = s.scan := rfl
@[simp] theorem noteSpoil_vec (uid : Nat) : (noteSpoil s uid).vec = s.vec := rfl
@[simp] theorem noteSpoil_sfu (uid : Nat) : (noteSpoil s uid).sfu = s.sfu := rfl
@[simp] theorem noteSpoil_spad (uid : Nat) : (noteSpoil s uid).spad = s.spad := rfl
@[simp] theorem noteSpoil_rings (uid : Nat) : (noteSpoil s uid).rings = s.rings := rfl
@[simp] theorem noteSpoil_wins (uid : Nat) : (noteSpoil s uid).wins = s.wins := rfl
@[simp] theorem noteSpoil_chans (uid : Nat) : (noteSpoil s uid).chans = s.chans := rfl
@[simp] theorem noteSpoil_memp (uid : Nat) : (noteSpoil s uid).memp = s.memp := rfl
@[simp] theorem noteSpoil_fab (uid : Nat) : (noteSpoil s uid).fab = s.fab := rfl
@[simp] theorem noteSpoil_mode (uid : Nat) : (noteSpoil s uid).mode = s.mode := rfl
@[simp] theorem noteSpoil_red (uid : Nat) : (noteSpoil s uid).red = s.red := rfl
@[simp] theorem noteSpoil_boot (uid : Nat) : (noteSpoil s uid).boot = s.boot := rfl
@[simp] theorem noteSpoil_store (uid : Nat) : (noteSpoil s uid).store = s.store := rfl
@[simp] theorem noteSpoil_sup (uid : Nat) : (noteSpoil s uid).sup = s.sup := rfl
@[simp] theorem noteSpoil_rst (uid : Nat) : (noteSpoil s uid).rst = s.rst := rfl
@[simp] theorem noteSpoil_pins (uid : Nat) : (noteSpoil s uid).pins = s.pins := rfl
@[simp] theorem noteSpoil_fuse (uid : Nat) : (noteSpoil s uid).fuse = s.fuse := rfl
@[simp] theorem noteSpoil_straps (uid : Nat) : (noteSpoil s uid).straps = s.straps := rfl
@[simp] theorem noteSpoil_variant (uid : Nat) : (noteSpoil s uid).variant = s.variant := rfl
@[simp] theorem noteSpoil_denied (uid : Nat) : (noteSpoil s uid).denied = s.denied := rfl
@[simp] theorem noteSpoil_free (uid : Nat) : (noteSpoil s uid).free = s.free := rfl
@[simp] theorem noteSpoil_pending (uid : Nat) : (noteSpoil s uid).pending = s.pending := rfl

-- updBench.
@[simp] theorem updBench_clk (uid : Nat) (f : Bench → Bench) : (updBench s uid f).clk = s.clk := rfl
@[simp] theorem updBench_ev (uid : Nat) (f : Bench → Bench) : (updBench s uid f).ev = s.ev := rfl
@[simp] theorem updBench_perf (uid : Nat) (f : Bench → Bench) : (updBench s uid f).perf = s.perf := rfl
@[simp] theorem updBench_mb (uid : Nat) (f : Bench → Bench) : (updBench s uid f).mb = s.mb := rfl
@[simp] theorem updBench_regs (uid : Nat) (f : Bench → Bench) : (updBench s uid f).regs = s.regs := rfl
@[simp] theorem updBench_cyc (uid : Nat) (f : Bench → Bench) : (updBench s uid f).cyc = s.cyc := rfl
@[simp] theorem updBench_gen (uid : Nat) (f : Bench → Bench) : (updBench s uid f).gen = s.gen := rfl
@[simp] theorem updBench_genSeed (uid : Nat) (f : Bench → Bench) : (updBench s uid f).genSeed = s.genSeed := rfl
@[simp] theorem updBench_arr (uid : Nat) (f : Bench → Bench) : (updBench s uid f).arr = s.arr := rfl
@[simp] theorem updBench_acc (uid : Nat) (f : Bench → Bench) : (updBench s uid f).acc = s.acc := rfl
@[simp] theorem updBench_seams (uid : Nat) (f : Bench → Bench) : (updBench s uid f).seams = s.seams := rfl
@[simp] theorem updBench_gate (uid : Nat) (f : Bench → Bench) : (updBench s uid f).gate = s.gate := rfl
@[simp] theorem updBench_scan (uid : Nat) (f : Bench → Bench) : (updBench s uid f).scan = s.scan := rfl
@[simp] theorem updBench_vec (uid : Nat) (f : Bench → Bench) : (updBench s uid f).vec = s.vec := rfl
@[simp] theorem updBench_sfu (uid : Nat) (f : Bench → Bench) : (updBench s uid f).sfu = s.sfu := rfl
@[simp] theorem updBench_spad (uid : Nat) (f : Bench → Bench) : (updBench s uid f).spad = s.spad := rfl
@[simp] theorem updBench_rings (uid : Nat) (f : Bench → Bench) : (updBench s uid f).rings = s.rings := rfl
@[simp] theorem updBench_wins (uid : Nat) (f : Bench → Bench) : (updBench s uid f).wins = s.wins := rfl
@[simp] theorem updBench_chans (uid : Nat) (f : Bench → Bench) : (updBench s uid f).chans = s.chans := rfl
@[simp] theorem updBench_memp (uid : Nat) (f : Bench → Bench) : (updBench s uid f).memp = s.memp := rfl
@[simp] theorem updBench_fab (uid : Nat) (f : Bench → Bench) : (updBench s uid f).fab = s.fab := rfl
@[simp] theorem updBench_mode (uid : Nat) (f : Bench → Bench) : (updBench s uid f).mode = s.mode := rfl
@[simp] theorem updBench_red (uid : Nat) (f : Bench → Bench) : (updBench s uid f).red = s.red := rfl
@[simp] theorem updBench_boot (uid : Nat) (f : Bench → Bench) : (updBench s uid f).boot = s.boot := rfl
@[simp] theorem updBench_store (uid : Nat) (f : Bench → Bench) : (updBench s uid f).store = s.store := rfl
@[simp] theorem updBench_sup (uid : Nat) (f : Bench → Bench) : (updBench s uid f).sup = s.sup := rfl
@[simp] theorem updBench_rst (uid : Nat) (f : Bench → Bench) : (updBench s uid f).rst = s.rst := rfl
@[simp] theorem updBench_pins (uid : Nat) (f : Bench → Bench) : (updBench s uid f).pins = s.pins := rfl
@[simp] theorem updBench_fuse (uid : Nat) (f : Bench → Bench) : (updBench s uid f).fuse = s.fuse := rfl
@[simp] theorem updBench_straps (uid : Nat) (f : Bench → Bench) : (updBench s uid f).straps = s.straps := rfl
@[simp] theorem updBench_variant (uid : Nat) (f : Bench → Bench) : (updBench s uid f).variant = s.variant := rfl
@[simp] theorem updBench_denied (uid : Nat) (f : Bench → Bench) : (updBench s uid f).denied = s.denied := rfl
@[simp] theorem updBench_free (uid : Nat) (f : Bench → Bench) : (updBench s uid f).free = s.free := rfl
@[simp] theorem updBench_pending (uid : Nat) (f : Bench → Bench) : (updBench s uid f).pending = s.pending := rfl

-- updRec.
@[simp] theorem updRec_clk (uid pos : Nat) (f : Rec → Rec) : (updRec s uid pos f).clk = s.clk := rfl
@[simp] theorem updRec_ev (uid pos : Nat) (f : Rec → Rec) : (updRec s uid pos f).ev = s.ev := rfl
@[simp] theorem updRec_perf (uid pos : Nat) (f : Rec → Rec) : (updRec s uid pos f).perf = s.perf := rfl
@[simp] theorem updRec_mb (uid pos : Nat) (f : Rec → Rec) : (updRec s uid pos f).mb = s.mb := rfl
@[simp] theorem updRec_regs (uid pos : Nat) (f : Rec → Rec) : (updRec s uid pos f).regs = s.regs := rfl
@[simp] theorem updRec_cyc (uid pos : Nat) (f : Rec → Rec) : (updRec s uid pos f).cyc = s.cyc := rfl
@[simp] theorem updRec_gen (uid pos : Nat) (f : Rec → Rec) : (updRec s uid pos f).gen = s.gen := rfl
@[simp] theorem updRec_genSeed (uid pos : Nat) (f : Rec → Rec) : (updRec s uid pos f).genSeed = s.genSeed := rfl
@[simp] theorem updRec_arr (uid pos : Nat) (f : Rec → Rec) : (updRec s uid pos f).arr = s.arr := rfl
@[simp] theorem updRec_acc (uid pos : Nat) (f : Rec → Rec) : (updRec s uid pos f).acc = s.acc := rfl
@[simp] theorem updRec_seams (uid pos : Nat) (f : Rec → Rec) : (updRec s uid pos f).seams = s.seams := rfl
@[simp] theorem updRec_gate (uid pos : Nat) (f : Rec → Rec) : (updRec s uid pos f).gate = s.gate := rfl
@[simp] theorem updRec_scan (uid pos : Nat) (f : Rec → Rec) : (updRec s uid pos f).scan = s.scan := rfl
@[simp] theorem updRec_vec (uid pos : Nat) (f : Rec → Rec) : (updRec s uid pos f).vec = s.vec := rfl
@[simp] theorem updRec_sfu (uid pos : Nat) (f : Rec → Rec) : (updRec s uid pos f).sfu = s.sfu := rfl
@[simp] theorem updRec_spad (uid pos : Nat) (f : Rec → Rec) : (updRec s uid pos f).spad = s.spad := rfl
@[simp] theorem updRec_rings (uid pos : Nat) (f : Rec → Rec) : (updRec s uid pos f).rings = s.rings := rfl
@[simp] theorem updRec_wins (uid pos : Nat) (f : Rec → Rec) : (updRec s uid pos f).wins = s.wins := rfl
@[simp] theorem updRec_chans (uid pos : Nat) (f : Rec → Rec) : (updRec s uid pos f).chans = s.chans := rfl
@[simp] theorem updRec_memp (uid pos : Nat) (f : Rec → Rec) : (updRec s uid pos f).memp = s.memp := rfl
@[simp] theorem updRec_fab (uid pos : Nat) (f : Rec → Rec) : (updRec s uid pos f).fab = s.fab := rfl
@[simp] theorem updRec_mode (uid pos : Nat) (f : Rec → Rec) : (updRec s uid pos f).mode = s.mode := rfl
@[simp] theorem updRec_red (uid pos : Nat) (f : Rec → Rec) : (updRec s uid pos f).red = s.red := rfl
@[simp] theorem updRec_boot (uid pos : Nat) (f : Rec → Rec) : (updRec s uid pos f).boot = s.boot := rfl
@[simp] theorem updRec_store (uid pos : Nat) (f : Rec → Rec) : (updRec s uid pos f).store = s.store := rfl
@[simp] theorem updRec_sup (uid pos : Nat) (f : Rec → Rec) : (updRec s uid pos f).sup = s.sup := rfl
@[simp] theorem updRec_rst (uid pos : Nat) (f : Rec → Rec) : (updRec s uid pos f).rst = s.rst := rfl
@[simp] theorem updRec_pins (uid pos : Nat) (f : Rec → Rec) : (updRec s uid pos f).pins = s.pins := rfl
@[simp] theorem updRec_fuse (uid pos : Nat) (f : Rec → Rec) : (updRec s uid pos f).fuse = s.fuse := rfl
@[simp] theorem updRec_straps (uid pos : Nat) (f : Rec → Rec) : (updRec s uid pos f).straps = s.straps := rfl
@[simp] theorem updRec_variant (uid pos : Nat) (f : Rec → Rec) : (updRec s uid pos f).variant = s.variant := rfl
@[simp] theorem updRec_denied (uid pos : Nat) (f : Rec → Rec) : (updRec s uid pos f).denied = s.denied := rfl
@[simp] theorem updRec_free (uid pos : Nat) (f : Rec → Rec) : (updRec s uid pos f).free = s.free := rfl
@[simp] theorem updRec_pending (uid pos : Nat) (f : Rec → Rec) : (updRec s uid pos f).pending = s.pending := rfl

-- updPort.
@[simp] theorem updPort_clk (n : Nat) (f : LinkPort → LinkPort) : (updPort s n f).clk = s.clk := rfl
@[simp] theorem updPort_ev (n : Nat) (f : LinkPort → LinkPort) : (updPort s n f).ev = s.ev := rfl
@[simp] theorem updPort_perf (n : Nat) (f : LinkPort → LinkPort) : (updPort s n f).perf = s.perf := rfl
@[simp] theorem updPort_mb (n : Nat) (f : LinkPort → LinkPort) : (updPort s n f).mb = s.mb := rfl
@[simp] theorem updPort_regs (n : Nat) (f : LinkPort → LinkPort) : (updPort s n f).regs = s.regs := rfl
@[simp] theorem updPort_cyc (n : Nat) (f : LinkPort → LinkPort) : (updPort s n f).cyc = s.cyc := rfl
@[simp] theorem updPort_seq (n : Nat) (f : LinkPort → LinkPort) : (updPort s n f).seq = s.seq := rfl
@[simp] theorem updPort_gen (n : Nat) (f : LinkPort → LinkPort) : (updPort s n f).gen = s.gen := rfl
@[simp] theorem updPort_genSeed (n : Nat) (f : LinkPort → LinkPort) : (updPort s n f).genSeed = s.genSeed := rfl
@[simp] theorem updPort_arr (n : Nat) (f : LinkPort → LinkPort) : (updPort s n f).arr = s.arr := rfl
@[simp] theorem updPort_acc (n : Nat) (f : LinkPort → LinkPort) : (updPort s n f).acc = s.acc := rfl
@[simp] theorem updPort_seams (n : Nat) (f : LinkPort → LinkPort) : (updPort s n f).seams = s.seams := rfl
@[simp] theorem updPort_gate (n : Nat) (f : LinkPort → LinkPort) : (updPort s n f).gate = s.gate := rfl
@[simp] theorem updPort_scan (n : Nat) (f : LinkPort → LinkPort) : (updPort s n f).scan = s.scan := rfl
@[simp] theorem updPort_vec (n : Nat) (f : LinkPort → LinkPort) : (updPort s n f).vec = s.vec := rfl
@[simp] theorem updPort_sfu (n : Nat) (f : LinkPort → LinkPort) : (updPort s n f).sfu = s.sfu := rfl
@[simp] theorem updPort_spad (n : Nat) (f : LinkPort → LinkPort) : (updPort s n f).spad = s.spad := rfl
@[simp] theorem updPort_rings (n : Nat) (f : LinkPort → LinkPort) : (updPort s n f).rings = s.rings := rfl
@[simp] theorem updPort_wins (n : Nat) (f : LinkPort → LinkPort) : (updPort s n f).wins = s.wins := rfl
@[simp] theorem updPort_chans (n : Nat) (f : LinkPort → LinkPort) : (updPort s n f).chans = s.chans := rfl
@[simp] theorem updPort_memp (n : Nat) (f : LinkPort → LinkPort) : (updPort s n f).memp = s.memp := rfl
@[simp] theorem updPort_mode (n : Nat) (f : LinkPort → LinkPort) : (updPort s n f).mode = s.mode := rfl
@[simp] theorem updPort_red (n : Nat) (f : LinkPort → LinkPort) : (updPort s n f).red = s.red := rfl
@[simp] theorem updPort_boot (n : Nat) (f : LinkPort → LinkPort) : (updPort s n f).boot = s.boot := rfl
@[simp] theorem updPort_store (n : Nat) (f : LinkPort → LinkPort) : (updPort s n f).store = s.store := rfl
@[simp] theorem updPort_sup (n : Nat) (f : LinkPort → LinkPort) : (updPort s n f).sup = s.sup := rfl
@[simp] theorem updPort_rst (n : Nat) (f : LinkPort → LinkPort) : (updPort s n f).rst = s.rst := rfl
@[simp] theorem updPort_pins (n : Nat) (f : LinkPort → LinkPort) : (updPort s n f).pins = s.pins := rfl
@[simp] theorem updPort_fuse (n : Nat) (f : LinkPort → LinkPort) : (updPort s n f).fuse = s.fuse := rfl
@[simp] theorem updPort_straps (n : Nat) (f : LinkPort → LinkPort) : (updPort s n f).straps = s.straps := rfl
@[simp] theorem updPort_variant (n : Nat) (f : LinkPort → LinkPort) : (updPort s n f).variant = s.variant := rfl
@[simp] theorem updPort_denied (n : Nat) (f : LinkPort → LinkPort) : (updPort s n f).denied = s.denied := rfl
@[simp] theorem updPort_free (n : Nat) (f : LinkPort → LinkPort) : (updPort s n f).free = s.free := rfl
@[simp] theorem updPort_pending (n : Nat) (f : LinkPort → LinkPort) : (updPort s n f).pending = s.pending := rfl

-- pushCtl.
@[simp] theorem pushCtl_clk (n : Nat) (m : CMsg) : (pushCtl s n m).clk = s.clk := rfl
@[simp] theorem pushCtl_ev (n : Nat) (m : CMsg) : (pushCtl s n m).ev = s.ev := rfl
@[simp] theorem pushCtl_perf (n : Nat) (m : CMsg) : (pushCtl s n m).perf = s.perf := rfl
@[simp] theorem pushCtl_mb (n : Nat) (m : CMsg) : (pushCtl s n m).mb = s.mb := rfl
@[simp] theorem pushCtl_regs (n : Nat) (m : CMsg) : (pushCtl s n m).regs = s.regs := rfl
@[simp] theorem pushCtl_cyc (n : Nat) (m : CMsg) : (pushCtl s n m).cyc = s.cyc := rfl
@[simp] theorem pushCtl_seq (n : Nat) (m : CMsg) : (pushCtl s n m).seq = s.seq := rfl
@[simp] theorem pushCtl_gen (n : Nat) (m : CMsg) : (pushCtl s n m).gen = s.gen := rfl
@[simp] theorem pushCtl_genSeed (n : Nat) (m : CMsg) : (pushCtl s n m).genSeed = s.genSeed := rfl
@[simp] theorem pushCtl_arr (n : Nat) (m : CMsg) : (pushCtl s n m).arr = s.arr := rfl
@[simp] theorem pushCtl_acc (n : Nat) (m : CMsg) : (pushCtl s n m).acc = s.acc := rfl
@[simp] theorem pushCtl_seams (n : Nat) (m : CMsg) : (pushCtl s n m).seams = s.seams := rfl
@[simp] theorem pushCtl_gate (n : Nat) (m : CMsg) : (pushCtl s n m).gate = s.gate := rfl
@[simp] theorem pushCtl_scan (n : Nat) (m : CMsg) : (pushCtl s n m).scan = s.scan := rfl
@[simp] theorem pushCtl_vec (n : Nat) (m : CMsg) : (pushCtl s n m).vec = s.vec := rfl
@[simp] theorem pushCtl_sfu (n : Nat) (m : CMsg) : (pushCtl s n m).sfu = s.sfu := rfl
@[simp] theorem pushCtl_spad (n : Nat) (m : CMsg) : (pushCtl s n m).spad = s.spad := rfl
@[simp] theorem pushCtl_rings (n : Nat) (m : CMsg) : (pushCtl s n m).rings = s.rings := rfl
@[simp] theorem pushCtl_wins (n : Nat) (m : CMsg) : (pushCtl s n m).wins = s.wins := rfl
@[simp] theorem pushCtl_chans (n : Nat) (m : CMsg) : (pushCtl s n m).chans = s.chans := rfl
@[simp] theorem pushCtl_memp (n : Nat) (m : CMsg) : (pushCtl s n m).memp = s.memp := rfl
@[simp] theorem pushCtl_mode (n : Nat) (m : CMsg) : (pushCtl s n m).mode = s.mode := rfl
@[simp] theorem pushCtl_red (n : Nat) (m : CMsg) : (pushCtl s n m).red = s.red := rfl
@[simp] theorem pushCtl_boot (n : Nat) (m : CMsg) : (pushCtl s n m).boot = s.boot := rfl
@[simp] theorem pushCtl_store (n : Nat) (m : CMsg) : (pushCtl s n m).store = s.store := rfl
@[simp] theorem pushCtl_sup (n : Nat) (m : CMsg) : (pushCtl s n m).sup = s.sup := rfl
@[simp] theorem pushCtl_rst (n : Nat) (m : CMsg) : (pushCtl s n m).rst = s.rst := rfl
@[simp] theorem pushCtl_pins (n : Nat) (m : CMsg) : (pushCtl s n m).pins = s.pins := rfl
@[simp] theorem pushCtl_fuse (n : Nat) (m : CMsg) : (pushCtl s n m).fuse = s.fuse := rfl
@[simp] theorem pushCtl_straps (n : Nat) (m : CMsg) : (pushCtl s n m).straps = s.straps := rfl
@[simp] theorem pushCtl_variant (n : Nat) (m : CMsg) : (pushCtl s n m).variant = s.variant := rfl
@[simp] theorem pushCtl_denied (n : Nat) (m : CMsg) : (pushCtl s n m).denied = s.denied := rfl
@[simp] theorem pushCtl_free (n : Nat) (m : CMsg) : (pushCtl s n m).free = s.free := rfl
@[simp] theorem pushCtl_pending (n : Nat) (m : CMsg) : (pushCtl s n m).pending = s.pending := rfl

-- pushFlits.
@[simp] theorem pushFlits_clk (n vc src : Nat) (l : List Flit) : (pushFlits s n vc src l).clk = s.clk := rfl
@[simp] theorem pushFlits_ev (n vc src : Nat) (l : List Flit) : (pushFlits s n vc src l).ev = s.ev := rfl
@[simp] theorem pushFlits_perf (n vc src : Nat) (l : List Flit) : (pushFlits s n vc src l).perf = s.perf := rfl
@[simp] theorem pushFlits_mb (n vc src : Nat) (l : List Flit) : (pushFlits s n vc src l).mb = s.mb := rfl
@[simp] theorem pushFlits_regs (n vc src : Nat) (l : List Flit) : (pushFlits s n vc src l).regs = s.regs := rfl
@[simp] theorem pushFlits_cyc (n vc src : Nat) (l : List Flit) : (pushFlits s n vc src l).cyc = s.cyc := rfl
@[simp] theorem pushFlits_seq (n vc src : Nat) (l : List Flit) : (pushFlits s n vc src l).seq = s.seq := rfl
@[simp] theorem pushFlits_gen (n vc src : Nat) (l : List Flit) : (pushFlits s n vc src l).gen = s.gen := rfl
@[simp] theorem pushFlits_genSeed (n vc src : Nat) (l : List Flit) : (pushFlits s n vc src l).genSeed = s.genSeed := rfl
@[simp] theorem pushFlits_arr (n vc src : Nat) (l : List Flit) : (pushFlits s n vc src l).arr = s.arr := rfl
@[simp] theorem pushFlits_acc (n vc src : Nat) (l : List Flit) : (pushFlits s n vc src l).acc = s.acc := rfl
@[simp] theorem pushFlits_seams (n vc src : Nat) (l : List Flit) : (pushFlits s n vc src l).seams = s.seams := rfl
@[simp] theorem pushFlits_gate (n vc src : Nat) (l : List Flit) : (pushFlits s n vc src l).gate = s.gate := rfl
@[simp] theorem pushFlits_scan (n vc src : Nat) (l : List Flit) : (pushFlits s n vc src l).scan = s.scan := rfl
@[simp] theorem pushFlits_vec (n vc src : Nat) (l : List Flit) : (pushFlits s n vc src l).vec = s.vec := rfl
@[simp] theorem pushFlits_sfu (n vc src : Nat) (l : List Flit) : (pushFlits s n vc src l).sfu = s.sfu := rfl
@[simp] theorem pushFlits_spad (n vc src : Nat) (l : List Flit) : (pushFlits s n vc src l).spad = s.spad := rfl
@[simp] theorem pushFlits_rings (n vc src : Nat) (l : List Flit) : (pushFlits s n vc src l).rings = s.rings := rfl
@[simp] theorem pushFlits_wins (n vc src : Nat) (l : List Flit) : (pushFlits s n vc src l).wins = s.wins := rfl
@[simp] theorem pushFlits_chans (n vc src : Nat) (l : List Flit) : (pushFlits s n vc src l).chans = s.chans := rfl
@[simp] theorem pushFlits_memp (n vc src : Nat) (l : List Flit) : (pushFlits s n vc src l).memp = s.memp := rfl
@[simp] theorem pushFlits_mode (n vc src : Nat) (l : List Flit) : (pushFlits s n vc src l).mode = s.mode := rfl
@[simp] theorem pushFlits_red (n vc src : Nat) (l : List Flit) : (pushFlits s n vc src l).red = s.red := rfl
@[simp] theorem pushFlits_boot (n vc src : Nat) (l : List Flit) : (pushFlits s n vc src l).boot = s.boot := rfl
@[simp] theorem pushFlits_store (n vc src : Nat) (l : List Flit) : (pushFlits s n vc src l).store = s.store := rfl
@[simp] theorem pushFlits_sup (n vc src : Nat) (l : List Flit) : (pushFlits s n vc src l).sup = s.sup := rfl
@[simp] theorem pushFlits_rst (n vc src : Nat) (l : List Flit) : (pushFlits s n vc src l).rst = s.rst := rfl
@[simp] theorem pushFlits_pins (n vc src : Nat) (l : List Flit) : (pushFlits s n vc src l).pins = s.pins := rfl
@[simp] theorem pushFlits_fuse (n vc src : Nat) (l : List Flit) : (pushFlits s n vc src l).fuse = s.fuse := rfl
@[simp] theorem pushFlits_straps (n vc src : Nat) (l : List Flit) : (pushFlits s n vc src l).straps = s.straps := rfl
@[simp] theorem pushFlits_variant (n vc src : Nat) (l : List Flit) : (pushFlits s n vc src l).variant = s.variant := rfl
@[simp] theorem pushFlits_denied (n vc src : Nat) (l : List Flit) : (pushFlits s n vc src l).denied = s.denied := rfl
@[simp] theorem pushFlits_free (n vc src : Nat) (l : List Flit) : (pushFlits s n vc src l).free = s.free := rfl
@[simp] theorem pushFlits_pending (n vc src : Nat) (l : List Flit) : (pushFlits s n vc src l).pending = s.pending := rfl

-- answerLater.
@[simp] theorem answerLater_clk (sub dst : Nat) : (answerLater s sub dst).clk = s.clk := rfl
@[simp] theorem answerLater_ev (sub dst : Nat) : (answerLater s sub dst).ev = s.ev := rfl
@[simp] theorem answerLater_perf (sub dst : Nat) : (answerLater s sub dst).perf = s.perf := rfl
@[simp] theorem answerLater_mb (sub dst : Nat) : (answerLater s sub dst).mb = s.mb := rfl
@[simp] theorem answerLater_regs (sub dst : Nat) : (answerLater s sub dst).regs = s.regs := rfl
@[simp] theorem answerLater_cyc (sub dst : Nat) : (answerLater s sub dst).cyc = s.cyc := rfl
@[simp] theorem answerLater_seq (sub dst : Nat) : (answerLater s sub dst).seq = s.seq := rfl
@[simp] theorem answerLater_gen (sub dst : Nat) : (answerLater s sub dst).gen = s.gen := rfl
@[simp] theorem answerLater_genSeed (sub dst : Nat) : (answerLater s sub dst).genSeed = s.genSeed := rfl
@[simp] theorem answerLater_arr (sub dst : Nat) : (answerLater s sub dst).arr = s.arr := rfl
@[simp] theorem answerLater_acc (sub dst : Nat) : (answerLater s sub dst).acc = s.acc := rfl
@[simp] theorem answerLater_seams (sub dst : Nat) : (answerLater s sub dst).seams = s.seams := rfl
@[simp] theorem answerLater_gate (sub dst : Nat) : (answerLater s sub dst).gate = s.gate := rfl
@[simp] theorem answerLater_scan (sub dst : Nat) : (answerLater s sub dst).scan = s.scan := rfl
@[simp] theorem answerLater_vec (sub dst : Nat) : (answerLater s sub dst).vec = s.vec := rfl
@[simp] theorem answerLater_sfu (sub dst : Nat) : (answerLater s sub dst).sfu = s.sfu := rfl
@[simp] theorem answerLater_spad (sub dst : Nat) : (answerLater s sub dst).spad = s.spad := rfl
@[simp] theorem answerLater_rings (sub dst : Nat) : (answerLater s sub dst).rings = s.rings := rfl
@[simp] theorem answerLater_wins (sub dst : Nat) : (answerLater s sub dst).wins = s.wins := rfl
@[simp] theorem answerLater_chans (sub dst : Nat) : (answerLater s sub dst).chans = s.chans := rfl
@[simp] theorem answerLater_memp (sub dst : Nat) : (answerLater s sub dst).memp = s.memp := rfl
@[simp] theorem answerLater_fab (sub dst : Nat) : (answerLater s sub dst).fab = s.fab := rfl
@[simp] theorem answerLater_red (sub dst : Nat) : (answerLater s sub dst).red = s.red := rfl
@[simp] theorem answerLater_boot (sub dst : Nat) : (answerLater s sub dst).boot = s.boot := rfl
@[simp] theorem answerLater_store (sub dst : Nat) : (answerLater s sub dst).store = s.store := rfl
@[simp] theorem answerLater_sup (sub dst : Nat) : (answerLater s sub dst).sup = s.sup := rfl
@[simp] theorem answerLater_rst (sub dst : Nat) : (answerLater s sub dst).rst = s.rst := rfl
@[simp] theorem answerLater_pins (sub dst : Nat) : (answerLater s sub dst).pins = s.pins := rfl
@[simp] theorem answerLater_fuse (sub dst : Nat) : (answerLater s sub dst).fuse = s.fuse := rfl
@[simp] theorem answerLater_straps (sub dst : Nat) : (answerLater s sub dst).straps = s.straps := rfl
@[simp] theorem answerLater_variant (sub dst : Nat) : (answerLater s sub dst).variant = s.variant := rfl
@[simp] theorem answerLater_denied (sub dst : Nat) : (answerLater s sub dst).denied = s.denied := rfl
@[simp] theorem answerLater_free (sub dst : Nat) : (answerLater s sub dst).free = s.free := rfl
@[simp] theorem answerLater_pending (sub dst : Nat) : (answerLater s sub dst).pending = s.pending := rfl

-- redLeave.
@[simp] theorem redLeave_clk (k : Nat) (f : Flit) : (redLeave s k f).clk = s.clk := rfl
@[simp] theorem redLeave_ev (k : Nat) (f : Flit) : (redLeave s k f).ev = s.ev := rfl
@[simp] theorem redLeave_perf (k : Nat) (f : Flit) : (redLeave s k f).perf = s.perf := rfl
@[simp] theorem redLeave_mb (k : Nat) (f : Flit) : (redLeave s k f).mb = s.mb := rfl
@[simp] theorem redLeave_regs (k : Nat) (f : Flit) : (redLeave s k f).regs = s.regs := rfl
@[simp] theorem redLeave_cyc (k : Nat) (f : Flit) : (redLeave s k f).cyc = s.cyc := rfl
@[simp] theorem redLeave_seq (k : Nat) (f : Flit) : (redLeave s k f).seq = s.seq := rfl
@[simp] theorem redLeave_gen (k : Nat) (f : Flit) : (redLeave s k f).gen = s.gen := rfl
@[simp] theorem redLeave_genSeed (k : Nat) (f : Flit) : (redLeave s k f).genSeed = s.genSeed := rfl
@[simp] theorem redLeave_arr (k : Nat) (f : Flit) : (redLeave s k f).arr = s.arr := rfl
@[simp] theorem redLeave_acc (k : Nat) (f : Flit) : (redLeave s k f).acc = s.acc := rfl
@[simp] theorem redLeave_seams (k : Nat) (f : Flit) : (redLeave s k f).seams = s.seams := rfl
@[simp] theorem redLeave_gate (k : Nat) (f : Flit) : (redLeave s k f).gate = s.gate := rfl
@[simp] theorem redLeave_scan (k : Nat) (f : Flit) : (redLeave s k f).scan = s.scan := rfl
@[simp] theorem redLeave_vec (k : Nat) (f : Flit) : (redLeave s k f).vec = s.vec := rfl
@[simp] theorem redLeave_sfu (k : Nat) (f : Flit) : (redLeave s k f).sfu = s.sfu := rfl
@[simp] theorem redLeave_spad (k : Nat) (f : Flit) : (redLeave s k f).spad = s.spad := rfl
@[simp] theorem redLeave_rings (k : Nat) (f : Flit) : (redLeave s k f).rings = s.rings := rfl
@[simp] theorem redLeave_wins (k : Nat) (f : Flit) : (redLeave s k f).wins = s.wins := rfl
@[simp] theorem redLeave_chans (k : Nat) (f : Flit) : (redLeave s k f).chans = s.chans := rfl
@[simp] theorem redLeave_memp (k : Nat) (f : Flit) : (redLeave s k f).memp = s.memp := rfl
@[simp] theorem redLeave_fab (k : Nat) (f : Flit) : (redLeave s k f).fab = s.fab := rfl
@[simp] theorem redLeave_mode (k : Nat) (f : Flit) : (redLeave s k f).mode = s.mode := rfl
@[simp] theorem redLeave_boot (k : Nat) (f : Flit) : (redLeave s k f).boot = s.boot := rfl
@[simp] theorem redLeave_store (k : Nat) (f : Flit) : (redLeave s k f).store = s.store := rfl
@[simp] theorem redLeave_sup (k : Nat) (f : Flit) : (redLeave s k f).sup = s.sup := rfl
@[simp] theorem redLeave_rst (k : Nat) (f : Flit) : (redLeave s k f).rst = s.rst := rfl
@[simp] theorem redLeave_pins (k : Nat) (f : Flit) : (redLeave s k f).pins = s.pins := rfl
@[simp] theorem redLeave_fuse (k : Nat) (f : Flit) : (redLeave s k f).fuse = s.fuse := rfl
@[simp] theorem redLeave_straps (k : Nat) (f : Flit) : (redLeave s k f).straps = s.straps := rfl
@[simp] theorem redLeave_variant (k : Nat) (f : Flit) : (redLeave s k f).variant = s.variant := rfl
@[simp] theorem redLeave_denied (k : Nat) (f : Flit) : (redLeave s k f).denied = s.denied := rfl
@[simp] theorem redLeave_free (k : Nat) (f : Flit) : (redLeave s k f).free = s.free := rfl
@[simp] theorem redLeave_pending (k : Nat) (f : Flit) : (redLeave s k f).pending = s.pending := rfl

-- loadAt.
@[simp] theorem loadAt_clk (i w : Nat) : (loadAt s i w).clk = s.clk := rfl
@[simp] theorem loadAt_ev (i w : Nat) : (loadAt s i w).ev = s.ev := rfl
@[simp] theorem loadAt_perf (i w : Nat) : (loadAt s i w).perf = s.perf := rfl
@[simp] theorem loadAt_mb (i w : Nat) : (loadAt s i w).mb = s.mb := rfl
@[simp] theorem loadAt_regs (i w : Nat) : (loadAt s i w).regs = s.regs := rfl
@[simp] theorem loadAt_cyc (i w : Nat) : (loadAt s i w).cyc = s.cyc := rfl
@[simp] theorem loadAt_seq (i w : Nat) : (loadAt s i w).seq = s.seq := rfl
@[simp] theorem loadAt_gen (i w : Nat) : (loadAt s i w).gen = s.gen := rfl
@[simp] theorem loadAt_genSeed (i w : Nat) : (loadAt s i w).genSeed = s.genSeed := rfl
@[simp] theorem loadAt_arr (i w : Nat) : (loadAt s i w).arr = s.arr := rfl
@[simp] theorem loadAt_acc (i w : Nat) : (loadAt s i w).acc = s.acc := rfl
@[simp] theorem loadAt_seams (i w : Nat) : (loadAt s i w).seams = s.seams := rfl
@[simp] theorem loadAt_gate (i w : Nat) : (loadAt s i w).gate = s.gate := rfl
@[simp] theorem loadAt_scan (i w : Nat) : (loadAt s i w).scan = s.scan := rfl
@[simp] theorem loadAt_vec (i w : Nat) : (loadAt s i w).vec = s.vec := rfl
@[simp] theorem loadAt_sfu (i w : Nat) : (loadAt s i w).sfu = s.sfu := rfl
@[simp] theorem loadAt_spad (i w : Nat) : (loadAt s i w).spad = s.spad := rfl
@[simp] theorem loadAt_rings (i w : Nat) : (loadAt s i w).rings = s.rings := rfl
@[simp] theorem loadAt_wins (i w : Nat) : (loadAt s i w).wins = s.wins := rfl
@[simp] theorem loadAt_chans (i w : Nat) : (loadAt s i w).chans = s.chans := rfl
@[simp] theorem loadAt_memp (i w : Nat) : (loadAt s i w).memp = s.memp := rfl
@[simp] theorem loadAt_fab (i w : Nat) : (loadAt s i w).fab = s.fab := rfl
@[simp] theorem loadAt_mode (i w : Nat) : (loadAt s i w).mode = s.mode := rfl
@[simp] theorem loadAt_red (i w : Nat) : (loadAt s i w).red = s.red := rfl
@[simp] theorem loadAt_store (i w : Nat) : (loadAt s i w).store = s.store := rfl
@[simp] theorem loadAt_sup (i w : Nat) : (loadAt s i w).sup = s.sup := rfl
@[simp] theorem loadAt_rst (i w : Nat) : (loadAt s i w).rst = s.rst := rfl
@[simp] theorem loadAt_pins (i w : Nat) : (loadAt s i w).pins = s.pins := rfl
@[simp] theorem loadAt_fuse (i w : Nat) : (loadAt s i w).fuse = s.fuse := rfl
@[simp] theorem loadAt_straps (i w : Nat) : (loadAt s i w).straps = s.straps := rfl
@[simp] theorem loadAt_variant (i w : Nat) : (loadAt s i w).variant = s.variant := rfl
@[simp] theorem loadAt_denied (i w : Nat) : (loadAt s i w).denied = s.denied := rfl
@[simp] theorem loadAt_free (i w : Nat) : (loadAt s i w).free = s.free := rfl
@[simp] theorem loadAt_pending (i w : Nat) : (loadAt s i w).pending = s.pending := rfl

-- loadStop.
@[simp] theorem loadStop_clk (cause : Nat) : (loadStop s cause).clk = s.clk := rfl
@[simp] theorem loadStop_ev (cause : Nat) : (loadStop s cause).ev = s.ev := rfl
@[simp] theorem loadStop_perf (cause : Nat) : (loadStop s cause).perf = s.perf := rfl
@[simp] theorem loadStop_mb (cause : Nat) : (loadStop s cause).mb = s.mb := rfl
@[simp] theorem loadStop_regs (cause : Nat) : (loadStop s cause).regs = s.regs := rfl
@[simp] theorem loadStop_cyc (cause : Nat) : (loadStop s cause).cyc = s.cyc := rfl
@[simp] theorem loadStop_seq (cause : Nat) : (loadStop s cause).seq = s.seq := rfl
@[simp] theorem loadStop_gen (cause : Nat) : (loadStop s cause).gen = s.gen := rfl
@[simp] theorem loadStop_genSeed (cause : Nat) : (loadStop s cause).genSeed = s.genSeed := rfl
@[simp] theorem loadStop_arr (cause : Nat) : (loadStop s cause).arr = s.arr := rfl
@[simp] theorem loadStop_acc (cause : Nat) : (loadStop s cause).acc = s.acc := rfl
@[simp] theorem loadStop_seams (cause : Nat) : (loadStop s cause).seams = s.seams := rfl
@[simp] theorem loadStop_gate (cause : Nat) : (loadStop s cause).gate = s.gate := rfl
@[simp] theorem loadStop_scan (cause : Nat) : (loadStop s cause).scan = s.scan := rfl
@[simp] theorem loadStop_vec (cause : Nat) : (loadStop s cause).vec = s.vec := rfl
@[simp] theorem loadStop_sfu (cause : Nat) : (loadStop s cause).sfu = s.sfu := rfl
@[simp] theorem loadStop_spad (cause : Nat) : (loadStop s cause).spad = s.spad := rfl
@[simp] theorem loadStop_rings (cause : Nat) : (loadStop s cause).rings = s.rings := rfl
@[simp] theorem loadStop_wins (cause : Nat) : (loadStop s cause).wins = s.wins := rfl
@[simp] theorem loadStop_chans (cause : Nat) : (loadStop s cause).chans = s.chans := rfl
@[simp] theorem loadStop_memp (cause : Nat) : (loadStop s cause).memp = s.memp := rfl
@[simp] theorem loadStop_fab (cause : Nat) : (loadStop s cause).fab = s.fab := rfl
@[simp] theorem loadStop_mode (cause : Nat) : (loadStop s cause).mode = s.mode := rfl
@[simp] theorem loadStop_red (cause : Nat) : (loadStop s cause).red = s.red := rfl
@[simp] theorem loadStop_store (cause : Nat) : (loadStop s cause).store = s.store := rfl
@[simp] theorem loadStop_sup (cause : Nat) : (loadStop s cause).sup = s.sup := rfl
@[simp] theorem loadStop_rst (cause : Nat) : (loadStop s cause).rst = s.rst := rfl
@[simp] theorem loadStop_pins (cause : Nat) : (loadStop s cause).pins = s.pins := rfl
@[simp] theorem loadStop_fuse (cause : Nat) : (loadStop s cause).fuse = s.fuse := rfl
@[simp] theorem loadStop_straps (cause : Nat) : (loadStop s cause).straps = s.straps := rfl
@[simp] theorem loadStop_variant (cause : Nat) : (loadStop s cause).variant = s.variant := rfl
@[simp] theorem loadStop_denied (cause : Nat) : (loadStop s cause).denied = s.denied := rfl
@[simp] theorem loadStop_free (cause : Nat) : (loadStop s cause).free = s.free := rfl
@[simp] theorem loadStop_pending (cause : Nat) : (loadStop s cause).pending = s.pending := rfl

-- updGrp.
@[simp] theorem updGrp_clk (k : Nat) (f : Group → Group) : (updGrp s k f).clk = s.clk := rfl
@[simp] theorem updGrp_ev (k : Nat) (f : Group → Group) : (updGrp s k f).ev = s.ev := rfl
@[simp] theorem updGrp_perf (k : Nat) (f : Group → Group) : (updGrp s k f).perf = s.perf := rfl
@[simp] theorem updGrp_mb (k : Nat) (f : Group → Group) : (updGrp s k f).mb = s.mb := rfl
@[simp] theorem updGrp_regs (k : Nat) (f : Group → Group) : (updGrp s k f).regs = s.regs := rfl
@[simp] theorem updGrp_cyc (k : Nat) (f : Group → Group) : (updGrp s k f).cyc = s.cyc := rfl
@[simp] theorem updGrp_seq (k : Nat) (f : Group → Group) : (updGrp s k f).seq = s.seq := rfl
@[simp] theorem updGrp_gen (k : Nat) (f : Group → Group) : (updGrp s k f).gen = s.gen := rfl
@[simp] theorem updGrp_genSeed (k : Nat) (f : Group → Group) : (updGrp s k f).genSeed = s.genSeed := rfl
@[simp] theorem updGrp_arr (k : Nat) (f : Group → Group) : (updGrp s k f).arr = s.arr := rfl
@[simp] theorem updGrp_acc (k : Nat) (f : Group → Group) : (updGrp s k f).acc = s.acc := rfl
@[simp] theorem updGrp_seams (k : Nat) (f : Group → Group) : (updGrp s k f).seams = s.seams := rfl
@[simp] theorem updGrp_gate (k : Nat) (f : Group → Group) : (updGrp s k f).gate = s.gate := rfl
@[simp] theorem updGrp_scan (k : Nat) (f : Group → Group) : (updGrp s k f).scan = s.scan := rfl
@[simp] theorem updGrp_vec (k : Nat) (f : Group → Group) : (updGrp s k f).vec = s.vec := rfl
@[simp] theorem updGrp_sfu (k : Nat) (f : Group → Group) : (updGrp s k f).sfu = s.sfu := rfl
@[simp] theorem updGrp_spad (k : Nat) (f : Group → Group) : (updGrp s k f).spad = s.spad := rfl
@[simp] theorem updGrp_rings (k : Nat) (f : Group → Group) : (updGrp s k f).rings = s.rings := rfl
@[simp] theorem updGrp_wins (k : Nat) (f : Group → Group) : (updGrp s k f).wins = s.wins := rfl
@[simp] theorem updGrp_chans (k : Nat) (f : Group → Group) : (updGrp s k f).chans = s.chans := rfl
@[simp] theorem updGrp_memp (k : Nat) (f : Group → Group) : (updGrp s k f).memp = s.memp := rfl
@[simp] theorem updGrp_fab (k : Nat) (f : Group → Group) : (updGrp s k f).fab = s.fab := rfl
@[simp] theorem updGrp_mode (k : Nat) (f : Group → Group) : (updGrp s k f).mode = s.mode := rfl
@[simp] theorem updGrp_boot (k : Nat) (f : Group → Group) : (updGrp s k f).boot = s.boot := rfl
@[simp] theorem updGrp_store (k : Nat) (f : Group → Group) : (updGrp s k f).store = s.store := rfl
@[simp] theorem updGrp_sup (k : Nat) (f : Group → Group) : (updGrp s k f).sup = s.sup := rfl
@[simp] theorem updGrp_rst (k : Nat) (f : Group → Group) : (updGrp s k f).rst = s.rst := rfl
@[simp] theorem updGrp_pins (k : Nat) (f : Group → Group) : (updGrp s k f).pins = s.pins := rfl
@[simp] theorem updGrp_fuse (k : Nat) (f : Group → Group) : (updGrp s k f).fuse = s.fuse := rfl
@[simp] theorem updGrp_straps (k : Nat) (f : Group → Group) : (updGrp s k f).straps = s.straps := rfl
@[simp] theorem updGrp_variant (k : Nat) (f : Group → Group) : (updGrp s k f).variant = s.variant := rfl
@[simp] theorem updGrp_denied (k : Nat) (f : Group → Group) : (updGrp s k f).denied = s.denied := rfl
@[simp] theorem updGrp_free (k : Nat) (f : Group → Group) : (updGrp s k f).free = s.free := rfl
@[simp] theorem updGrp_pending (k : Nat) (f : Group → Group) : (updGrp s k f).pending = s.pending := rfl

-- updChunk.
@[simp] theorem updChunk_clk (c : ScanChunk) (f : ScanChunk → ScanChunk) : (updChunk s c f).clk = s.clk := rfl
@[simp] theorem updChunk_ev (c : ScanChunk) (f : ScanChunk → ScanChunk) : (updChunk s c f).ev = s.ev := rfl
@[simp] theorem updChunk_perf (c : ScanChunk) (f : ScanChunk → ScanChunk) : (updChunk s c f).perf = s.perf := rfl
@[simp] theorem updChunk_mb (c : ScanChunk) (f : ScanChunk → ScanChunk) : (updChunk s c f).mb = s.mb := rfl
@[simp] theorem updChunk_regs (c : ScanChunk) (f : ScanChunk → ScanChunk) : (updChunk s c f).regs = s.regs := rfl
@[simp] theorem updChunk_cyc (c : ScanChunk) (f : ScanChunk → ScanChunk) : (updChunk s c f).cyc = s.cyc := rfl
@[simp] theorem updChunk_seq (c : ScanChunk) (f : ScanChunk → ScanChunk) : (updChunk s c f).seq = s.seq := rfl
@[simp] theorem updChunk_gen (c : ScanChunk) (f : ScanChunk → ScanChunk) : (updChunk s c f).gen = s.gen := rfl
@[simp] theorem updChunk_genSeed (c : ScanChunk) (f : ScanChunk → ScanChunk) : (updChunk s c f).genSeed = s.genSeed := rfl
@[simp] theorem updChunk_arr (c : ScanChunk) (f : ScanChunk → ScanChunk) : (updChunk s c f).arr = s.arr := rfl
@[simp] theorem updChunk_acc (c : ScanChunk) (f : ScanChunk → ScanChunk) : (updChunk s c f).acc = s.acc := rfl
@[simp] theorem updChunk_seams (c : ScanChunk) (f : ScanChunk → ScanChunk) : (updChunk s c f).seams = s.seams := rfl
@[simp] theorem updChunk_gate (c : ScanChunk) (f : ScanChunk → ScanChunk) : (updChunk s c f).gate = s.gate := rfl
@[simp] theorem updChunk_vec (c : ScanChunk) (f : ScanChunk → ScanChunk) : (updChunk s c f).vec = s.vec := rfl
@[simp] theorem updChunk_sfu (c : ScanChunk) (f : ScanChunk → ScanChunk) : (updChunk s c f).sfu = s.sfu := rfl
@[simp] theorem updChunk_spad (c : ScanChunk) (f : ScanChunk → ScanChunk) : (updChunk s c f).spad = s.spad := rfl
@[simp] theorem updChunk_rings (c : ScanChunk) (f : ScanChunk → ScanChunk) : (updChunk s c f).rings = s.rings := rfl
@[simp] theorem updChunk_wins (c : ScanChunk) (f : ScanChunk → ScanChunk) : (updChunk s c f).wins = s.wins := rfl
@[simp] theorem updChunk_chans (c : ScanChunk) (f : ScanChunk → ScanChunk) : (updChunk s c f).chans = s.chans := rfl
@[simp] theorem updChunk_memp (c : ScanChunk) (f : ScanChunk → ScanChunk) : (updChunk s c f).memp = s.memp := rfl
@[simp] theorem updChunk_fab (c : ScanChunk) (f : ScanChunk → ScanChunk) : (updChunk s c f).fab = s.fab := rfl
@[simp] theorem updChunk_mode (c : ScanChunk) (f : ScanChunk → ScanChunk) : (updChunk s c f).mode = s.mode := rfl
@[simp] theorem updChunk_red (c : ScanChunk) (f : ScanChunk → ScanChunk) : (updChunk s c f).red = s.red := rfl
@[simp] theorem updChunk_boot (c : ScanChunk) (f : ScanChunk → ScanChunk) : (updChunk s c f).boot = s.boot := rfl
@[simp] theorem updChunk_store (c : ScanChunk) (f : ScanChunk → ScanChunk) : (updChunk s c f).store = s.store := rfl
@[simp] theorem updChunk_sup (c : ScanChunk) (f : ScanChunk → ScanChunk) : (updChunk s c f).sup = s.sup := rfl
@[simp] theorem updChunk_rst (c : ScanChunk) (f : ScanChunk → ScanChunk) : (updChunk s c f).rst = s.rst := rfl
@[simp] theorem updChunk_pins (c : ScanChunk) (f : ScanChunk → ScanChunk) : (updChunk s c f).pins = s.pins := rfl
@[simp] theorem updChunk_fuse (c : ScanChunk) (f : ScanChunk → ScanChunk) : (updChunk s c f).fuse = s.fuse := rfl
@[simp] theorem updChunk_straps (c : ScanChunk) (f : ScanChunk → ScanChunk) : (updChunk s c f).straps = s.straps := rfl
@[simp] theorem updChunk_variant (c : ScanChunk) (f : ScanChunk → ScanChunk) : (updChunk s c f).variant = s.variant := rfl
@[simp] theorem updChunk_denied (c : ScanChunk) (f : ScanChunk → ScanChunk) : (updChunk s c f).denied = s.denied := rfl
@[simp] theorem updChunk_free (c : ScanChunk) (f : ScanChunk → ScanChunk) : (updChunk s c f).free = s.free := rfl
@[simp] theorem updChunk_pending (c : ScanChunk) (f : ScanChunk → ScanChunk) : (updChunk s c f).pending = s.pending := rfl

-- updStep.
@[simp] theorem updStep_clk (t : GateStep) (f : GateStep → GateStep) : (updStep s t f).clk = s.clk := rfl
@[simp] theorem updStep_ev (t : GateStep) (f : GateStep → GateStep) : (updStep s t f).ev = s.ev := rfl
@[simp] theorem updStep_perf (t : GateStep) (f : GateStep → GateStep) : (updStep s t f).perf = s.perf := rfl
@[simp] theorem updStep_mb (t : GateStep) (f : GateStep → GateStep) : (updStep s t f).mb = s.mb := rfl
@[simp] theorem updStep_regs (t : GateStep) (f : GateStep → GateStep) : (updStep s t f).regs = s.regs := rfl
@[simp] theorem updStep_cyc (t : GateStep) (f : GateStep → GateStep) : (updStep s t f).cyc = s.cyc := rfl
@[simp] theorem updStep_seq (t : GateStep) (f : GateStep → GateStep) : (updStep s t f).seq = s.seq := rfl
@[simp] theorem updStep_gen (t : GateStep) (f : GateStep → GateStep) : (updStep s t f).gen = s.gen := rfl
@[simp] theorem updStep_genSeed (t : GateStep) (f : GateStep → GateStep) : (updStep s t f).genSeed = s.genSeed := rfl
@[simp] theorem updStep_arr (t : GateStep) (f : GateStep → GateStep) : (updStep s t f).arr = s.arr := rfl
@[simp] theorem updStep_acc (t : GateStep) (f : GateStep → GateStep) : (updStep s t f).acc = s.acc := rfl
@[simp] theorem updStep_seams (t : GateStep) (f : GateStep → GateStep) : (updStep s t f).seams = s.seams := rfl
@[simp] theorem updStep_scan (t : GateStep) (f : GateStep → GateStep) : (updStep s t f).scan = s.scan := rfl
@[simp] theorem updStep_vec (t : GateStep) (f : GateStep → GateStep) : (updStep s t f).vec = s.vec := rfl
@[simp] theorem updStep_sfu (t : GateStep) (f : GateStep → GateStep) : (updStep s t f).sfu = s.sfu := rfl
@[simp] theorem updStep_spad (t : GateStep) (f : GateStep → GateStep) : (updStep s t f).spad = s.spad := rfl
@[simp] theorem updStep_rings (t : GateStep) (f : GateStep → GateStep) : (updStep s t f).rings = s.rings := rfl
@[simp] theorem updStep_wins (t : GateStep) (f : GateStep → GateStep) : (updStep s t f).wins = s.wins := rfl
@[simp] theorem updStep_chans (t : GateStep) (f : GateStep → GateStep) : (updStep s t f).chans = s.chans := rfl
@[simp] theorem updStep_memp (t : GateStep) (f : GateStep → GateStep) : (updStep s t f).memp = s.memp := rfl
@[simp] theorem updStep_fab (t : GateStep) (f : GateStep → GateStep) : (updStep s t f).fab = s.fab := rfl
@[simp] theorem updStep_mode (t : GateStep) (f : GateStep → GateStep) : (updStep s t f).mode = s.mode := rfl
@[simp] theorem updStep_red (t : GateStep) (f : GateStep → GateStep) : (updStep s t f).red = s.red := rfl
@[simp] theorem updStep_boot (t : GateStep) (f : GateStep → GateStep) : (updStep s t f).boot = s.boot := rfl
@[simp] theorem updStep_store (t : GateStep) (f : GateStep → GateStep) : (updStep s t f).store = s.store := rfl
@[simp] theorem updStep_sup (t : GateStep) (f : GateStep → GateStep) : (updStep s t f).sup = s.sup := rfl
@[simp] theorem updStep_rst (t : GateStep) (f : GateStep → GateStep) : (updStep s t f).rst = s.rst := rfl
@[simp] theorem updStep_pins (t : GateStep) (f : GateStep → GateStep) : (updStep s t f).pins = s.pins := rfl
@[simp] theorem updStep_fuse (t : GateStep) (f : GateStep → GateStep) : (updStep s t f).fuse = s.fuse := rfl
@[simp] theorem updStep_straps (t : GateStep) (f : GateStep → GateStep) : (updStep s t f).straps = s.straps := rfl
@[simp] theorem updStep_variant (t : GateStep) (f : GateStep → GateStep) : (updStep s t f).variant = s.variant := rfl
@[simp] theorem updStep_denied (t : GateStep) (f : GateStep → GateStep) : (updStep s t f).denied = s.denied := rfl
@[simp] theorem updStep_free (t : GateStep) (f : GateStep → GateStep) : (updStep s t f).free = s.free := rfl
@[simp] theorem updStep_pending (t : GateStep) (f : GateStep → GateStep) : (updStep s t f).pending = s.pending := rfl

-- vAdvance.
@[simp] theorem vAdvance_clk (run : Running) (l : List VLoop) (pc : Nat) : (vAdvance s run l pc).clk = s.clk := rfl
@[simp] theorem vAdvance_ev (run : Running) (l : List VLoop) (pc : Nat) : (vAdvance s run l pc).ev = s.ev := rfl
@[simp] theorem vAdvance_perf (run : Running) (l : List VLoop) (pc : Nat) : (vAdvance s run l pc).perf = s.perf := rfl
@[simp] theorem vAdvance_mb (run : Running) (l : List VLoop) (pc : Nat) : (vAdvance s run l pc).mb = s.mb := rfl
@[simp] theorem vAdvance_regs (run : Running) (l : List VLoop) (pc : Nat) : (vAdvance s run l pc).regs = s.regs := rfl
@[simp] theorem vAdvance_cyc (run : Running) (l : List VLoop) (pc : Nat) : (vAdvance s run l pc).cyc = s.cyc := rfl
@[simp] theorem vAdvance_seq (run : Running) (l : List VLoop) (pc : Nat) : (vAdvance s run l pc).seq = s.seq := rfl
@[simp] theorem vAdvance_gen (run : Running) (l : List VLoop) (pc : Nat) : (vAdvance s run l pc).gen = s.gen := rfl
@[simp] theorem vAdvance_genSeed (run : Running) (l : List VLoop) (pc : Nat) : (vAdvance s run l pc).genSeed = s.genSeed := rfl
@[simp] theorem vAdvance_arr (run : Running) (l : List VLoop) (pc : Nat) : (vAdvance s run l pc).arr = s.arr := rfl
@[simp] theorem vAdvance_acc (run : Running) (l : List VLoop) (pc : Nat) : (vAdvance s run l pc).acc = s.acc := rfl
@[simp] theorem vAdvance_seams (run : Running) (l : List VLoop) (pc : Nat) : (vAdvance s run l pc).seams = s.seams := rfl
@[simp] theorem vAdvance_gate (run : Running) (l : List VLoop) (pc : Nat) : (vAdvance s run l pc).gate = s.gate := rfl
@[simp] theorem vAdvance_scan (run : Running) (l : List VLoop) (pc : Nat) : (vAdvance s run l pc).scan = s.scan := rfl
@[simp] theorem vAdvance_sfu (run : Running) (l : List VLoop) (pc : Nat) : (vAdvance s run l pc).sfu = s.sfu := rfl
@[simp] theorem vAdvance_spad (run : Running) (l : List VLoop) (pc : Nat) : (vAdvance s run l pc).spad = s.spad := rfl
@[simp] theorem vAdvance_rings (run : Running) (l : List VLoop) (pc : Nat) : (vAdvance s run l pc).rings = s.rings := rfl
@[simp] theorem vAdvance_wins (run : Running) (l : List VLoop) (pc : Nat) : (vAdvance s run l pc).wins = s.wins := rfl
@[simp] theorem vAdvance_chans (run : Running) (l : List VLoop) (pc : Nat) : (vAdvance s run l pc).chans = s.chans := rfl
@[simp] theorem vAdvance_memp (run : Running) (l : List VLoop) (pc : Nat) : (vAdvance s run l pc).memp = s.memp := rfl
@[simp] theorem vAdvance_fab (run : Running) (l : List VLoop) (pc : Nat) : (vAdvance s run l pc).fab = s.fab := rfl
@[simp] theorem vAdvance_mode (run : Running) (l : List VLoop) (pc : Nat) : (vAdvance s run l pc).mode = s.mode := rfl
@[simp] theorem vAdvance_red (run : Running) (l : List VLoop) (pc : Nat) : (vAdvance s run l pc).red = s.red := rfl
@[simp] theorem vAdvance_boot (run : Running) (l : List VLoop) (pc : Nat) : (vAdvance s run l pc).boot = s.boot := rfl
@[simp] theorem vAdvance_store (run : Running) (l : List VLoop) (pc : Nat) : (vAdvance s run l pc).store = s.store := rfl
@[simp] theorem vAdvance_sup (run : Running) (l : List VLoop) (pc : Nat) : (vAdvance s run l pc).sup = s.sup := rfl
@[simp] theorem vAdvance_rst (run : Running) (l : List VLoop) (pc : Nat) : (vAdvance s run l pc).rst = s.rst := rfl
@[simp] theorem vAdvance_pins (run : Running) (l : List VLoop) (pc : Nat) : (vAdvance s run l pc).pins = s.pins := rfl
@[simp] theorem vAdvance_fuse (run : Running) (l : List VLoop) (pc : Nat) : (vAdvance s run l pc).fuse = s.fuse := rfl
@[simp] theorem vAdvance_straps (run : Running) (l : List VLoop) (pc : Nat) : (vAdvance s run l pc).straps = s.straps := rfl
@[simp] theorem vAdvance_variant (run : Running) (l : List VLoop) (pc : Nat) : (vAdvance s run l pc).variant = s.variant := rfl
@[simp] theorem vAdvance_denied (run : Running) (l : List VLoop) (pc : Nat) : (vAdvance s run l pc).denied = s.denied := rfl
@[simp] theorem vAdvance_free (run : Running) (l : List VLoop) (pc : Nat) : (vAdvance s run l pc).free = s.free := rfl
@[simp] theorem vAdvance_pending (run : Running) (l : List VLoop) (pc : Nat) : (vAdvance s run l pc).pending = s.pending := rfl

-- pushRes.
@[simp] theorem pushRes_clk (b : Bench) (r : Rec) (lam : Nat) (d : VDst) (l : List (Option W32)) : (pushRes s b r lam d l).clk = s.clk := rfl
@[simp] theorem pushRes_ev (b : Bench) (r : Rec) (lam : Nat) (d : VDst) (l : List (Option W32)) : (pushRes s b r lam d l).ev = s.ev := rfl
@[simp] theorem pushRes_perf (b : Bench) (r : Rec) (lam : Nat) (d : VDst) (l : List (Option W32)) : (pushRes s b r lam d l).perf = s.perf := rfl
@[simp] theorem pushRes_mb (b : Bench) (r : Rec) (lam : Nat) (d : VDst) (l : List (Option W32)) : (pushRes s b r lam d l).mb = s.mb := rfl
@[simp] theorem pushRes_regs (b : Bench) (r : Rec) (lam : Nat) (d : VDst) (l : List (Option W32)) : (pushRes s b r lam d l).regs = s.regs := rfl
@[simp] theorem pushRes_cyc (b : Bench) (r : Rec) (lam : Nat) (d : VDst) (l : List (Option W32)) : (pushRes s b r lam d l).cyc = s.cyc := rfl
@[simp] theorem pushRes_seq (b : Bench) (r : Rec) (lam : Nat) (d : VDst) (l : List (Option W32)) : (pushRes s b r lam d l).seq = s.seq := rfl
@[simp] theorem pushRes_gen (b : Bench) (r : Rec) (lam : Nat) (d : VDst) (l : List (Option W32)) : (pushRes s b r lam d l).gen = s.gen := rfl
@[simp] theorem pushRes_genSeed (b : Bench) (r : Rec) (lam : Nat) (d : VDst) (l : List (Option W32)) : (pushRes s b r lam d l).genSeed = s.genSeed := rfl
@[simp] theorem pushRes_arr (b : Bench) (r : Rec) (lam : Nat) (d : VDst) (l : List (Option W32)) : (pushRes s b r lam d l).arr = s.arr := rfl
@[simp] theorem pushRes_acc (b : Bench) (r : Rec) (lam : Nat) (d : VDst) (l : List (Option W32)) : (pushRes s b r lam d l).acc = s.acc := rfl
@[simp] theorem pushRes_seams (b : Bench) (r : Rec) (lam : Nat) (d : VDst) (l : List (Option W32)) : (pushRes s b r lam d l).seams = s.seams := rfl
@[simp] theorem pushRes_gate (b : Bench) (r : Rec) (lam : Nat) (d : VDst) (l : List (Option W32)) : (pushRes s b r lam d l).gate = s.gate := rfl
@[simp] theorem pushRes_scan (b : Bench) (r : Rec) (lam : Nat) (d : VDst) (l : List (Option W32)) : (pushRes s b r lam d l).scan = s.scan := rfl
@[simp] theorem pushRes_sfu (b : Bench) (r : Rec) (lam : Nat) (d : VDst) (l : List (Option W32)) : (pushRes s b r lam d l).sfu = s.sfu := rfl
@[simp] theorem pushRes_spad (b : Bench) (r : Rec) (lam : Nat) (d : VDst) (l : List (Option W32)) : (pushRes s b r lam d l).spad = s.spad := rfl
@[simp] theorem pushRes_rings (b : Bench) (r : Rec) (lam : Nat) (d : VDst) (l : List (Option W32)) : (pushRes s b r lam d l).rings = s.rings := rfl
@[simp] theorem pushRes_wins (b : Bench) (r : Rec) (lam : Nat) (d : VDst) (l : List (Option W32)) : (pushRes s b r lam d l).wins = s.wins := rfl
@[simp] theorem pushRes_chans (b : Bench) (r : Rec) (lam : Nat) (d : VDst) (l : List (Option W32)) : (pushRes s b r lam d l).chans = s.chans := rfl
@[simp] theorem pushRes_memp (b : Bench) (r : Rec) (lam : Nat) (d : VDst) (l : List (Option W32)) : (pushRes s b r lam d l).memp = s.memp := rfl
@[simp] theorem pushRes_fab (b : Bench) (r : Rec) (lam : Nat) (d : VDst) (l : List (Option W32)) : (pushRes s b r lam d l).fab = s.fab := rfl
@[simp] theorem pushRes_mode (b : Bench) (r : Rec) (lam : Nat) (d : VDst) (l : List (Option W32)) : (pushRes s b r lam d l).mode = s.mode := rfl
@[simp] theorem pushRes_red (b : Bench) (r : Rec) (lam : Nat) (d : VDst) (l : List (Option W32)) : (pushRes s b r lam d l).red = s.red := rfl
@[simp] theorem pushRes_boot (b : Bench) (r : Rec) (lam : Nat) (d : VDst) (l : List (Option W32)) : (pushRes s b r lam d l).boot = s.boot := rfl
@[simp] theorem pushRes_store (b : Bench) (r : Rec) (lam : Nat) (d : VDst) (l : List (Option W32)) : (pushRes s b r lam d l).store = s.store := rfl
@[simp] theorem pushRes_sup (b : Bench) (r : Rec) (lam : Nat) (d : VDst) (l : List (Option W32)) : (pushRes s b r lam d l).sup = s.sup := rfl
@[simp] theorem pushRes_rst (b : Bench) (r : Rec) (lam : Nat) (d : VDst) (l : List (Option W32)) : (pushRes s b r lam d l).rst = s.rst := rfl
@[simp] theorem pushRes_pins (b : Bench) (r : Rec) (lam : Nat) (d : VDst) (l : List (Option W32)) : (pushRes s b r lam d l).pins = s.pins := rfl
@[simp] theorem pushRes_fuse (b : Bench) (r : Rec) (lam : Nat) (d : VDst) (l : List (Option W32)) : (pushRes s b r lam d l).fuse = s.fuse := rfl
@[simp] theorem pushRes_straps (b : Bench) (r : Rec) (lam : Nat) (d : VDst) (l : List (Option W32)) : (pushRes s b r lam d l).straps = s.straps := rfl
@[simp] theorem pushRes_variant (b : Bench) (r : Rec) (lam : Nat) (d : VDst) (l : List (Option W32)) : (pushRes s b r lam d l).variant = s.variant := rfl
@[simp] theorem pushRes_denied (b : Bench) (r : Rec) (lam : Nat) (d : VDst) (l : List (Option W32)) : (pushRes s b r lam d l).denied = s.denied := rfl
@[simp] theorem pushRes_free (b : Bench) (r : Rec) (lam : Nat) (d : VDst) (l : List (Option W32)) : (pushRes s b r lam d l).free = s.free := rfl
@[simp] theorem pushRes_pending (b : Bench) (r : Rec) (lam : Nat) (d : VDst) (l : List (Option W32)) : (pushRes s b r lam d l).pending = s.pending := rfl

-- setSpadByte.
@[simp] theorem setSpadByte_clk (a : Nat) (b : Byte) : (setSpadByte s a b).clk = s.clk := rfl
@[simp] theorem setSpadByte_ev (a : Nat) (b : Byte) : (setSpadByte s a b).ev = s.ev := rfl
@[simp] theorem setSpadByte_perf (a : Nat) (b : Byte) : (setSpadByte s a b).perf = s.perf := rfl
@[simp] theorem setSpadByte_mb (a : Nat) (b : Byte) : (setSpadByte s a b).mb = s.mb := rfl
@[simp] theorem setSpadByte_regs (a : Nat) (b : Byte) : (setSpadByte s a b).regs = s.regs := rfl
@[simp] theorem setSpadByte_cyc (a : Nat) (b : Byte) : (setSpadByte s a b).cyc = s.cyc := rfl
@[simp] theorem setSpadByte_seq (a : Nat) (b : Byte) : (setSpadByte s a b).seq = s.seq := rfl
@[simp] theorem setSpadByte_gen (a : Nat) (b : Byte) : (setSpadByte s a b).gen = s.gen := rfl
@[simp] theorem setSpadByte_genSeed (a : Nat) (b : Byte) : (setSpadByte s a b).genSeed = s.genSeed := rfl
@[simp] theorem setSpadByte_arr (a : Nat) (b : Byte) : (setSpadByte s a b).arr = s.arr := rfl
@[simp] theorem setSpadByte_acc (a : Nat) (b : Byte) : (setSpadByte s a b).acc = s.acc := rfl
@[simp] theorem setSpadByte_seams (a : Nat) (b : Byte) : (setSpadByte s a b).seams = s.seams := rfl
@[simp] theorem setSpadByte_gate (a : Nat) (b : Byte) : (setSpadByte s a b).gate = s.gate := rfl
@[simp] theorem setSpadByte_scan (a : Nat) (b : Byte) : (setSpadByte s a b).scan = s.scan := rfl
@[simp] theorem setSpadByte_vec (a : Nat) (b : Byte) : (setSpadByte s a b).vec = s.vec := rfl
@[simp] theorem setSpadByte_sfu (a : Nat) (b : Byte) : (setSpadByte s a b).sfu = s.sfu := rfl
@[simp] theorem setSpadByte_rings (a : Nat) (b : Byte) : (setSpadByte s a b).rings = s.rings := rfl
@[simp] theorem setSpadByte_wins (a : Nat) (b : Byte) : (setSpadByte s a b).wins = s.wins := rfl
@[simp] theorem setSpadByte_chans (a : Nat) (b : Byte) : (setSpadByte s a b).chans = s.chans := rfl
@[simp] theorem setSpadByte_memp (a : Nat) (b : Byte) : (setSpadByte s a b).memp = s.memp := rfl
@[simp] theorem setSpadByte_fab (a : Nat) (b : Byte) : (setSpadByte s a b).fab = s.fab := rfl
@[simp] theorem setSpadByte_mode (a : Nat) (b : Byte) : (setSpadByte s a b).mode = s.mode := rfl
@[simp] theorem setSpadByte_red (a : Nat) (b : Byte) : (setSpadByte s a b).red = s.red := rfl
@[simp] theorem setSpadByte_boot (a : Nat) (b : Byte) : (setSpadByte s a b).boot = s.boot := rfl
@[simp] theorem setSpadByte_store (a : Nat) (b : Byte) : (setSpadByte s a b).store = s.store := rfl
@[simp] theorem setSpadByte_sup (a : Nat) (b : Byte) : (setSpadByte s a b).sup = s.sup := rfl
@[simp] theorem setSpadByte_rst (a : Nat) (b : Byte) : (setSpadByte s a b).rst = s.rst := rfl
@[simp] theorem setSpadByte_pins (a : Nat) (b : Byte) : (setSpadByte s a b).pins = s.pins := rfl
@[simp] theorem setSpadByte_fuse (a : Nat) (b : Byte) : (setSpadByte s a b).fuse = s.fuse := rfl
@[simp] theorem setSpadByte_straps (a : Nat) (b : Byte) : (setSpadByte s a b).straps = s.straps := rfl
@[simp] theorem setSpadByte_variant (a : Nat) (b : Byte) : (setSpadByte s a b).variant = s.variant := rfl
@[simp] theorem setSpadByte_denied (a : Nat) (b : Byte) : (setSpadByte s a b).denied = s.denied := rfl
@[simp] theorem setSpadByte_free (a : Nat) (b : Byte) : (setSpadByte s a b).free = s.free := rfl
@[simp] theorem setSpadByte_pending (a : Nat) (b : Byte) : (setSpadByte s a b).pending = s.pending := rfl

-- setSide.
@[simp] theorem setSide_clk (sec : Nat) (v : Side) : (setSide s sec v).clk = s.clk := rfl
@[simp] theorem setSide_ev (sec : Nat) (v : Side) : (setSide s sec v).ev = s.ev := rfl
@[simp] theorem setSide_perf (sec : Nat) (v : Side) : (setSide s sec v).perf = s.perf := rfl
@[simp] theorem setSide_mb (sec : Nat) (v : Side) : (setSide s sec v).mb = s.mb := rfl
@[simp] theorem setSide_regs (sec : Nat) (v : Side) : (setSide s sec v).regs = s.regs := rfl
@[simp] theorem setSide_cyc (sec : Nat) (v : Side) : (setSide s sec v).cyc = s.cyc := rfl
@[simp] theorem setSide_seq (sec : Nat) (v : Side) : (setSide s sec v).seq = s.seq := rfl
@[simp] theorem setSide_gen (sec : Nat) (v : Side) : (setSide s sec v).gen = s.gen := rfl
@[simp] theorem setSide_genSeed (sec : Nat) (v : Side) : (setSide s sec v).genSeed = s.genSeed := rfl
@[simp] theorem setSide_arr (sec : Nat) (v : Side) : (setSide s sec v).arr = s.arr := rfl
@[simp] theorem setSide_acc (sec : Nat) (v : Side) : (setSide s sec v).acc = s.acc := rfl
@[simp] theorem setSide_seams (sec : Nat) (v : Side) : (setSide s sec v).seams = s.seams := rfl
@[simp] theorem setSide_gate (sec : Nat) (v : Side) : (setSide s sec v).gate = s.gate := rfl
@[simp] theorem setSide_scan (sec : Nat) (v : Side) : (setSide s sec v).scan = s.scan := rfl
@[simp] theorem setSide_vec (sec : Nat) (v : Side) : (setSide s sec v).vec = s.vec := rfl
@[simp] theorem setSide_sfu (sec : Nat) (v : Side) : (setSide s sec v).sfu = s.sfu := rfl
@[simp] theorem setSide_rings (sec : Nat) (v : Side) : (setSide s sec v).rings = s.rings := rfl
@[simp] theorem setSide_wins (sec : Nat) (v : Side) : (setSide s sec v).wins = s.wins := rfl
@[simp] theorem setSide_chans (sec : Nat) (v : Side) : (setSide s sec v).chans = s.chans := rfl
@[simp] theorem setSide_memp (sec : Nat) (v : Side) : (setSide s sec v).memp = s.memp := rfl
@[simp] theorem setSide_fab (sec : Nat) (v : Side) : (setSide s sec v).fab = s.fab := rfl
@[simp] theorem setSide_mode (sec : Nat) (v : Side) : (setSide s sec v).mode = s.mode := rfl
@[simp] theorem setSide_red (sec : Nat) (v : Side) : (setSide s sec v).red = s.red := rfl
@[simp] theorem setSide_boot (sec : Nat) (v : Side) : (setSide s sec v).boot = s.boot := rfl
@[simp] theorem setSide_store (sec : Nat) (v : Side) : (setSide s sec v).store = s.store := rfl
@[simp] theorem setSide_sup (sec : Nat) (v : Side) : (setSide s sec v).sup = s.sup := rfl
@[simp] theorem setSide_rst (sec : Nat) (v : Side) : (setSide s sec v).rst = s.rst := rfl
@[simp] theorem setSide_pins (sec : Nat) (v : Side) : (setSide s sec v).pins = s.pins := rfl
@[simp] theorem setSide_fuse (sec : Nat) (v : Side) : (setSide s sec v).fuse = s.fuse := rfl
@[simp] theorem setSide_straps (sec : Nat) (v : Side) : (setSide s sec v).straps = s.straps := rfl
@[simp] theorem setSide_variant (sec : Nat) (v : Side) : (setSide s sec v).variant = s.variant := rfl
@[simp] theorem setSide_denied (sec : Nat) (v : Side) : (setSide s sec v).denied = s.denied := rfl
@[simp] theorem setSide_free (sec : Nat) (v : Side) : (setSide s sec v).free = s.free := rfl
@[simp] theorem setSide_pending (sec : Nat) (v : Side) : (setSide s sec v).pending = s.pending := rfl

-- setFlips.
@[simp] theorem setFlips_clk (wd : Nat) (f : W64) : (setFlips s wd f).clk = s.clk := rfl
@[simp] theorem setFlips_ev (wd : Nat) (f : W64) : (setFlips s wd f).ev = s.ev := rfl
@[simp] theorem setFlips_perf (wd : Nat) (f : W64) : (setFlips s wd f).perf = s.perf := rfl
@[simp] theorem setFlips_mb (wd : Nat) (f : W64) : (setFlips s wd f).mb = s.mb := rfl
@[simp] theorem setFlips_regs (wd : Nat) (f : W64) : (setFlips s wd f).regs = s.regs := rfl
@[simp] theorem setFlips_cyc (wd : Nat) (f : W64) : (setFlips s wd f).cyc = s.cyc := rfl
@[simp] theorem setFlips_seq (wd : Nat) (f : W64) : (setFlips s wd f).seq = s.seq := rfl
@[simp] theorem setFlips_gen (wd : Nat) (f : W64) : (setFlips s wd f).gen = s.gen := rfl
@[simp] theorem setFlips_genSeed (wd : Nat) (f : W64) : (setFlips s wd f).genSeed = s.genSeed := rfl
@[simp] theorem setFlips_arr (wd : Nat) (f : W64) : (setFlips s wd f).arr = s.arr := rfl
@[simp] theorem setFlips_acc (wd : Nat) (f : W64) : (setFlips s wd f).acc = s.acc := rfl
@[simp] theorem setFlips_seams (wd : Nat) (f : W64) : (setFlips s wd f).seams = s.seams := rfl
@[simp] theorem setFlips_gate (wd : Nat) (f : W64) : (setFlips s wd f).gate = s.gate := rfl
@[simp] theorem setFlips_scan (wd : Nat) (f : W64) : (setFlips s wd f).scan = s.scan := rfl
@[simp] theorem setFlips_vec (wd : Nat) (f : W64) : (setFlips s wd f).vec = s.vec := rfl
@[simp] theorem setFlips_sfu (wd : Nat) (f : W64) : (setFlips s wd f).sfu = s.sfu := rfl
@[simp] theorem setFlips_rings (wd : Nat) (f : W64) : (setFlips s wd f).rings = s.rings := rfl
@[simp] theorem setFlips_wins (wd : Nat) (f : W64) : (setFlips s wd f).wins = s.wins := rfl
@[simp] theorem setFlips_chans (wd : Nat) (f : W64) : (setFlips s wd f).chans = s.chans := rfl
@[simp] theorem setFlips_memp (wd : Nat) (f : W64) : (setFlips s wd f).memp = s.memp := rfl
@[simp] theorem setFlips_fab (wd : Nat) (f : W64) : (setFlips s wd f).fab = s.fab := rfl
@[simp] theorem setFlips_mode (wd : Nat) (f : W64) : (setFlips s wd f).mode = s.mode := rfl
@[simp] theorem setFlips_red (wd : Nat) (f : W64) : (setFlips s wd f).red = s.red := rfl
@[simp] theorem setFlips_boot (wd : Nat) (f : W64) : (setFlips s wd f).boot = s.boot := rfl
@[simp] theorem setFlips_store (wd : Nat) (f : W64) : (setFlips s wd f).store = s.store := rfl
@[simp] theorem setFlips_sup (wd : Nat) (f : W64) : (setFlips s wd f).sup = s.sup := rfl
@[simp] theorem setFlips_rst (wd : Nat) (f : W64) : (setFlips s wd f).rst = s.rst := rfl
@[simp] theorem setFlips_pins (wd : Nat) (f : W64) : (setFlips s wd f).pins = s.pins := rfl
@[simp] theorem setFlips_fuse (wd : Nat) (f : W64) : (setFlips s wd f).fuse = s.fuse := rfl
@[simp] theorem setFlips_straps (wd : Nat) (f : W64) : (setFlips s wd f).straps = s.straps := rfl
@[simp] theorem setFlips_variant (wd : Nat) (f : W64) : (setFlips s wd f).variant = s.variant := rfl
@[simp] theorem setFlips_denied (wd : Nat) (f : W64) : (setFlips s wd f).denied = s.denied := rfl
@[simp] theorem setFlips_free (wd : Nat) (f : W64) : (setFlips s wd f).free = s.free := rfl
@[simp] theorem setFlips_pending (wd : Nat) (f : W64) : (setFlips s wd f).pending = s.pending := rfl

-- raise.
@[simp] theorem raise_clk (c a : Nat) : (raise s c a).clk = s.clk := by unfold raise; split <;> rfl
@[simp] theorem raise_perf (c a : Nat) : (raise s c a).perf = s.perf := by unfold raise; split <;> rfl
@[simp] theorem raise_mb (c a : Nat) : (raise s c a).mb = s.mb := by unfold raise; split <;> rfl
@[simp] theorem raise_regs (c a : Nat) : (raise s c a).regs = s.regs := by unfold raise; split <;> rfl
@[simp] theorem raise_cyc (c a : Nat) : (raise s c a).cyc = s.cyc := by unfold raise; split <;> rfl
@[simp] theorem raise_seq (c a : Nat) : (raise s c a).seq = s.seq := by unfold raise; split <;> rfl
@[simp] theorem raise_gen (c a : Nat) : (raise s c a).gen = s.gen := by unfold raise; split <;> rfl
@[simp] theorem raise_genSeed (c a : Nat) : (raise s c a).genSeed = s.genSeed := by unfold raise; split <;> rfl
@[simp] theorem raise_arr (c a : Nat) : (raise s c a).arr = s.arr := by unfold raise; split <;> rfl
@[simp] theorem raise_acc (c a : Nat) : (raise s c a).acc = s.acc := by unfold raise; split <;> rfl
@[simp] theorem raise_seams (c a : Nat) : (raise s c a).seams = s.seams := by unfold raise; split <;> rfl
@[simp] theorem raise_gate (c a : Nat) : (raise s c a).gate = s.gate := by unfold raise; split <;> rfl
@[simp] theorem raise_scan (c a : Nat) : (raise s c a).scan = s.scan := by unfold raise; split <;> rfl
@[simp] theorem raise_vec (c a : Nat) : (raise s c a).vec = s.vec := by unfold raise; split <;> rfl
@[simp] theorem raise_sfu (c a : Nat) : (raise s c a).sfu = s.sfu := by unfold raise; split <;> rfl
@[simp] theorem raise_spad (c a : Nat) : (raise s c a).spad = s.spad := by unfold raise; split <;> rfl
@[simp] theorem raise_rings (c a : Nat) : (raise s c a).rings = s.rings := by unfold raise; split <;> rfl
@[simp] theorem raise_wins (c a : Nat) : (raise s c a).wins = s.wins := by unfold raise; split <;> rfl
@[simp] theorem raise_chans (c a : Nat) : (raise s c a).chans = s.chans := by unfold raise; split <;> rfl
@[simp] theorem raise_memp (c a : Nat) : (raise s c a).memp = s.memp := by unfold raise; split <;> rfl
@[simp] theorem raise_fab (c a : Nat) : (raise s c a).fab = s.fab := by unfold raise; split <;> rfl
@[simp] theorem raise_mode (c a : Nat) : (raise s c a).mode = s.mode := by unfold raise; split <;> rfl
@[simp] theorem raise_red (c a : Nat) : (raise s c a).red = s.red := by unfold raise; split <;> rfl
@[simp] theorem raise_boot (c a : Nat) : (raise s c a).boot = s.boot := by unfold raise; split <;> rfl
@[simp] theorem raise_store (c a : Nat) : (raise s c a).store = s.store := by unfold raise; split <;> rfl
@[simp] theorem raise_sup (c a : Nat) : (raise s c a).sup = s.sup := by unfold raise; split <;> rfl
@[simp] theorem raise_rst (c a : Nat) : (raise s c a).rst = s.rst := by unfold raise; split <;> rfl
@[simp] theorem raise_pins (c a : Nat) : (raise s c a).pins = s.pins := by unfold raise; split <;> rfl
@[simp] theorem raise_fuse (c a : Nat) : (raise s c a).fuse = s.fuse := by unfold raise; split <;> rfl
@[simp] theorem raise_straps (c a : Nat) : (raise s c a).straps = s.straps := by unfold raise; split <;> rfl
@[simp] theorem raise_variant (c a : Nat) : (raise s c a).variant = s.variant := by unfold raise; split <;> rfl
@[simp] theorem raise_denied (c a : Nat) : (raise s c a).denied = s.denied := by unfold raise; split <;> rfl
@[simp] theorem raise_free (c a : Nat) : (raise s c a).free = s.free := by unfold raise; split <;> rfl
@[simp] theorem raise_pending (c a : Nat) : (raise s c a).pending = s.pending := by unfold raise; split <;> rfl

end Sys2Proof.Machine
end

