-- ==== Sys2Proof/Laws/Ops.lean ====
section
/-! SUPPORT. What each shared operation can do, said once: the end of a meaning, accesses, time that passes, registers, events,
ports, writes on their way, completion. -/
namespace Sys2Proof.Machine

variable (s : State)

-- The end of a meaning.

/-- `act` always answers a next state; all but the queue and the variant is what the effect leaves, and the pins follow. -/
theorem act_next (f : State → State) :
    act s f = .next { f s with pending := s.pending, variant := s.variant
                               pins := irqPins { f s with pending := s.pending, variant := s.variant } } := rfl

/-- A command whose meaning is `act s f` is answered, with whatever holds of that state. -/
theorem answers_of_act {c : Instr} {f : State → State} {P : State → Prop} (h : exec c s = act s f)
    (hP : P (settle { f s with pending := s.pending, variant := s.variant })) : Answers c s P := ⟨_, h.trans rfl, hP⟩

/-- A guard that holds. -/
@[simp] theorem guardS_true (f : State → State) : guardS true f s = f s := rfl
/-- A guard that does not. -/
@[simp] theorem guardS_false (f : State → State) : guardS false f s = s := rfl

/-- A guard: its effect, or nothing. -/
theorem guardS_cases (b : Bool) (f : State → State) : (b = true ∧ guardS b f s = f s) ∨ (b = false ∧ guardS b f s = s) := by
  cases b <;> simp

-- Time that passes.

/-- A wait that is over at once. -/
theorem awaitS_now (n : Nat) (p : State → Bool) (f : State → State) (h : p s = true) : awaitS n p f s = f s := by
  unfold awaitS; cases n <;> simp [awaitS.go, h]

/-- A wait: after some ticks its end holds and its effect is done; or nothing happens. -/
theorem awaitS_cases (n : Nat) (p : State → Bool) (f : State → State) :
    awaitS n p f s = s ∨ ∃ u, p u = true ∧ awaitS n p f s = f u := by
  unfold awaitS
  suffices h : ∀ n u, awaitS.go p f s n u = s ∨ ∃ v, p v = true ∧ awaitS.go p f s n u = f v from h n s
  intro n
  induction n with
  | zero =>
    intro u; unfold awaitS.go; split
    · exact .inr ⟨u, ‹_›, rfl⟩
    · exact .inl rfl
  | succ k ih =>
    intro u; unfold awaitS.go; split
    · exact .inr ⟨u, ‹_›, rfl⟩
    · exact ih (tick u)

/-- An SCLK cycle that has come. -/
theorem atSclk_now (c : Nat) (f : State → State) (h : c ≤ sclkOf s) : atSclk c f s = f s := awaitS_now s _ _ _ (by simpa using h)
/-- An MCLK cycle that has come. -/
theorem atMclk_now (c : Nat) (f : State → State) (h : c ≤ mclkOf s) : atMclk c f s = f s := awaitS_now s _ _ _ (by simpa using h)
/-- A PCLK cycle that has come. -/
theorem atPclk_now (c : Nat) (f : State → State) (h : c ≤ pclkOf s) : atPclk c f s = f s := awaitS_now s _ _ _ (by simpa using h)

/-- A slot that has come, while the slots go on. -/
theorem inSlot_now (due : State → Option Nat) (f : State → State) (d : Nat) (hd : due s = some d) (h : d ≤ s.clk.slot)
    (hf : s.seq.frozen = false) : inSlot due f s = f s := by
  unfold inSlot; rw [hd]; exact awaitS_now s _ _ _ (by simp [hd, hf, h])

/-- Without a due slot nothing happens. -/
theorem inSlot_none (due : State → Option Nat) (f : State → State) (hd : due s = none) : inSlot due f s = s := by
  unfold inSlot; rw [hd]

-- Accesses.

/-- What is performed does what its operation says. -/
theorem gated_performed (p : Port) (off : Nat) (f : State → State) (h : Performed s p off) : gated p off f s = f s := by
  obtain ⟨h1, h2, h3⟩ := h
  unfold gated
  cases p <;> simp_all

/-- An access: held, refused to the closed debug port, refused to HCP, or performed. -/
theorem gated_cases (p : Port) (off : Nat) (f : State → State) :
    (accessHeld s = true ∧ gated p off f s = setRdata s p 0) ∨
    (accessHeld s = false ∧ p = .dbg ∧ dbgOpen s = false ∧ gated p off f s = debugDenied s) ∨
    (accessHeld s = false ∧ p = .hcp ∧ scpOnly off = true ∧ gated p off f s = scpDenied s) ∨
    (Performed s p off ∧ gated p off f s = f s) := by
  unfold gated Performed
  cases p <;> cases hh : accessHeld s <;> cases hd : dbgOpen s <;> cases ho : scpOnly off <;> simp

/-- A performed access does what its operation says, and is acknowledged. -/
theorem access_performed (p : Port) (off : Nat) (f : State → State) (h : Performed s p off) :
    access p off f s = portAck p (f s) := by rw [access, gated_performed s p off f h]

/-- A held access reads 0. -/
theorem access_held (p : Port) (off : Nat) (f : State → State) (h : accessHeld s = true) :
    access p off f s = portAck p (setRdata s p 0) := by simp [access, gated, h]

/-- An acknowledgement changes the acknowledgements alone. -/
theorem portAck_frame (p : Port) : portAck p s = { s with mb := { s.mb with acks := (portAck p s).mb.acks } } := rfl

/-- An access to a unit that the tile has. -/
theorem accessUnit_there (p : Port) (off : Nat) (f : State → State) : accessUnit true p off f s = access p off f s := rfl

/-- A write that no write of its PCLK cycle must follow: its operation, and the note of it. -/
theorem inOrder_last (p : Port) (off : Nat) (val : W32) (f : State → State) (h : laterWrites s p off = []) :
    inOrder p off val f s = noteWrite p off val (!refuses f s) s (f s) := by simp [inOrder, h]

/-- Without an earlier write to the register in this PCLK cycle none must follow. -/
theorem laterWrites_alone (p : Port) (off : Nat) (h : Alone s off) : laterWrites s p off = [] := by
  simp only [Alone, List.any_eq_false] at h
  unfold laterWrites
  split
  · rfl
  · simp only [List.flatMap_eq_nil_iff]
    intro q _
    simp only [List.filter_eq_nil_iff]
    intro w hw
    have := h w hw
    simp_all

/-- The note of a write changes nothing but the record of the PCLK cycle. -/
theorem noteWrite_frame (p : Port) (off : Nat) (val : W32) (d : Bool) (u : State) :
    noteWrite p off val d s u = { u with cyc := (noteWrite p off val d s u).cyc } := rfl

/-- A write access that is performed alone. -/
theorem accessW_reached (p : Port) (off : Nat) (val : W32) (f : State → State) (h : Reached s p off) :
    accessW p off val f s = portAck p (noteWrite p off val (!refuses f s) s (f s)) := by
  rw [accessW, access_performed s p off _ h.1, inOrder_last s p off val f (laterWrites_alone s p off h.2)]

/-- A read access that is performed alone. -/
theorem accessR_reached (p : Port) (off : Nat) (f : State → State) (h : Reached s p off) : accessR p off f s = portAck p (f s) := by
  rw [accessR, access_performed s p off _ h.1]
  exact congrArg (portAck p) (if_neg (by simpa [Alone] using h.2))

-- Registers.

/-- The record of the tile's updates leaves the registers. -/
@[simp] theorem reg_tileUpd (o o' : Nat) (m : W32) : reg (tileUpd s o m) o' = reg s o' := by unfold tileUpd; split <;> rfl

/-- A register after a write. -/
@[simp] theorem reg_setReg (o o' : Nat) (v : W32) : reg (setReg s o v) o' = if o' = o then v else reg s o' := by
  simp [setReg]; simp [reg, putReg]

/-- A field write leaves every other register. -/
theorem reg_setRegF (o o' lo len v : Nat) (h : o' ≠ o) : reg (setRegF s o lo len v) o' = reg s o' := by
  simp [setRegF, h]

/-- A count leaves every other register. -/
theorem reg_incReg (o o' lo len : Nat) (h : o' ≠ o) : reg (incReg s o lo len) o' = reg s o' := by
  simp [incReg, addReg, setRegF, h]

/-- A register after sticky bits are set. -/
@[simp] theorem reg_orReg (o o' : Nat) (m : W32) : reg (orReg s o m) o' = if o' = o then reg s o ||| m else reg s o' := by
  simp [orReg]; simp [reg, putReg]

/-- The record of the tile's updates changes nothing else. -/
theorem tileUpd_frame (o : Nat) (m : W32) : tileUpd s o m = { s with cyc := (tileUpd s o m).cyc } := by
  unfold tileUpd; split <;> rfl

/-- A register write changes the registers and the record of the tile's updates. -/
theorem setReg_frame (o : Nat) (v : W32) :
    setReg s o v = { s with regs := (setReg s o v).regs, cyc := (setReg s o v).cyc } := by
  rw [setReg, tileUpd_frame]; rfl

-- Events.

/-- An event whose code is not reserved has a cause once it is raised. -/
theorem raise_caused (c a : Nat) (h : (evClass c).isSome = true) : Caused (raise s c a) c := by simp [Caused, raise, h]

/-- Raising an event adds causes and nothing else. -/
theorem raise_grows (c a : Nat) : EvGrows s (raise s c a) := by
  unfold raise EvGrows
  split
  · exact ⟨[(c, a % 65536)], rfl⟩
  · exact ⟨[], by simp⟩

/-- A cause stays where causes are added. -/
theorem EvGrows.keeps {t u : State} (h : EvGrows t u) (c : Nat) (ht : Caused t c) : Caused u c := by
  obtain ⟨l, hl⟩ := h
  simp only [Caused, hl, List.any_append, Bool.or_eq_true]
  exact .inl ht

/-- A reserved code raises nothing. -/
theorem raise_reserved (c a : Nat) (h : evClass c = none) : raise s c a = s := by simp [raise, h]

-- The accumulator's ports and writes.

/-- A read port is taken, or none is left and nothing changes. -/
theorem takeRead_cases (n : Nat) :
    (takeRead s n = (true, { s with acc := { s.acc with
        portSlot := s.clk.slot, reads := (if s.acc.portSlot = s.clk.slot then s.acc.reads else 0) + n } })) ∨
    takeRead s n = (false, s) := by
  unfold takeRead portsNow
  by_cases h : s.acc.portSlot = s.clk.slot
  · simp only [h, if_true]
    split
    · left; rw [← h]
    · right; rfl
  · simp only [h, if_false]
    split
    · left; rfl
    · right; rfl

/-- An entry after a write of an entry. -/
theorem accEntry_setEntry (r j r' j' : Nat) (v : W32) (hj : j < 128) (hj' : j' < 128) :
    accEntry (setEntry s r j v) r' j' = if r' = r ∧ j' = j then v else accEntry s r' j' := by
  simp only [accEntry, setEntry, mget_mset]
  by_cases h : r' = r ∧ j' = j
  · simp [h]
  · have : ¬ r' * 128 + j' = r * 128 + j := by omega
    simp [h, this]

/-- An entry after an entry is copied. -/
theorem accEntry_copyEntry (src dst j r' j' : Nat) (hj : j < 128) (hj' : j' < 128) :
    accEntry (copyEntry s src dst j) r' j' = if r' = dst ∧ j' = j then accEntry s src j else accEntry s r' j' := by
  simp only [accEntry, copyEntry, mget_mset]
  by_cases h : r' = dst ∧ j' = j
  · simp [h]
  · have : ¬ r' * 128 + j' = dst * 128 + j := by omega
    simp [h, this]

/-- A write put on its way waits behind the others, and nothing else changes. -/
theorem pushWrite_frame (w : AccWrite) : pushWrite s w = { s with acc := { s.acc with wq := s.acc.wq ++ [w] } } := rfl

/-- Metadata after a write of metadata. -/
@[simp] theorem accMeta_setMeta (r r' : Nat) (m : Meta) : accMeta (setMeta s r m) r' = if r' = r then m else accMeta s r' := by
  simp [accMeta, setMeta]

/-- A seam after a change of a seam. -/
@[simp] theorem seam_updSeam (k k' : Nat) (f : Seam → Seam) : seam (updSeam s k f) k' = if k' = k then f (seam s k) else seam s k' := by
  simp [seam, updSeam]

/-- A channel after a change of a channel. -/
@[simp] theorem chan_updChan (c c' : Nat) (f : Chan → Chan) : chan (updChan s c f) c' = if c' = c then f (chan s c) else chan s c' := by
  simp [chan, updChan]

/-- A ring after a write of a ring. -/
@[simp] theorem ringOf_setRing (n n' : Nat) (r : Ring) : ringOf (setRing s n r) n' = if n' = n then r else ringOf s n' := by
  simp [ringOf, setRing]

/-- A port after a change of a port. -/
theorem portOf_updPort (n n' : Nat) (f : LinkPort → LinkPort) :
    portOf (updPort s n f) n' = if n' = n ∧ n < s.fab.ports.length then f (portOf s n) else portOf s n' := by
  simp [portOf, updPort, lget_lupd]

/-- A group after a change of a group. -/
theorem grp_updGrp (k k' : Nat) (f : Group → Group) :
    grp (updGrp s k f) k' = if k' = k ∧ k < s.red.length then f (grp s k) else grp s k' := by
  simp [grp, updGrp, lget_lupd]

/-- A byte of the scratchpad after a byte is written. -/
@[simp] theorem spadByte_setSpadByte (a a' : Nat) (b : Byte) : spadByte (setSpadByte s a b) a' = if a' = a then b else spadByte s a' := by
  simp [spadByte, setSpadByte]

/-- A side-band word after one is written. -/
@[simp] theorem sideOf_setSide (k k' : Nat) (v : Side) : sideOf (setSide s k v) k' = if k' = k then v else sideOf s k' := by
  simp [sideOf, setSide]

-- Completion.

/-- A command of a mailbox completes there. -/
theorem complete_mbox (c : Cli) (m st res : Nat) (h : mboxOf c.o = some m) : complete s c st res = mboxDone s m st res := by
  simp [complete, h]

/-- A completion changes a mailbox's status and result, and its state, and nothing else. -/
theorem mboxDone_frame (m st res : Nat) :
    mboxDone s m st res = { s with
      regs := (mboxDone s m st res).regs, mb := (mboxDone s m st res).mb, cyc := (mboxDone s m st res).cyc } := by
  rw [mboxDone, setReg_frame (setReg s _ _), setReg_frame s]

/-- The registers that a completion leaves. -/
theorem mboxDone_regs (m st res o : Nat) (h : o ∉ mbRegs m) : reg (mboxDone s m st res) o = reg s o := by
  simp only [mbRegs, List.mem_cons, List.not_mem_nil, or_false, not_or] at h
  show reg (setReg (setReg s _ _) _ _) o = reg s o
  simp [h.1, h.2]

-- The first check that fails.

/-- Without a failing check a command goes on. -/
theorem firstFail_none (l : List (Bool × Nat)) (c : Cli) (f : State → State) (h : ∀ e ∈ l, e.1 = false) :
    firstFail l s c f = f s := by
  have : l.find? (·.1) = none := by rw [List.find?_eq_none]; intro x hx; simp [h x hx]
  simp [firstFail, this]

/-- The first failing check decides. -/
theorem firstFail_some (l r : List (Bool × Nat)) (n : Nat) (c : Cli) (f : State → State) (h : ∀ e ∈ l, e.1 = false) :
    firstFail (l ++ (true, n) :: r) s c f = complete s c n 0 := by
  have : l.find? (·.1) = none := by rw [List.find?_eq_none]; intro x hx; simp [h x hx]
  simp [firstFail, List.find?_append, this]

end Sys2Proof.Machine
end

