-- ==== Sys2Proof/Laws/Memory.lean ====
section
/-! SUPPORT. The scratchpad's memory keeps its canonical form: after reset it has it, and every operation over it keeps it. -/
namespace Sys2Proof.Machine

/-- The memory after reset has the form. -/
theorem memory_wf_reset : Memory.wf State.reset = true := by decide

/-- The form depends on nothing but the scratchpad's four tables. -/
theorem memory_wf_of_eq {s t : State} (h : Memory.wf s = true) (hd : t.spad.data = s.spad.data) (hs : t.spad.side = s.spad.side)
    (hf : t.spad.flips = s.spad.flips) (hc : t.spad.cls = s.spad.cls) : Memory.wf t = true := by
  simpa [Memory.wf, hd, hs, hf, hc] using h

/-- Equal scratchpads have it together. -/
theorem memory_wf_of_spad {s t : State} (h : Memory.wf s = true) (e : t.spad = s.spad) : Memory.wf t = true := by
  simpa [Memory.wf, e] using h

/-- A byte written. -/
theorem memory_wf_setSpadByte {s : State} (a : Nat) (b : Byte) (h : Memory.wf s = true) : Memory.wf (setSpadByte s a b) = true := by
  simp only [Memory.wf, Bool.and_eq_true] at h ⊢
  exact ⟨⟨⟨mwf_mset _ _ _ _ h.1.1.1, h.1.1.2⟩, h.1.2⟩, h.2⟩

/-- A side-band word written. -/
theorem memory_wf_setSide {s : State} (k : Nat) (v : Side) (h : Memory.wf s = true) : Memory.wf (setSide s k v) = true := by
  simp only [Memory.wf, Bool.and_eq_true] at h ⊢
  exact ⟨⟨⟨h.1.1.1, mwf_mset _ _ _ _ h.1.1.2⟩, h.1.2⟩, h.2⟩

/-- Stored wrong bits recorded. -/
theorem memory_wf_setFlips {s : State} (k : Nat) (f : W64) (h : Memory.wf s = true) : Memory.wf (setFlips s k f) = true := by
  simp only [Memory.wf, Bool.and_eq_true] at h ⊢
  exact ⟨⟨⟨h.1.1.1, h.1.1.2⟩, mwf_mset _ _ _ _ h.1.2⟩, h.2⟩

/-- An event raised. -/
theorem memory_wf_raise {s : State} (c a : Nat) (h : Memory.wf s = true) : Memory.wf (raise s c a) = true :=
  memory_wf_of_spad h (raise_spad s c a)

/-- The bytes of a sector written. -/
theorem memory_wf_putBytes {s : State} (sec : Nat) (d : BitVec 256) (h : Memory.wf s = true) : Memory.wf (putBytes s sec d) = true :=
  foldTo_keeps (fun u => Memory.wf u = true) _ (fun _ _ hu => memory_wf_setSpadByte _ _ hu) 32 s h

/-- The class of a word written. -/
theorem memory_wf_putClass {s : State} (wd : Nat) (h : Memory.wf s = true) : Memory.wf (putClass s wd) = true := by
  simp only [Memory.wf, putClass, Bool.and_eq_true] at h ⊢
  exact ⟨⟨⟨h.1.1.1, h.1.1.2⟩, mwf_mset _ _ _ _ h.1.2⟩, mwf_mset _ _ _ _ h.2⟩

/-- The transpose buffers looked at. -/
theorem memory_wf_putDone {s : State} (sec : Nat) (h : Memory.wf s = true) : Memory.wf (putDone s sec) = true :=
  memory_wf_of_eq h rfl rfl rfl rfl

/-- The classes of a sector's words written. -/
theorem memory_wf_putClasses {s : State} (sec : Nat) (h : Memory.wf s = true) : Memory.wf (putClasses s sec) = true :=
  foldTo_keeps (fun u => Memory.wf u = true) _ (fun _ _ hu => memory_wf_putClass _ hu) 4 s h

/-- A whole sector written. -/
theorem memory_wf_writeSector {s : State} (sec : Nat) (d : BitVec 256) (chk : Nat) (p : Bool) (h : Memory.wf s = true) :
    Memory.wf (writeSector s sec d chk p) = true := by
  unfold writeSector
  split
  · exact memory_wf_putDone sec (memory_wf_setSide sec _ (memory_wf_putClasses sec (memory_wf_putBytes sec d h)))
  · exact memory_wf_raise _ _ h

/-- A sector poisoned. -/
theorem memory_wf_poisonSector {s : State} (sec cls : Nat) (slotted : Bool) (h : Memory.wf s = true) :
    Memory.wf (poisonSector s sec cls slotted) = true := by
  unfold poisonSector
  simp only
  split
  · exact h
  · refine memory_wf_raise _ _ ?_
    have w := memory_wf_setSide sec { sideOf s sec with poison := true } h
    split <;> exact memory_wf_of_spad w (by simp [incReg, addReg, setRegF])

/-- A correction counted. -/
theorem memory_wf_countCorr {s : State} (cls : Nat) (h : Memory.wf s = true) : Memory.wf (countCorr s cls) = true := by
  unfold countCorr; split <;> exact memory_wf_of_spad h (by simp [incReg, addReg, setRegF])

/-- A correction made. -/
theorem memory_wf_corrected {s : State} (sec cls : Nat) (slotted : Bool) (h : Memory.wf s = true) :
    Memory.wf (corrected s sec cls slotted) = true := by
  have w : Memory.wf (touchLine (countCorr s cls) (sec / 2)) = true :=
    memory_wf_of_eq (memory_wf_countCorr cls h) rfl rfl rfl rfl
  unfold corrected
  simp only
  split
  · exact memory_wf_of_spad w rfl
  · exact w

/-- A word's bits turned. -/
theorem memory_wf_turnWord {s : State} (wd : Nat) (f : W64) (h : Memory.wf s = true) : Memory.wf (turnWord s wd f) = true :=
  foldTo_keeps (fun u => Memory.wf u = true) _ (fun _ _ hu => memory_wf_setSpadByte _ _ hu) 8 s h

/-- A word decoded. -/
theorem memory_wf_decodeWord {s : State} (wd : Nat) (slotted : Bool) (h : Memory.wf s = true) :
    Memory.wf (decodeWord s wd slotted) = true := by
  have fr : Memory.wf (useFree s).2 = true := memory_wf_of_spad h rfl
  unfold decodeWord
  simp only
  split
  · exact h
  · split
    · exact h
    · exact memory_wf_corrected _ _ _ (memory_wf_setFlips _ _ h)
    · exact memory_wf_poisonSector _ _ _ h
    · split
      · exact fr
      · exact memory_wf_corrected _ _ _ (memory_wf_turnWord _ _ (memory_wf_setFlips _ _ fr))
      · exact memory_wf_poisonSector _ _ _ fr

/-- A side-band word decoded. -/
theorem memory_wf_decodeSide {s : State} (sec : Nat) (slotted : Bool) (h : Memory.wf s = true) :
    Memory.wf (decodeSide s sec slotted) = true := by
  have fr : Memory.wf (useFree s).2 = true := memory_wf_of_spad h rfl
  unfold decodeSide
  simp only
  split
  · exact h
  · exact memory_wf_corrected _ _ _ (memory_wf_setSide _ _ h)
  · exact memory_wf_poisonSector _ _ _ h
  · split
    · exact fr
    · exact memory_wf_corrected _ _ _ (memory_wf_setSide _ _ fr)
    · exact memory_wf_poisonSector _ _ _ fr

/-- A sector's words decoded. -/
theorem memory_wf_decodeSector {s : State} (sec : Nat) (slotted : Bool) (h : Memory.wf s = true) :
    Memory.wf (decodeSector s sec slotted) = true :=
  foldTo_keeps (fun u => Memory.wf u = true) (fun i u => decodeWord u (4 * sec + i) slotted)
    (fun _ _ hu => memory_wf_decodeWord _ _ hu) 4 (decodeSide s sec slotted) (memory_wf_decodeSide _ _ h)

/-- A sector read. -/
theorem memory_wf_readSector {s : State} (sec : Nat) (slotted : Bool) (h : Memory.wf s = true) :
    Memory.wf (readSector s sec slotted).2 = true := by
  unfold readSector
  split
  · dsimp only; exact memory_wf_decodeSector sec slotted h
  · exact memory_wf_raise _ _ h

/-- A DMA access asks for its bank. -/
theorem memory_wf_touchDma {s : State} (sec : Nat) (h : Memory.wf s = true) : Memory.wf (touchDma s sec) = true :=
  memory_wf_of_eq h rfl rfl rfl rfl

/-- A slot-timed read touches its line. -/
theorem memory_wf_touchRead {s : State} (line : Nat) (h : Memory.wf s = true) : Memory.wf (touchRead s line) = true := by
  unfold touchRead; split
  · exact h
  · exact memory_wf_of_eq h rfl rfl rfl rfl

/-- A slot-timed write touches its line. -/
theorem memory_wf_touchWrite {s : State} (line : Nat) (h : Memory.wf s = true) : Memory.wf (touchWrite s line) = true :=
  memory_wf_of_eq h rfl rfl rfl rfl

/-- A DMA read. -/
theorem memory_wf_dmaRead {s : State} (sec : Nat) (h : Memory.wf s = true) : Memory.wf (dmaRead s sec).2 = true :=
  memory_wf_readSector _ _ (memory_wf_touchDma _ h)

/-- A DMA write. -/
theorem memory_wf_dmaWrite {s : State} (sec : Nat) (d : BitVec 256) (chk : Nat) (p : Bool) (h : Memory.wf s = true) :
    Memory.wf (dmaWrite s sec d chk p) = true := memory_wf_writeSector _ _ _ _ (memory_wf_touchDma _ h)

/-- DMA writes of consecutive sectors. -/
theorem memory_wf_dmaFreshBytes (n : Nat) (s : State) (sec : Nat) (bs : List Byte) (h : Memory.wf s = true) :
    Memory.wf (dmaFreshBytes s sec n bs) = true := by
  induction n generalizing s sec bs with
  | zero => exact h
  | succ n ih => exact ih _ _ _ (memory_wf_dmaWrite _ _ _ _ h)

/-- Writes of consecutive sectors with fresh checks. -/
theorem memory_wf_writeFreshBytes (n : Nat) (s : State) (sec : Nat) (bs : List Byte) (h : Memory.wf s = true) :
    Memory.wf (writeFreshBytes s sec n bs) = true := by
  induction n generalizing s sec bs with
  | zero => exact h
  | succ n ih => exact ih _ _ _ (memory_wf_writeSector _ _ _ _ h)

/-- A slot-timed read of a sector. -/
theorem memory_wf_slotRead {s : State} (sec : Nat) (h : Memory.wf s = true) : Memory.wf (slotRead s sec).2 = true := by
  unfold slotRead; split
  · exact memory_wf_readSector _ _ (memory_wf_touchRead _ h)
  · exact memory_wf_readSector _ _ h

/-- A slot-timed write waits for the end of its pair. -/
theorem memory_wf_slotWrite {s : State} (uid pos sec : Nat) (d : BitVec 256) (h : Memory.wf s = true) :
    Memory.wf (slotWrite s uid pos sec d) = true :=
  memory_wf_of_eq h rfl rfl rfl rfl

/-- A fold of operations that keep the form keeps it. -/
theorem memory_wf_eachS {α : Type} (f : α → State → State) (hf : ∀ a u, Memory.wf u = true → Memory.wf (f a u) = true) (l : List α)
    (s : State) (h : Memory.wf s = true) : Memory.wf (eachS l f s) = true := by
  unfold eachS
  induction l generalizing s with
  | nil => exact h
  | cons a r ih => exact ih _ (hf a s h)

/-- The end of a slot pair: the writes take their places. -/
theorem memory_wf_pairEnd {s : State} (h : Memory.wf s = true) : Memory.wf (pairEnd s) = true := by
  have w := memory_wf_eachS (fun w u => writeSector u w.sec w.data w.check w.poison)
    (fun w u hu => memory_wf_writeSector _ _ _ _ hu) s.spad.arb.wr s h
  exact memory_wf_of_eq w rfl rfl rfl rfl

/-- Bytes from an address on forgotten, when the cache area changes. -/
theorem memory_wf_spadForget {s : State} (a : Nat) (h : Memory.wf s = true) : Memory.wf (spadForget s a) = true := by
  simp only [Memory.wf, Bool.and_eq_true] at h ⊢
  exact ⟨⟨⟨mwf_mclear _ _ _ _ h.1.1.1, mwf_mclear _ _ _ _ h.1.1.2⟩, mwf_mclear _ _ _ _ h.1.2⟩, mwf_mclear _ _ _ _ h.2⟩

-- What is read after a write.

/-- After a whole sector is written, its bytes are the data's. -/
theorem spadByte_foldTo_setSpadByte (n : Nat) (s : State) (base : Nat) (f : Nat → Byte) (a : Nat) :
    spadByte (foldTo n (fun i u => setSpadByte u (base + i) (f i)) s) a =
      if base ≤ a ∧ a < base + n then f (a - base) else spadByte s a := by
  unfold foldTo natsTo
  suffices h : ∀ lo (u : State), spadByte ((natsFrom lo n).foldl (fun u i => setSpadByte u (base + i) (f i)) u) a =
      if base + lo ≤ a ∧ a < base + lo + n then f (a - base) else spadByte u a by simpa using h 0 s
  induction n with
  | zero => intro lo u; rw [natsFrom, List.foldl_nil, if_neg (by omega)]
  | succ n ih =>
    intro lo u
    simp only [natsFrom, List.foldl_cons, ih (lo + 1), spadByte_setSpadByte]
    by_cases h1 : a = base + lo
    · subst h1
      have : ¬ (base + (lo + 1) ≤ base + lo ∧ base + lo < base + (lo + 1) + n) := by omega
      have h2 : base + lo - base = lo := by omega
      simp [h2]
    · by_cases h2 : base + lo ≤ a ∧ a < base + lo + (n + 1)
      · have : base + (lo + 1) ≤ a ∧ a < base + (lo + 1) + n := by omega
        simp [this, h2]
      · have : ¬ (base + (lo + 1) ≤ a ∧ a < base + (lo + 1) + n) := by omega
        simp [this, h2, h1]

end Sys2Proof.Machine
end

