-- ==== Sys2Proof/WellFormed.lean ====
section
/-! DEFINITION. The commands that the tile's pins and units can spell: every operand within the width the manual gives it. -/
namespace Sys2Proof

/-- An offset that a control port can put on its address pins: a word of the 64 KiB register window (R435). -/
def offOk (off : Nat) : Bool := decide (off < 65536) && off % 4 == 0
/-- A port and the CR field of a control flit (R309). -/
def ctlOk (n cr : Nat) : Bool := decide (n < 6) && decide (cr < 4)
/-- A barrier message: its flit, its sender and its destination (R327). -/
def barOk (n cr src dst : Nat) : Bool := ctlOk n cr && decide (src < 256) && decide (dst < 256)
/-- A mode's fields (R327). -/
def modeOk (m : ModeWord) : Bool := decide (m.rnd < 4) && decide (m.pepoch < 256) && decide (m.user < 65536)
/-- One end of a link as a message names it (R322). -/
def linkOk (l : LinkEnd) : Bool := decide (l.tile < 256) && decide (l.port < 8) && decide (l.peer < 256) && decide (l.peerPort < 8)
/-- The virtual channel of a flit (R309). -/
def vcOf (f : Flit) : Nat := fieldN f.side 30 2
/-- A head flit on VC0 or VC1 at a port (R309, R314). -/
def headOk (n : Nat) (f : Flit) : Bool := decide (n < 6) && decide (vcOf f < 2) && bitB f.side 27
/-- Data flits that follow a head on its channel (R309, R314): at most 64. -/
def bodyOk (head : Flit) (body : List Flit) : Bool :=
  decide (body.length ≤ 64) && body.all fun f => vcOf f == vcOf head && !bitB f.side 27

/-- Whether every operand of a command is within its width. -/
def Instr.wf (i : Instr) : Bool :=
  match i with
  | .arm _ _ => true
  | .chStop _ _ => true
  | .chResume _ _ => true
  | .chAbort _ _ => true
  | .ringSet _ _ => true
  | .bind _ _ => true
  | .evict _ _ => true
  | .reload _ _ => true
  | .zero _ _ => true
  | .accept _ _ => true
  | .seamClose _ _ => true
  | .run _ _ => true
  | .halt _ _ => true
  | .benchStop _ _ => true
  | .benchResume _ _ => true
  | .benchAbort _ _ => true
  | .store _ _ => true
  | .fetch _ _ => true
  | .modeChange _ _ => true
  | .resurvey _ _ => true
  | .reduceRound _ _ => true
  | .openExport _ _ => true
  | .openImport _ _ => true
  | .windowClose _ _ => true
  | .reset _ _ => true
  | .dbgPeek _ _ => true
  | .dbgPoke _ _ => true
  | .remoteCommand _ => true
  | .regWrite _ off _ => offOk off
  | .scpOnlyDenied off _ => offOk off
  | .debugPortDenied off _ => offOk off
  | .lifecycleChange lc => decide (lc < 4)
  | .clrCsumCount _ => true
  | .accMetaLoRead _ => true
  | .gpTblDataAccess _ _ => true
  | .swapSig _ => true
  | .swapTanh _ => true
  | .vecRcpDataLoAccess _ _ => true
  | .vecRcpDataHiAccess _ _ => true
  | .recipeArm _ _ => true
  | .recipeRetire _ _ => true
  | .clrRuns _ => true
  | .clrDrop _ => true
  | .clrChunks _ => true
  | .clrSpoiled _ => true
  | .sfuTblDataAccess _ _ => true
  | .sfuSwap _ _ => true
  | .sfuUcDataAccess _ _ => true
  | .clrClamps _ => true
  | .benchPramDataAccess _ _ => true
  | .benchClrCounts _ => true
  | .spadRegionWrite _ n _ => decide (n < 16)
  | .spadCacheWrite _ _ => true
  | .cacheInv _ => true
  | .spadClrCounts _ => true
  | .chBellAdd _ c _ => decide (c < 128)
  | .overcommitWrite _ _ => true
  | .reopen _ => true
  | .mempClrCounts _ => true
  | .fabClrCounts _ => true
  | .modeMembersWrite _ k _ => decide (k < 6)
  | .redClrCounts _ k => decide (k < 2)
  | .gateWrite _ _ => true
  | .clkDumpGo _ _ => true
  | .untrimFull _ => true
  | .untrimMed _ => true
  | .clkClrCounts _ => true
  | .supClr _ => true
  | .wdogKick _ _ => true
  | .wdogCtrlWrite _ _ => true
  | .rstCtrlWrite _ _ => true
  | .rstClrCounts _ => true
  | .evtPendWrite _ k _ => decide (k < 4)
  | .clrLog _ => true
  | .evtLogLoRead _ => true
  | .evtLogHiRead _ => true
  | .perfLoRead _ c => decide (c < 7)
  | .clrChecks _ => true
  | .clrFreeze _ => true
  | .porAssert => true
  | .porDeassert => true
  | .resetAssert => true
  | .resetRelease imgBase slot => decide (imgBase < 2 ^ 36) && decide (slot < 256)
  | .unitIdleAck => true
  | .unitIdleTimeout => true
  | .unitResetRelease => true
  | .wdogWarn => true
  | .wdogExpire => true
  | .fuseReadDone _ => true
  | .lightTrimDone codes => decide (codes.length = 16)
  | .imageCheckDone => true
  | .overlayScanDone => true
  | .loadPassDone => true
  | .memRequestIssue => true
  | .memReadBeat tag _ status _ => decide (tag < 2048) && decide (status < 4)
  | .memWriteResponse tag status => decide (tag < 2048) && decide (status < 4)
  | .memTimeout slot => decide (slot < 96)
  | .chWaitEnd c => decide (c < 128)
  | .deadlockBreak => true
  | .dmaWin bank => decide (bank < 32)
  | .windowRequestCheck n => decide (n < 7)
  | .exportCloseEffect w => decide (w < 16)
  | .windowFailResponse => true
  | .landingWrite n => decide (n < 7)
  | .landingWriteRelease n => decide (n < 7)
  | .benchStart => true
  | .recordFinish _ pos => decide (pos < 32)
  | .runCheckDone => true
  | .arrayRecord => true
  | .derrickRecord => true
  | .drainRecord => true
  | .gateRecord => true
  | .scanRecord => true
  | .vectorRecord => true
  | .progStart => true
  | .progLoop => true
  | .endloop => true
  | .cntset => true
  | .tdset => true
  | .tdadd => true
  | .progEnd => true
  | .freezeEnd => true
  | .freezeLong => true
  | .wavefrontIssue _ pos => decide (pos < 32)
  | .wavefrontWritePort => true
  | .csumCompare => true
  | .derrickRow _ pos => decide (pos < 32)
  | .drainRead _ pos => decide (pos < 32)
  | .gateParamRead _ pos => decide (pos < 32)
  | .gateStreamStart _ pos => decide (pos < 32)
  | .gateCommit _ pos => decide (pos < 32)
  | .scanParamRead _ pos => decide (pos < 32)
  | .scanChunkDispatch _ pos => decide (pos < 32)
  | .scanStep _ pos => decide (pos < 32)
  | .scanCommit _ pos => decide (pos < 32)
  | .sfuResult => true
  | .recipeCheckDone => true
  | .recipeStart _ pos => decide (pos < 32)
  | .recipeEnd => true
  | .nop => true
  | .recipeLoop => true
  | .setvl => true
  | .vcommit => true
  | .vld => true
  | .vst => true
  | .vmov => true
  | .vsel => true
  | .vaddi => true
  | .vsubi => true
  | .vmuli => true
  | .vmini => true
  | .vmaxi => true
  | .vsra => true
  | .vshl => true
  | .vand => true
  | .vor => true
  | .vxor => true
  | .vadd => true
  | .vsub => true
  | .vmul => true
  | .vfma => true
  | .vmin => true
  | .vmax => true
  | .vabs => true
  | .vneg => true
  | .vcvtfi => true
  | .vcvtif => true
  | .vrnd => true
  | .vrmaxf => true
  | .vcmpi => true
  | .vcmpf => true
  | .mand => true
  | .mor => true
  | .mxor => true
  | .mnot => true
  | .mcnt => true
  | .mflg => true
  | .mfclr => true
  | .vcprs => true
  | .vexpd => true
  | .vrsumi => true
  | .vrmaxi => true
  | .vrsumf => true
  | .vsfu => true
  | .read n head => headOk n head
  | .write n head body => headOk n head && bodyOk head body
  | .cmd n head => headOk n head
  | .readData n head body => headOk n head && bodyOk head body
  | .writeAck n head => headOk n head
  | .cmdDone n head => headOk n head
  | .idle n cr => ctlOk n cr
  | .hello n cr id port => ctlOk n cr && decide (id < 256) && decide (port < 8)
  | .tree n cr root depth sender _ => ctlOk n cr && decide (root < 256) && decide (depth < 256) && decide (sender < 256)
  | .report n cr id links => ctlOk n cr && decide (id < 256) && links.all linkOk
  | .topo n cr links tiles dups => ctlOk n cr && links.all linkOk && tiles.all (fun x => decide (x < 256)) && dups.all (fun x => decide (x < 256))
  | .resyncReq n cr => ctlOk n cr
  | .resyncAck n cr c0 c1 c2 => ctlOk n cr && decide (c0 ≤ 32) && decide (c1 ≤ 32) && decide (c2 ≤ 32)
  | .linkReset n cr => ctlOk n cr
  | .prepare n cr src dst e e1 m => barOk n cr src dst && decide (e < 256) && decide (e1 < 256) && modeOk m
  | .barrierAck n cr src dst => barOk n cr src dst
  | .barrierNak n cr src dst => barOk n cr src dst
  | .commit n cr src dst e1 => barOk n cr src dst && decide (e1 < 256)
  | .barrierAbort n cr src dst => barOk n cr src dst
  | .barrierDone n cr src dst => barOk n cr src dst
  | .barrierTimeout => true
  | .commitResend => true
  | .helloTimer => true
  | .helloPhaseEnd => true
  | .treePhaseEnd => true
  | .linkTimeout n => decide (n < 6)
  | .reqTimeout tag => decide (tag < 256)
  | .sumFlit n fl => decide (n < 6) && decide (vcOf fl = 2)
  | .sumPassStart k b => decide (k < 2) && decide (b < 2048)
  | .paramPassStart k b => decide (k < 2) && decide (b < 2048)
  | .paramFlit n fl => decide (n < 6) && decide (vcOf fl = 2)
  | .reduceTimeout k => decide (k < 2)
  | .activityWindowEnd => true
  | .retrimSensorDone _ => true
  | .droopDetect sensor => decide (sensor < 16)
  | .gateEnter => true
  | .wake => true
  | .wakeDone => true
  | .guardEnterLow => true
  | .guardEnterRecover => true
  | .guardDwellLost => true
  | .guardEnterOk => true
  | .supplyResetTrip => true
  | .storePhaseDone => true
  | .fetchDone => true
  | .clkDumpDone => true
  | .logWrite => true
  | .blockFormed k => decide (k < 2)
  | .cacheHitDelivery c => decide (c < 128)
  | .droopClear sensor => decide (sensor < 16)
  | .svLevelSample lv => decide (lv < 256)
  | .evtPulseEnd => true
  | .reservedItem => true
  | .reservedCtypeFlit n cr ctype => ctlOk n cr && decide (9 ≤ ctype) && decide (ctype < 16)

/-- Well-formed commands. -/
abbrev WellFormed (i : Instr) : Prop := i.wf = true

end Sys2Proof
end

