-- ==== Sys2Proof/Laws/PerInstr.lean ====
section
/-! SUPPORT. A statement about every command as syntax, one lemma for each constructor: the link port that a well-formed command
names is one of the six. -/
namespace Sys2Proof.Laws.F
open Sys2Proof

/-- The link port that a command arrives at, if it is an event of a link (R308). -/
def linkOf (i : Instr) : Option Nat :=
  match i with
  | .read n _ => some n
  | .write n _ _ => some n
  | .cmd n _ => some n
  | .readData n _ _ => some n
  | .writeAck n _ => some n
  | .cmdDone n _ => some n
  | .idle n _ => some n
  | .hello n _ _ _ => some n
  | .tree n _ _ _ _ _ => some n
  | .report n _ _ _ => some n
  | .topo n _ _ _ _ => some n
  | .resyncReq n _ => some n
  | .resyncAck n _ _ _ _ => some n
  | .linkReset n _ => some n
  | .prepare n _ _ _ _ _ _ => some n
  | .barrierAck n _ _ _ => some n
  | .barrierNak n _ _ _ => some n
  | .commit n _ _ _ _ => some n
  | .barrierAbort n _ _ _ => some n
  | .barrierDone n _ _ _ => some n
  | .linkTimeout n => some n
  | .sumFlit n _ => some n
  | .paramFlit n _ => some n
  | .reservedCtypeFlit n _ _ => some n
  | _ => none

/-- The port that a well-formed command names is one of the tile's six. -/
def Statement (i : Instr) : Prop := WellFormed i → ∀ n, linkOf i = some n → n < 6

theorem arm (o : Origin) (w : CmdWords) : Statement (.arm o w) := fun _ _ h => nomatch h
theorem chStop (o : Origin) (w : CmdWords) : Statement (.chStop o w) := fun _ _ h => nomatch h
theorem chResume (o : Origin) (w : CmdWords) : Statement (.chResume o w) := fun _ _ h => nomatch h
theorem chAbort (o : Origin) (w : CmdWords) : Statement (.chAbort o w) := fun _ _ h => nomatch h
theorem ringSet (o : Origin) (w : CmdWords) : Statement (.ringSet o w) := fun _ _ h => nomatch h
theorem bind (o : Origin) (w : CmdWords) : Statement (.bind o w) := fun _ _ h => nomatch h
theorem evict (o : Origin) (w : CmdWords) : Statement (.evict o w) := fun _ _ h => nomatch h
theorem reload (o : Origin) (w : CmdWords) : Statement (.reload o w) := fun _ _ h => nomatch h
theorem zero (o : Origin) (w : CmdWords) : Statement (.zero o w) := fun _ _ h => nomatch h
theorem accept (o : Origin) (w : CmdWords) : Statement (.accept o w) := fun _ _ h => nomatch h
theorem seamClose (o : Origin) (w : CmdWords) : Statement (.seamClose o w) := fun _ _ h => nomatch h
theorem run (o : Origin) (w : CmdWords) : Statement (.run o w) := fun _ _ h => nomatch h
theorem halt (o : Origin) (w : CmdWords) : Statement (.halt o w) := fun _ _ h => nomatch h
theorem benchStop (o : Origin) (w : CmdWords) : Statement (.benchStop o w) := fun _ _ h => nomatch h
theorem benchResume (o : Origin) (w : CmdWords) : Statement (.benchResume o w) := fun _ _ h => nomatch h
theorem benchAbort (o : Origin) (w : CmdWords) : Statement (.benchAbort o w) := fun _ _ h => nomatch h
theorem store (o : Origin) (w : CmdWords) : Statement (.store o w) := fun _ _ h => nomatch h
theorem fetch (o : Origin) (w : CmdWords) : Statement (.fetch o w) := fun _ _ h => nomatch h
theorem modeChange (o : Origin) (w : CmdWords) : Statement (.modeChange o w) := fun _ _ h => nomatch h
theorem resurvey (o : Origin) (w : CmdWords) : Statement (.resurvey o w) := fun _ _ h => nomatch h
theorem reduceRound (o : Origin) (w : CmdWords) : Statement (.reduceRound o w) := fun _ _ h => nomatch h
theorem openExport (o : Origin) (w : CmdWords) : Statement (.openExport o w) := fun _ _ h => nomatch h
theorem openImport (o : Origin) (w : CmdWords) : Statement (.openImport o w) := fun _ _ h => nomatch h
theorem windowClose (o : Origin) (w : CmdWords) : Statement (.windowClose o w) := fun _ _ h => nomatch h
theorem reset (o : Origin) (w : CmdWords) : Statement (.reset o w) := fun _ _ h => nomatch h
theorem dbgPeek (o : Origin) (w : CmdWords) : Statement (.dbgPeek o w) := fun _ _ h => nomatch h
theorem dbgPoke (o : Origin) (w : CmdWords) : Statement (.dbgPoke o w) := fun _ _ h => nomatch h
theorem remoteCommand (w : CmdWords) : Statement (.remoteCommand w) := fun _ _ h => nomatch h
theorem regWrite (p : Port) (off : Nat) (val : W32) : Statement (.regWrite p off val) := fun _ _ h => nomatch h
theorem scpOnlyDenied (off : Nat) (we : Bool) : Statement (.scpOnlyDenied off we) := fun _ _ h => nomatch h
theorem debugPortDenied (off : Nat) (we : Bool) : Statement (.debugPortDenied off we) := fun _ _ h => nomatch h
theorem lifecycleChange (lc : Nat) : Statement (.lifecycleChange lc) := fun _ _ h => nomatch h
theorem clrCsumCount (p : Port) : Statement (.clrCsumCount p) := fun _ _ h => nomatch h
theorem accMetaLoRead (p : Port) : Statement (.accMetaLoRead p) := fun _ _ h => nomatch h
theorem gpTblDataAccess (p : Port) (wr : Option W32) : Statement (.gpTblDataAccess p wr) := fun _ _ h => nomatch h
theorem swapSig (p : Port) : Statement (.swapSig p) := fun _ _ h => nomatch h
theorem swapTanh (p : Port) : Statement (.swapTanh p) := fun _ _ h => nomatch h
theorem vecRcpDataLoAccess (p : Port) (wr : Option W32) : Statement (.vecRcpDataLoAccess p wr) := fun _ _ h => nomatch h
theorem vecRcpDataHiAccess (p : Port) (wr : Option W32) : Statement (.vecRcpDataHiAccess p wr) := fun _ _ h => nomatch h
theorem recipeArm (p : Port) (val : W32) : Statement (.recipeArm p val) := fun _ _ h => nomatch h
theorem recipeRetire (p : Port) (val : W32) : Statement (.recipeRetire p val) := fun _ _ h => nomatch h
theorem clrRuns (p : Port) : Statement (.clrRuns p) := fun _ _ h => nomatch h
theorem clrDrop (p : Port) : Statement (.clrDrop p) := fun _ _ h => nomatch h
theorem clrChunks (p : Port) : Statement (.clrChunks p) := fun _ _ h => nomatch h
theorem clrSpoiled (p : Port) : Statement (.clrSpoiled p) := fun _ _ h => nomatch h
theorem sfuTblDataAccess (p : Port) (wr : Option W32) : Statement (.sfuTblDataAccess p wr) := fun _ _ h => nomatch h
theorem sfuSwap (p : Port) (val : W32) : Statement (.sfuSwap p val) := fun _ _ h => nomatch h
theorem sfuUcDataAccess (p : Port) (wr : Option W32) : Statement (.sfuUcDataAccess p wr) := fun _ _ h => nomatch h
theorem clrClamps (p : Port) : Statement (.clrClamps p) := fun _ _ h => nomatch h
theorem benchPramDataAccess (p : Port) (wr : Option W32) : Statement (.benchPramDataAccess p wr) := fun _ _ h => nomatch h
theorem benchClrCounts (p : Port) : Statement (.benchClrCounts p) := fun _ _ h => nomatch h
theorem spadRegionWrite (p : Port) (n : Nat) (val : W32) : Statement (.spadRegionWrite p n val) := fun _ _ h => nomatch h
theorem spadCacheWrite (p : Port) (val : W32) : Statement (.spadCacheWrite p val) := fun _ _ h => nomatch h
theorem cacheInv (p : Port) : Statement (.cacheInv p) := fun _ _ h => nomatch h
theorem spadClrCounts (p : Port) : Statement (.spadClrCounts p) := fun _ _ h => nomatch h
theorem chBellAdd (p : Port) (c : Nat) (val : W32) : Statement (.chBellAdd p c val) := fun _ _ h => nomatch h
theorem overcommitWrite (p : Port) (val : W32) : Statement (.overcommitWrite p val) := fun _ _ h => nomatch h
theorem reopen (p : Port) : Statement (.reopen p) := fun _ _ h => nomatch h
theorem mempClrCounts (p : Port) : Statement (.mempClrCounts p) := fun _ _ h => nomatch h
theorem fabClrCounts (p : Port) : Statement (.fabClrCounts p) := fun _ _ h => nomatch h
theorem modeMembersWrite (p : Port) (k : Nat) (val : W32) : Statement (.modeMembersWrite p k val) := fun _ _ h => nomatch h
theorem redClrCounts (p : Port) (k : Nat) : Statement (.redClrCounts p k) := fun _ _ h => nomatch h
theorem gateWrite (p : Port) (val : W32) : Statement (.gateWrite p val) := fun _ _ h => nomatch h
theorem clkDumpGo (p : Port) (val : W32) : Statement (.clkDumpGo p val) := fun _ _ h => nomatch h
theorem untrimFull (p : Port) : Statement (.untrimFull p) := fun _ _ h => nomatch h
theorem untrimMed (p : Port) : Statement (.untrimMed p) := fun _ _ h => nomatch h
theorem clkClrCounts (p : Port) : Statement (.clkClrCounts p) := fun _ _ h => nomatch h
theorem supClr (p : Port) : Statement (.supClr p) := fun _ _ h => nomatch h
theorem wdogKick (p : Port) (val : W32) : Statement (.wdogKick p val) := fun _ _ h => nomatch h
theorem wdogCtrlWrite (p : Port) (val : W32) : Statement (.wdogCtrlWrite p val) := fun _ _ h => nomatch h
theorem rstCtrlWrite (p : Port) (val : W32) : Statement (.rstCtrlWrite p val) := fun _ _ h => nomatch h
theorem rstClrCounts (p : Port) : Statement (.rstClrCounts p) := fun _ _ h => nomatch h
theorem evtPendWrite (p : Port) (k : Nat) (val : W32) : Statement (.evtPendWrite p k val) := fun _ _ h => nomatch h
theorem clrLog (p : Port) : Statement (.clrLog p) := fun _ _ h => nomatch h
theorem evtLogLoRead (p : Port) : Statement (.evtLogLoRead p) := fun _ _ h => nomatch h
theorem evtLogHiRead (p : Port) : Statement (.evtLogHiRead p) := fun _ _ h => nomatch h
theorem perfLoRead (p : Port) (c : Nat) : Statement (.perfLoRead p c) := fun _ _ h => nomatch h
theorem clrChecks (p : Port) : Statement (.clrChecks p) := fun _ _ h => nomatch h
theorem clrFreeze (p : Port) : Statement (.clrFreeze p) := fun _ _ h => nomatch h
theorem porAssert : Statement .porAssert := fun _ _ h => nomatch h
theorem porDeassert : Statement .porDeassert := fun _ _ h => nomatch h
theorem resetAssert : Statement .resetAssert := fun _ _ h => nomatch h
theorem resetRelease (imgBase : Nat) (slot : Nat) : Statement (.resetRelease imgBase slot) := fun _ _ h => nomatch h
theorem unitIdleAck : Statement .unitIdleAck := fun _ _ h => nomatch h
theorem unitIdleTimeout : Statement .unitIdleTimeout := fun _ _ h => nomatch h
theorem unitResetRelease : Statement .unitResetRelease := fun _ _ h => nomatch h
theorem wdogWarn : Statement .wdogWarn := fun _ _ h => nomatch h
theorem wdogExpire : Statement .wdogExpire := fun _ _ h => nomatch h
theorem fuseReadDone (map : BitVec 1024) : Statement (.fuseReadDone map) := fun _ _ h => nomatch h
theorem lightTrimDone (codes : List W32) : Statement (.lightTrimDone codes) := fun _ _ h => nomatch h
theorem imageCheckDone : Statement .imageCheckDone := fun _ _ h => nomatch h
theorem overlayScanDone : Statement .overlayScanDone := fun _ _ h => nomatch h
theorem loadPassDone : Statement .loadPassDone := fun _ _ h => nomatch h
theorem memRequestIssue : Statement .memRequestIssue := fun _ _ h => nomatch h
theorem memReadBeat (tag : Nat) (data : BitVec 512) (status : Nat) (last : Bool) : Statement (.memReadBeat tag data status last) := fun _ _ h => nomatch h
theorem memWriteResponse (tag : Nat) (status : Nat) : Statement (.memWriteResponse tag status) := fun _ _ h => nomatch h
theorem memTimeout (slot : Nat) : Statement (.memTimeout slot) := fun _ _ h => nomatch h
theorem chWaitEnd (c : Nat) : Statement (.chWaitEnd c) := fun _ _ h => nomatch h
theorem deadlockBreak : Statement .deadlockBreak := fun _ _ h => nomatch h
theorem dmaWin (bank : Nat) : Statement (.dmaWin bank) := fun _ _ h => nomatch h
theorem windowRequestCheck (n : Nat) : Statement (.windowRequestCheck n) := fun _ _ h => nomatch h
theorem exportCloseEffect (w : Nat) : Statement (.exportCloseEffect w) := fun _ _ h => nomatch h
theorem windowFailResponse : Statement .windowFailResponse := fun _ _ h => nomatch h
theorem landingWrite (n : Nat) : Statement (.landingWrite n) := fun _ _ h => nomatch h
theorem landingWriteRelease (n : Nat) : Statement (.landingWriteRelease n) := fun _ _ h => nomatch h
theorem benchStart : Statement .benchStart := fun _ _ h => nomatch h
theorem recordFinish (b : Nat) (pos : Nat) : Statement (.recordFinish b pos) := fun _ _ h => nomatch h
theorem runCheckDone : Statement .runCheckDone := fun _ _ h => nomatch h
theorem arrayRecord : Statement .arrayRecord := fun _ _ h => nomatch h
theorem derrickRecord : Statement .derrickRecord := fun _ _ h => nomatch h
theorem drainRecord : Statement .drainRecord := fun _ _ h => nomatch h
theorem gateRecord : Statement .gateRecord := fun _ _ h => nomatch h
theorem scanRecord : Statement .scanRecord := fun _ _ h => nomatch h
theorem vectorRecord : Statement .vectorRecord := fun _ _ h => nomatch h
theorem progStart : Statement .progStart := fun _ _ h => nomatch h
theorem progLoop : Statement .progLoop := fun _ _ h => nomatch h
theorem endloop : Statement .endloop := fun _ _ h => nomatch h
theorem cntset : Statement .cntset := fun _ _ h => nomatch h
theorem tdset : Statement .tdset := fun _ _ h => nomatch h
theorem tdadd : Statement .tdadd := fun _ _ h => nomatch h
theorem progEnd : Statement .progEnd := fun _ _ h => nomatch h
theorem freezeEnd : Statement .freezeEnd := fun _ _ h => nomatch h
theorem freezeLong : Statement .freezeLong := fun _ _ h => nomatch h
theorem wavefrontIssue (b : Nat) (pos : Nat) : Statement (.wavefrontIssue b pos) := fun _ _ h => nomatch h
theorem wavefrontWritePort : Statement .wavefrontWritePort := fun _ _ h => nomatch h
theorem csumCompare : Statement .csumCompare := fun _ _ h => nomatch h
theorem derrickRow (b : Nat) (pos : Nat) : Statement (.derrickRow b pos) := fun _ _ h => nomatch h
theorem drainRead (b : Nat) (pos : Nat) : Statement (.drainRead b pos) := fun _ _ h => nomatch h
theorem gateParamRead (b : Nat) (pos : Nat) : Statement (.gateParamRead b pos) := fun _ _ h => nomatch h
theorem gateStreamStart (b : Nat) (pos : Nat) : Statement (.gateStreamStart b pos) := fun _ _ h => nomatch h
theorem gateCommit (b : Nat) (pos : Nat) : Statement (.gateCommit b pos) := fun _ _ h => nomatch h
theorem scanParamRead (b : Nat) (pos : Nat) : Statement (.scanParamRead b pos) := fun _ _ h => nomatch h
theorem scanChunkDispatch (b : Nat) (pos : Nat) : Statement (.scanChunkDispatch b pos) := fun _ _ h => nomatch h
theorem scanStep (b : Nat) (pos : Nat) : Statement (.scanStep b pos) := fun _ _ h => nomatch h
theorem scanCommit (b : Nat) (pos : Nat) : Statement (.scanCommit b pos) := fun _ _ h => nomatch h
theorem sfuResult : Statement .sfuResult := fun _ _ h => nomatch h
theorem recipeCheckDone : Statement .recipeCheckDone := fun _ _ h => nomatch h
theorem recipeStart (b : Nat) (pos : Nat) : Statement (.recipeStart b pos) := fun _ _ h => nomatch h
theorem recipeEnd : Statement .recipeEnd := fun _ _ h => nomatch h
theorem nop : Statement .nop := fun _ _ h => nomatch h
theorem recipeLoop : Statement .recipeLoop := fun _ _ h => nomatch h
theorem setvl : Statement .setvl := fun _ _ h => nomatch h
theorem vcommit : Statement .vcommit := fun _ _ h => nomatch h
theorem vld : Statement .vld := fun _ _ h => nomatch h
theorem vst : Statement .vst := fun _ _ h => nomatch h
theorem vmov : Statement .vmov := fun _ _ h => nomatch h
theorem vsel : Statement .vsel := fun _ _ h => nomatch h
theorem vaddi : Statement .vaddi := fun _ _ h => nomatch h
theorem vsubi : Statement .vsubi := fun _ _ h => nomatch h
theorem vmuli : Statement .vmuli := fun _ _ h => nomatch h
theorem vmini : Statement .vmini := fun _ _ h => nomatch h
theorem vmaxi : Statement .vmaxi := fun _ _ h => nomatch h
theorem vsra : Statement .vsra := fun _ _ h => nomatch h
theorem vshl : Statement .vshl := fun _ _ h => nomatch h
theorem vand : Statement .vand := fun _ _ h => nomatch h
theorem vor : Statement .vor := fun _ _ h => nomatch h
theorem vxor : Statement .vxor := fun _ _ h => nomatch h
theorem vadd : Statement .vadd := fun _ _ h => nomatch h
theorem vsub : Statement .vsub := fun _ _ h => nomatch h
theorem vmul : Statement .vmul := fun _ _ h => nomatch h
theorem vfma : Statement .vfma := fun _ _ h => nomatch h
theorem vmin : Statement .vmin := fun _ _ h => nomatch h
theorem vmax : Statement .vmax := fun _ _ h => nomatch h
theorem vabs : Statement .vabs := fun _ _ h => nomatch h
theorem vneg : Statement .vneg := fun _ _ h => nomatch h
theorem vcvtfi : Statement .vcvtfi := fun _ _ h => nomatch h
theorem vcvtif : Statement .vcvtif := fun _ _ h => nomatch h
theorem vrnd : Statement .vrnd := fun _ _ h => nomatch h
theorem vrmaxf : Statement .vrmaxf := fun _ _ h => nomatch h
theorem vcmpi : Statement .vcmpi := fun _ _ h => nomatch h
theorem vcmpf : Statement .vcmpf := fun _ _ h => nomatch h
theorem mand : Statement .mand := fun _ _ h => nomatch h
theorem mor : Statement .mor := fun _ _ h => nomatch h
theorem mxor : Statement .mxor := fun _ _ h => nomatch h
theorem mnot : Statement .mnot := fun _ _ h => nomatch h
theorem mcnt : Statement .mcnt := fun _ _ h => nomatch h
theorem mflg : Statement .mflg := fun _ _ h => nomatch h
theorem mfclr : Statement .mfclr := fun _ _ h => nomatch h
theorem vcprs : Statement .vcprs := fun _ _ h => nomatch h
theorem vexpd : Statement .vexpd := fun _ _ h => nomatch h
theorem vrsumi : Statement .vrsumi := fun _ _ h => nomatch h
theorem vrmaxi : Statement .vrmaxi := fun _ _ h => nomatch h
theorem vrsumf : Statement .vrsumf := fun _ _ h => nomatch h
theorem vsfu : Statement .vsfu := fun _ _ h => nomatch h
theorem read (n : Nat) (head : Flit) : Statement (.read n head) := fun h m e => by
  cases e; simp only [WellFormed, Instr.wf, headOk, Bool.and_eq_true, decide_eq_true_eq] at h; omega
theorem write (n : Nat) (head : Flit) (body : List Flit) : Statement (.write n head body) := fun h m e => by
  cases e; simp only [WellFormed, Instr.wf, headOk, Bool.and_eq_true, decide_eq_true_eq] at h; omega
theorem cmd (n : Nat) (head : Flit) : Statement (.cmd n head) := fun h m e => by
  cases e; simp only [WellFormed, Instr.wf, headOk, Bool.and_eq_true, decide_eq_true_eq] at h; omega
theorem readData (n : Nat) (head : Flit) (body : List Flit) : Statement (.readData n head body) := fun h m e => by
  cases e; simp only [WellFormed, Instr.wf, headOk, Bool.and_eq_true, decide_eq_true_eq] at h; omega
theorem writeAck (n : Nat) (head : Flit) : Statement (.writeAck n head) := fun h m e => by
  cases e; simp only [WellFormed, Instr.wf, headOk, Bool.and_eq_true, decide_eq_true_eq] at h; omega
theorem cmdDone (n : Nat) (head : Flit) : Statement (.cmdDone n head) := fun h m e => by
  cases e; simp only [WellFormed, Instr.wf, headOk, Bool.and_eq_true, decide_eq_true_eq] at h; omega
theorem idle (n : Nat) (cr : Nat) : Statement (.idle n cr) := fun h m e => by
  cases e; simp only [WellFormed, Instr.wf, ctlOk, Bool.and_eq_true, decide_eq_true_eq] at h; omega
theorem hello (n : Nat) (cr : Nat) (id : Nat) (port : Nat) : Statement (.hello n cr id port) := fun h m e => by
  cases e; simp only [WellFormed, Instr.wf, ctlOk, Bool.and_eq_true, decide_eq_true_eq] at h; omega
theorem tree (n : Nat) (cr : Nat) (root : Nat) (depth : Nat) (sender : Nat) (restart : Bool) : Statement (.tree n cr root depth sender restart) := fun h m e => by
  cases e; simp only [WellFormed, Instr.wf, ctlOk, Bool.and_eq_true, decide_eq_true_eq] at h; omega
theorem report (n : Nat) (cr : Nat) (id : Nat) (links : List LinkEnd) : Statement (.report n cr id links) := fun h m e => by
  cases e; simp only [WellFormed, Instr.wf, ctlOk, Bool.and_eq_true, decide_eq_true_eq] at h; omega
theorem topo (n : Nat) (cr : Nat) (links : List LinkEnd) (tiles : List Nat) (dups : List Nat) : Statement (.topo n cr links tiles dups) := fun h m e => by
  cases e; simp only [WellFormed, Instr.wf, ctlOk, Bool.and_eq_true, decide_eq_true_eq] at h; omega
theorem resyncReq (n : Nat) (cr : Nat) : Statement (.resyncReq n cr) := fun h m e => by
  cases e; simp only [WellFormed, Instr.wf, ctlOk, Bool.and_eq_true, decide_eq_true_eq] at h; omega
theorem resyncAck (n : Nat) (cr : Nat) (c0 : Nat) (c1 : Nat) (c2 : Nat) : Statement (.resyncAck n cr c0 c1 c2) := fun h m e => by
  cases e; simp only [WellFormed, Instr.wf, ctlOk, Bool.and_eq_true, decide_eq_true_eq] at h; omega
theorem linkReset (n : Nat) (cr : Nat) : Statement (.linkReset n cr) := fun h m e => by
  cases e; simp only [WellFormed, Instr.wf, ctlOk, Bool.and_eq_true, decide_eq_true_eq] at h; omega
theorem prepare (n : Nat) (cr : Nat) (src : Nat) (dst : Nat) (e : Nat) (e1 : Nat) (m : ModeWord) : Statement (.prepare n cr src dst e e1 m) := fun h m e => by
  cases e; simp only [WellFormed, Instr.wf, barOk, ctlOk, Bool.and_eq_true, decide_eq_true_eq] at h; omega
theorem barrierAck (n : Nat) (cr : Nat) (src : Nat) (dst : Nat) : Statement (.barrierAck n cr src dst) := fun h m e => by
  cases e; simp only [WellFormed, Instr.wf, barOk, ctlOk, Bool.and_eq_true, decide_eq_true_eq] at h; omega
theorem barrierNak (n : Nat) (cr : Nat) (src : Nat) (dst : Nat) : Statement (.barrierNak n cr src dst) := fun h m e => by
  cases e; simp only [WellFormed, Instr.wf, barOk, ctlOk, Bool.and_eq_true, decide_eq_true_eq] at h; omega
theorem commit (n : Nat) (cr : Nat) (src : Nat) (dst : Nat) (e1 : Nat) : Statement (.commit n cr src dst e1) := fun h m e => by
  cases e; simp only [WellFormed, Instr.wf, barOk, ctlOk, Bool.and_eq_true, decide_eq_true_eq] at h; omega
theorem barrierAbort (n : Nat) (cr : Nat) (src : Nat) (dst : Nat) : Statement (.barrierAbort n cr src dst) := fun h m e => by
  cases e; simp only [WellFormed, Instr.wf, barOk, ctlOk, Bool.and_eq_true, decide_eq_true_eq] at h; omega
theorem barrierDone (n : Nat) (cr : Nat) (src : Nat) (dst : Nat) : Statement (.barrierDone n cr src dst) := fun h m e => by
  cases e; simp only [WellFormed, Instr.wf, barOk, ctlOk, Bool.and_eq_true, decide_eq_true_eq] at h; omega
theorem barrierTimeout : Statement .barrierTimeout := fun _ _ h => nomatch h
theorem commitResend : Statement .commitResend := fun _ _ h => nomatch h
theorem helloTimer : Statement .helloTimer := fun _ _ h => nomatch h
theorem helloPhaseEnd : Statement .helloPhaseEnd := fun _ _ h => nomatch h
theorem treePhaseEnd : Statement .treePhaseEnd := fun _ _ h => nomatch h
theorem linkTimeout (n : Nat) : Statement (.linkTimeout n) := fun h m e => by
  cases e; simp only [WellFormed, Instr.wf, decide_eq_true_eq] at h; omega
theorem reqTimeout (tag : Nat) : Statement (.reqTimeout tag) := fun _ _ h => nomatch h
theorem sumFlit (n : Nat) (fl : Flit) : Statement (.sumFlit n fl) := fun h m e => by
  cases e; simp only [WellFormed, Instr.wf, Bool.and_eq_true, decide_eq_true_eq] at h; omega
theorem sumPassStart (k : Nat) (b : Nat) : Statement (.sumPassStart k b) := fun _ _ h => nomatch h
theorem paramPassStart (k : Nat) (b : Nat) : Statement (.paramPassStart k b) := fun _ _ h => nomatch h
theorem paramFlit (n : Nat) (fl : Flit) : Statement (.paramFlit n fl) := fun h m e => by
  cases e; simp only [WellFormed, Instr.wf, Bool.and_eq_true, decide_eq_true_eq] at h; omega
theorem reduceTimeout (k : Nat) : Statement (.reduceTimeout k) := fun _ _ h => nomatch h
theorem activityWindowEnd : Statement .activityWindowEnd := fun _ _ h => nomatch h
theorem retrimSensorDone (code : W32) : Statement (.retrimSensorDone code) := fun _ _ h => nomatch h
theorem droopDetect (sensor : Nat) : Statement (.droopDetect sensor) := fun _ _ h => nomatch h
theorem gateEnter : Statement .gateEnter := fun _ _ h => nomatch h
theorem wake : Statement .wake := fun _ _ h => nomatch h
theorem wakeDone : Statement .wakeDone := fun _ _ h => nomatch h
theorem guardEnterLow : Statement .guardEnterLow := fun _ _ h => nomatch h
theorem guardEnterRecover : Statement .guardEnterRecover := fun _ _ h => nomatch h
theorem guardDwellLost : Statement .guardDwellLost := fun _ _ h => nomatch h
theorem guardEnterOk : Statement .guardEnterOk := fun _ _ h => nomatch h
theorem supplyResetTrip : Statement .supplyResetTrip := fun _ _ h => nomatch h
theorem storePhaseDone : Statement .storePhaseDone := fun _ _ h => nomatch h
theorem fetchDone : Statement .fetchDone := fun _ _ h => nomatch h
theorem clkDumpDone : Statement .clkDumpDone := fun _ _ h => nomatch h
theorem logWrite : Statement .logWrite := fun _ _ h => nomatch h
theorem blockFormed (k : Nat) : Statement (.blockFormed k) := fun _ _ h => nomatch h
theorem cacheHitDelivery (c : Nat) : Statement (.cacheHitDelivery c) := fun _ _ h => nomatch h
theorem droopClear (sensor : Nat) : Statement (.droopClear sensor) := fun _ _ h => nomatch h
theorem svLevelSample (lv : Nat) : Statement (.svLevelSample lv) := fun _ _ h => nomatch h
theorem evtPulseEnd : Statement .evtPulseEnd := fun _ _ h => nomatch h
theorem reservedItem : Statement .reservedItem := fun _ _ h => nomatch h
theorem reservedCtypeFlit (n : Nat) (cr : Nat) (ctype : Nat) : Statement (.reservedCtypeFlit n cr ctype) := fun h m e => by
  cases e; simp only [WellFormed, Instr.wf, ctlOk, Bool.and_eq_true, decide_eq_true_eq] at h; omega

end Sys2Proof.Laws.F
end

