-- ==== Sys2Proof/Machine/Lines.lean ====
section
/-! DEFINITION. The block's output signals in the present cycle, each as the state drives it (18_ports_commands_registers.md, R434, R435, R438
to R441, R443). The interrupt lines stand in State (R427). -/
namespace Sys2Proof.Machine

/-- An acknowledgement and the read data beside it (R435). -/
structure AckLines where
  ack : Bool := false
  rdata : W32 := 0
  deriving DecidableEq, Repr

/-- x_ack and x_rdata of a control port (R435). -/
def ackLines (s : State) (p : Port) : AckLines :=
  match s.mb.acks.find? fun a => a.port == portArg p && a.t == pclkOf s with
  | some a => ⟨true, a.data⟩
  | none => {}

/-- The request lines of the memory port (R434, R438). -/
structure ReqLines where
  valid : Bool := false
  we : Bool := false
  addr : Nat := 0
  beats : Nat := 0
  src : Nat := 0
  tag : Nat := 0
  deriving DecidableEq, Repr

/-- mp_req_valid and the fields of the request presented: address bits [47:6], the lines less one, and the tag, MEMP_STATUS.GEN above the slot
(R438). -/
def reqLines (s : State) : ReqLines :=
  match s.memp.req with
  | some (k, r) =>
    { valid := true, we := r.write, addr := r.addr % m48 / 64, beats := r.beats - 1, src := r.src % 16, tag := s.memp.gen % 16 * 128 + k }
  | none => {}

/-- The write-data lines of the memory port (R439). -/
structure WriteLines where
  valid : Bool := false
  data : BitVec 512 := 0
  sec : Nat := 0
  last : Bool := false
  deriving DecidableEq, Repr

/-- mp_wvalid and the beat sent in the present MCLK cycle (R439). -/
def writeLines (s : State) : WriteLines :=
  match s.memp.beat with
  | some b => { valid := true, data := b.data, sec := b.sec, last := b.last }
  | none => {}

/-- mp_rready: high but in the cycles in which a write beat is sent (R440). -/
def readReady (s : State) : Bool := s.memp.beat.isNone

/-- fuse_rd and fuse_addr: bit n of the map in the n-th SCLK cycle of step 1 (R443). -/
def fuseLines (s : State) : Bool × Nat :=
  let n := sclkOf s - s.boot.t0
  if bootRuns s 0 && decide (s.boot.t0 ≤ sclkOf s) && decide (n < 1024) then (true, n) else (false, 0)

/-- The numbers that a control message carries (R309). -/
def ctlNumbers (m : CMsg) : List Nat :=
  [m.ctype, m.sub, m.a, m.b, m.c, m.d, m.m.rnd, m.m.pepoch, m.m.user, b2n m.m.applyRed, m.links.length]
    ++ m.links.flatMap (fun e => [e.tile, e.port, e.peer, e.peerPort]) ++ m.tiles

/-- The 288 bits of a flit: its data, and above them the side band (R441). -/
def flitBits (data : BitVec 256) (side : W32) : BitVec 288 := BitVec.ofNat 288 (data.toNat + side.toNat <<< 256)

/-- A control flit: kind 0b11, CR, CTYPE (R309); the manual does not lay out its message (log 135). -/
def ctlBits (m : CMsg) (cr : Nat) : BitVec 288 :=
  flitBits (Config.ctlData (ctlNumbers m)) (BitVec.ofNat 32 (3 <<< 30 + (cr % 4) <<< 28 + (m.ctype % 16) <<< 24))

/-- lpn_tx of link port n (R412, R441). -/
def linkLines (s : State) (n : Nat) : BitVec 288 :=
  let p := portOf s n
  match p.tx with
  | .low => 0
  | .idle => ctlBits { ctype := 0 } p.txCr
  | .ctl m => ctlBits m p.txCr
  | .vc _ f => flitBits f.data (putN f.side 28 2 p.txCr)

end Sys2Proof.Machine
end

