-- ==== Sys2Proof/Tests/Slice0.lean ====
section
/-! SUPPORT. Tests: terms that WellFormed refuses, single steps on small states, and for every statement states that meet its
hypotheses, clause by clause. Expected values come from the manual's words. -/
namespace Sys2Proof.Tests
open Sys2Proof Sys2Proof.Machine
set_option Elab.async false

/-- The state that a command answers with. -/
def after (c : Instr) (s : State) : State :=
  match exec c s with
  | .next t => t
  | _ => s

/-- The state that a step answers with. -/
def stepped (s : State) : State :=
  match step s with
  | .next t => t
  | _ => s

/-- Four command words: an opcode, the argument of ARG0, and ARG1 to ARG3. -/
def words (op a0 : Nat) (a1 a2 a3 : Nat := 0) : CmdWords :=
  ⟨BitVec.ofNat 32 (op * 2 ^ 24 + a0), BitVec.ofNat 32 a1, BitVec.ofNat 32 a2, BitVec.ofNat 32 a3⟩

-- Ill-formed commands, one for each check.

theorem test_wf_accepts : Instr.wf (.regWrite .scp 0x3000 0x15) = true ∧ Instr.wf (.chBellAdd .hcp 127 1) = true := by decide
theorem test_wf_refuses_odd_offset : Instr.wf (.regWrite .scp 0x3002 0) = false := by decide
theorem test_wf_refuses_offset_outside : Instr.wf (.scpOnlyDenied 0x10000 true) = false := by decide
theorem test_wf_refuses_port_6 : Instr.wf (.idle 6 0) = false := by decide
theorem test_wf_refuses_credit_4 : Instr.wf (.resyncReq 0 4) = false := by decide
theorem test_wf_refuses_barrier_source : Instr.wf (.barrierAck 0 0 256 0) = false := by decide
theorem test_wf_refuses_mode_epoch : Instr.wf (.prepare 0 0 0 0 0 0 ⟨0, 256, 0, false⟩) = false := by decide
theorem test_wf_refuses_link_end : Instr.wf (.report 0 0 1 [⟨1, 8, 2, 0⟩]) = false := by decide
theorem test_wf_refuses_body_flit_as_head : Instr.wf (.read 0 ⟨0, 0⟩) = false := by decide
theorem test_wf_refuses_head_on_vc2 : Instr.wf (.cmd 0 ⟨0, 0x88000000⟩) = false := by decide
theorem test_wf_refuses_body_of_another_channel :
    Instr.wf (.write 0 ⟨0, 0x08000000⟩ [⟨0, 0x40000000⟩]) = false := by decide
theorem test_wf_refuses_tag : Instr.wf (.memReadBeat 2048 0 0 true) = false := by decide
theorem test_wf_refuses_channel : Instr.wf (.chBellAdd .scp 128 1) = false := by decide
theorem test_wf_refuses_record_position : Instr.wf (.drainRead 0 32) = false := by decide
theorem test_wf_refuses_sensor_count : Instr.wf (.lightTrimDone []) = false := by decide
theorem test_wf_refuses_ctype : Instr.wf (.reservedCtypeFlit 0 0 8) = false := by decide

-- States.

/-- The tile after start-up. -/
def ready : State := { State.reset with boot := { st := 6 } }
/-- The tile after start-up with a command issued in mailbox m. -/
def mailed (m : Nat) (w : CmdWords) (s : State := ready) : State :=
  let b := mboxBase m
  let u := setReg (setReg (setReg (setReg s b w.w0) (b + 4) w.w1) (b + 8) w.w2) (b + 12) w.w3
  { u with mb := { u.mb with st := lupd [0, 0, 0] m fun _ => 1 }, cyc := s.cyc }
/-- A register held at a value. -/
def holding (off : Nat) (v : W32) (s : State := ready) : State := { setReg s off v with cyc := s.cyc }
/-- The state with a write of this PCLK cycle behind it. -/
def wrote (p : Port) (off : Nat) (v : W32) (s : State := ready) : State := after (.regWrite p off v) s

-- The step, and what it keeps.

theorem witness_StepRunsFrontCommand :
    ({ ready with pending := [.nop] } : State).pending = .nop :: [] := by decide
theorem witness_IdleStepPassesOnePeriod :
    State.reset.pending = [] ∧ clocksOn State.reset = false ∧ State.reset.seq.resume = false ∧ (State.reset.clk.t + 1) % 8 ≠ 0 := by
  decide
theorem test_idle_step_counts_one_period : (stepped State.reset).clk.t = 1 := by decide +kernel

-- Accesses to the register window.

theorem witness_HcpAccessToScpOnlyIsDenied :
    (accessOf (.rstCtrlWrite .hcp 5) = some (.hcp, 0x20C) ∧ scpOnly 0x20C = true ∧ accessHeld ready = false) ∧
    scpOnly 0x9024 = true ∧ scpOnly 0x9028 = false ∧ scpOnly 0x120 = true ∧ scpOnly 0x11C = false := by decide +kernel

/-- A tile of the smallest variant. -/
def small : State := { ready with variant := .l }
/-- A tile with the sequencer in state n. -/
def seqIn (n : Nat) (s : State := ready) : State := { s with seq := { s.seq with st := n } }

theorem witness_ClosedDebugPortChangesNothing :
    accessOf (.chBellAdd .dbg 127 1) = some (.dbg, chReg 127 0x14) ∧ dbgOpen ready = false ∧ accessHeld ready = false := by decide +kernel
theorem test_debug_port_opens : dbgOpen (pclkBegin (after (.lifecycleChange 1) ready)) = true ∧ dbgOpen (after (.lifecycleChange 1) ready) = false ∧
    dbgOpen (pclkBegin (after (.lifecycleChange 2) ready)) = false := by
  decide +kernel

theorem witness_AccessesThatReachNothingReadZero :
    (let s : State := { ready with rst := { act := some (2, 2) } }
     accessOf (.clrRuns .hcp) = some (.hcp, 0x4828) ∧ accessHeld s = true) ∧
    (hasCache small = false ∧ hasUcode small = false ∧ hasAdapt small = false ∧
      Performed small .scp 0x6044 ∧ Performed small .scp 0x6064 ∧ Performed small .hcp 0x5018 ∧ Performed small .scp 0x8160) := by
  unfold Performed; decide +kernel

theorem witness_RegisterWriteStoresByAccessCode :
    Performed ready .hcp 0x3000 ∧ hasOwnWrite 0x3000 0x15 = false ∧ (rwBits ready 0x3000).getLsbD 0 = true ∧
    Performed ready .scp 0x4404 ∧ hasOwnWrite 0x4404 1 = false ∧ (rwBits ready 0x4404).getLsbD 0 = false ∧
    (w1cBits 0x4404).getLsbD 0 = true ∧ (rwBits ready 0xFFFC).getLsbD 31 = false ∧ (w1cBits 0xFFFC).getLsbD 31 = false ∧
    (tileBits (orReg ready 0x4404 1) 0x4404).getLsbD 0 = true ∧ laterWrites ready .scp 0x3000 = [] ∧
    (laterWrites (wrote .hcp 0x3000 1) .scp 0x3000).map (·.val) = [1] := by
  unfold Performed; decide +kernel
theorem witness_RegisterWriteOfMailboxesAndTables :
    let busy : State := mailed 0 (words 0x20 0)
    (∀ off ∈ [mboxBase 0, mboxBase 2 + 0x1C, mboxBase 1 + 0x10, 0x814, 0x3080, 0x30BC, 0x3400, 0x3BFC, 0x4818, 0x31C], Reached ready .scp off) ∧
    Reached busy .hcp (mboxBase 0 + 0xC) ∧ lget ready.mb.st 0 2 = 0 ∧ lget busy.mb.st 0 0 ≠ 0 ∧
    ready.mb.st.length = 3 ∧ ready.mb.goT.length = 3 ∧ seqTablesBusy ready = false ∧ (tileBits ready 0x3BFC).getLsbD 31 = false ∧
    (mget ready.vec.dir {} (regF ready 0x4814 0 6)).valid = false ∧
    (mget ({ ready with vec := { dir := [(0, { checking := true })] } } : State).vec.dir {} 0).checking = true := by
  unfold Reached Performed Alone; decide +kernel
theorem test_go_makes_the_mailbox_busy :
    bitB (readReg (after (.regWrite .hcp (mboxBase 0 + 0x10) 1) ready) (mboxBase 0 + 0x14)) 31 = true ∧
    Caused (after (.regWrite .scp (mboxBase 0 + 0x10) 1) ready) 0x6B ∧
    (after (.regWrite .scp (mboxBase 0 + 0x10) 1) ready).mb.st = [0, 0, 0] := by unfold Caused; decide +kernel
theorem test_route_waits_for_the_next_cycle :
    (let t := after (.regWrite .scp 0x814 1) (holding 0x810 0x11)
     routeOf t 0x11 = 15 ∧ t.ev.routeNew = [(0x11, 1)] ∧ routeOf (pclkBegin t) 0x11 = 1) := by
  decide +kernel
theorem test_sticky_bit_is_cleared_by_one :
    reg (after (.regWrite .hcp 0x4404 2) (holding 0x4404 3)) 0x4404 = 1 ∧
    reg (after (.regWrite .hcp 0x4000 0xFFFFFFFF) ready) 0x4000 = 3 := by decide +kernel
theorem test_same_cycle_writes :
    reg (after (.regWrite .scp 0x3000 4) (wrote .hcp 0x3000 1)) 0x3000 = 1 ∧
    reg (after (.regWrite .hcp 0x4404 3) (orReg ready 0x4404 1)) 0x4404 = 1 ∧
    (after (.benchPramDataAccess .hcp none) (after (.benchPramDataAccess .hcp (some 9)) ready)).mb.rdata = [0, 0, 0] := by decide +kernel

theorem witness_RunningSequencerKeepsItsTables :
    Performed (seqIn 1) .hcp 0x3080 ∧ Performed (seqIn 4) .scp 0x3BFC ∧ Performed (seqIn 2) .scp 0x3048 ∧
    1 ≤ (seqIn 1).seq.st ∧ (seqIn 4).seq.st ≤ 4 := by unfold Performed; decide +kernel
theorem test_running_sequencer_refuses_a_directory_write :
    Caused (after (.regWrite .scp 0x3080 0x80000000) (seqIn 4)) 0x0D ∧
    reg (after (.regWrite .scp 0x3080 0x80000000) (seqIn 4)) 0x3080 = 0 ∧
    reg (after (.regWrite .scp 0x3080 0x80000000) (seqIn 5)) 0x3080 = 0x80000000 := by unfold Caused; decide +kernel

theorem witness_ClearCommandsZeroTheirCounts :
    (∀ off ∈ [0x4024, 0x4828, 0x4F10, 0x5020, 0x3050, 0x6064, 0x7058, 0x320, 0x224, 0xE044, 0x1D8, 0x8060, 0x8160, 0x394, 0x830],
      Performed ready .scp off) ∧ hasAdapt ready = true := by unfold Performed; decide +kernel
theorem test_clear_counts : reg (after (.benchClrCounts .hcp) (holding 0x3018 7)) 0x3018 = 0 := by decide +kernel

theorem witness_DataRegistersReachTheirWord :
    (Reached ready .hcp 0x3048 ∧ seqTablesBusy ready = false) ∧ Reached ready .scp 0x480C ∧
    (Reached ready .scp 0x4810 ∧ rcpInUse ready 511 = false) ∧
    (Reached ready .hcp 0x5018 ∧ hasUcode ready = true ∧ ucInUse ready 31 = false) := by
  unfold Reached Performed Alone; decide +kernel
theorem test_program_address_wraps :
    reg (after (.benchPramDataAccess .hcp (some 9)) (holding 0x3044 16383)) 0x3044 = 0 ∧
    mget (after (.benchPramDataAccess .hcp (some 9)) (holding 0x3044 16383)).seq.pram 0 16383 = 9 := by decide +kernel

/-- The gate-table address: table, bank, segment, coefficient. -/
def gpAt (tanh bank seg c : Nat) : State := holding 0x5C0C (BitVec.ofNat 32 (tanh * 512 + bank * 256 + seg * 4 + c))

theorem witness_CoefficientTablesKeepTheActiveBank :
    (Reached (gpAt 1 0 63 2) .hcp 0x5C10 ∧ regF (gpAt 1 0 63 2) 0x5C0C 0 2 ≠ 3 ∧
      regF (gpAt 1 0 63 2) 0x5C0C 8 1 = b2n (gpAt 1 0 63 2).gate.bankTnh) ∧
    (regF (gpAt 0 1 63 2) 0x5C0C 8 1 ≠ b2n (gpAt 0 1 63 2).gate.bankSig ∧ (gpAt 0 1 63 2).gate.pendSig = false) ∧
    (Reached (gpAt 0 1 0 3) .hcp 0x5C10 ∧ regF (gpAt 0 1 0 3) 0x5C0C 0 2 = 3) ∧
    (Reached (holding 0x5008 775) .hcp 0x500C ∧ 775 ≤ regF (holding 0x5008 775) 0x5008 0 10) ∧
    (regF (holding 0x5008 5) 0x5008 10 1 = b2n ((holding 0x5008 5).sfu.bank.testBit (regF (holding 0x5008 5) 0x5008 11 4))) ∧
    (Reached (holding 0x5008 1798) .hcp 0x500C ∧ regF (holding 0x5008 1798) 0x5008 0 10 = 774 ∧
      regF (holding 0x5008 1798) 0x5008 10 1 = 1 ∧ (holding 0x5008 1798).sfu.bank.testBit 0 = false ∧
      (holding 0x5008 1798).sfu.pend.testBit 0 = false) := by unfold Reached Performed Alone; decide +kernel
theorem test_gate_table_address_wraps :
    regF (after (.gpTblDataAccess .hcp (some 5)) (gpAt 0 1 63 2)) 0x5C0C 0 8 = 0 ∧
    mget (after (.gpTblDataAccess .hcp (some 5)) (gpAt 0 1 63 2)).gate.tbl none 510 = some 5 ∧
    Caused (after (.gpTblDataAccess .hcp (some 5)) (gpAt 0 0 63 2)) 0x0D := by unfold Caused; decide +kernel

theorem witness_SwitchesAndRecipesWaitForABoundary :
    Performed ready .hcp 0x5C14 ∧ Performed ready .hcp 0x5010 ∧ Reached ready .hcp 0x4818 ∧
    bitB (0x08000000#32) 27 = true ∧ (mget ready.vec.dir {} 63).valid = false ∧ (mget ready.vec.dir {} 63).checking = false ∧
    (mget ready.vec.dir {} 63).pend = false ∧
    (let s : State := { ready with vec := { dir := [(0, { valid := true })] } }
     Reached s .hcp 0x4818 ∧ bitB (0x04000000#32) 26 = true ∧ bitB (0x04000000#32) 27 = false ∧
       (mget s.vec.dir {} (regF s 0x4814 0 6)).valid = true) := by unfold Reached Performed Alone; decide +kernel

theorem witness_SplitReadsCaptureTheUpperHalf :
    Performed ready .hcp 0x4418 ∧ Performed ready .hcp 0x820 ∧ Performed ready .hcp 0x824 ∧ Performed ready .hcp 0xE030 ∧
    ready.perf.caps.length = 7 := by unfold Performed; decide +kernel
theorem test_slot_count_read_captures :
    (let t := after (.perfLoRead .hcp 6) { ready with perf := { slots := 0x300000002 } }
     lget t.mb.rdata 0 0 = 2 ∧ lget t.perf.caps 0 6 = 3) := by decide +kernel

/-- An event pending since an earlier PCLK cycle, with a route. -/
def pended (code route : Nat) : State :=
  { ready with ev := { pend := 1#128 <<< code, routes := [(code, route)] }, clk := { t := 8 } }
theorem witness_EventPendingBitsAreClearedByWritingOne :
    Performed (pended 127 9) .scp 0x80C ∧ (pended 127 9).ev.pend.getLsbD 127 = true ∧
    mget (pended 127 9).ev.setAt 0 127 < pclkOf (pended 127 9) ∧
    (routeOf (pended 127 9) 127).testBit 1 = false ∧ (routeOf (pended 0 2) 0).testBit 1 = true := by
  unfold Performed; decide +kernel
theorem test_secure_event_is_kept_from_hcp :
    (after (.evtPendWrite .hcp 0 1) (pended 0 2)).ev.pend.getLsbD 0 = true ∧
    (after (.evtPendWrite .scp 0 1) (pended 0 2)).ev.pend.getLsbD 0 = false := by decide +kernel

/-- A region table of one region: the pool of 2 KiB at the scratchpad's start. -/
def pool : State := holding 0x6000 0x88000001

theorem witness_TablesInUseRefuseWrites :
    (Reached ready .scp 0x603C ∧ seqStopped (seqIn 2) = false ∧
      (let s : State := { ready with rings := [(0, { pg0 := [0] })] }; pagesDrawn s ≠ []) ∧
      seqStopped ready = true ∧ pagesDrawn ready = [] ∧
      regionsOk (cacheStart ready) ((natsTo 16).map fun i => if i = 15 then 0x807FF002#32 &&& 0xF87FFFFF else regionReg ready i) = false ∧
      regionsOk (cacheStart ready) ((natsTo 16).map fun i => if i = 15 then 0x807FF001#32 &&& 0xF87FFFFF else regionReg ready i) = true) ∧
    (hasCache ready = true ∧ Reached ready .hcp 0x6044 ∧ fieldN (5#32) 0 3 = 5 ∧
      chanRunning { ready with chans := [(3, { st := 1 })] } = true ∧ chanRunning ready = false ∧
      cacheBlocked ready (spadBytes ready - 4 * 262144) = false ∧ fieldN (4#32) 0 3 ≠ regF ready 0x6044 0 3) ∧
    Performed ready .hcp 0x6064 ∧
    (Reached ready .scp 0x1C0 ∧ fieldN (1#32) 0 1 ≠ regF ready 0x1C0 0 1 ∧
      (let s : State := { ready with rings := [(0, { en := true, pooled := true })] }
       (s.rings.any fun e => e.2.en && e.2.pooled) = true)) ∧
    (Reached ready .scp 0x9024 ∧ ready.mode.lead = 0 ∧ ({ ready with mode := { lead := 1 } } : State).mode.lead ≠ 0) := by
  unfold Reached Performed Alone; decide +kernel
theorem test_cache_size_is_taken : regF (after (.spadCacheWrite .hcp 4) ready) 0x6044 0 3 = 4 ∧
    cacheStart (after (.spadCacheWrite .hcp 4) ready) = 0x300000 := by decide +kernel

theorem witness_WatchdogIsKickedOnlyByItsKey :
    (Performed ready .scp 0x21C ∧ fieldN (0x5AC3#32) 0 16 = 0x5AC3 ∧ fieldN (0x5AC2#32) 0 16 ≠ 0x5AC3 ∧
      regF (holding 0x218 2) 0x218 1 1 = 1) ∧
    (Reached ready .scp 0x218 ∧ regF ready 0x218 0 1 = 0 ∧ regF (holding 0x218 0x00050001) 0x218 0 1 = 1) ∧
    Reached ready .scp 0x20C := by unfold Reached Performed Alone; decide +kernel
theorem test_reset_timeout_range :
    reg (after (.rstCtrlWrite .scp 1000) ready) 0x20C = 1000 ∧ reg (after (.rstCtrlWrite .scp 1001) ready) 0x20C = 100 := by
  decide +kernel

theorem witness_SmallRegisterOperations :
    Performed ready .hcp (chReg 127 0x14) ∧ Performed ready .hcp 0x1D8 ∧ Reached ready .hcp 0x300 ∧
    ({ ready with clk := { st := 1 } } : State).clk.st = 1 ∧
    (Reached ready .scp 0x31C ∧ bitB (0x80000000#32) 31 = true) ∧ (Performed ready .hcp 0x320 ∧ ready.clk.trimmed.length = 3) ∧
    (let s : State := { ready with clk := { retrim := true, retrimBand := 2 } }; s.clk.retrim = true ∧ s.clk.retrimBand = 2) := by
  unfold Reached Performed Alone; decide +kernel
theorem test_doorbell_holds_at_its_top :
    (chan (after (.chBellAdd .hcp 127 0xFFFF) { ready with chans := [(127, { bell := 2 })] }) 127).bell = 0xFFFF := by decide +kernel

-- Commands from a mailbox.

/-- A command waits in the SCP mailbox of a tile with its unassigned bits 0, and `p` holds. -/
def cmdAt (op a0 a1 a2 a3 : Nat) (s : State) (p : State → CmdWords → Bool) : Bool :=
  let w := words op a0 a1 a2 a3
  let t := mailed 1 w s
  decide (taken .scp w t = some ({ o := .scp }, mboxTake t 1)) && decide (fieldN w.w0 24 8 = op) && decide (6 ≤ t.boot.st) &&
    classOk t { o := .scp } op && argsClean w op && p t w

/-- What `cmdAt` says, in the words of the statements. -/
theorem waits_of_cmdAt {op a0 a1 a2 a3 : Nat} {s : State} {p : State → CmdWords → Bool} (h : cmdAt op a0 a1 a2 a3 s p = true) :
    let w := words op a0 a1 a2 a3
    let t := mailed 1 w s
    Waits t .scp 1 w op ∧ argsClean w op = true ∧ p t w = true := by
  simp only [cmdAt, Bool.and_eq_true, decide_eq_true_eq] at h
  exact ⟨⟨rfl, h.1.1.1.1.1, h.1.1.1.1.2, h.1.1.1.2, h.1.1.2⟩, h.1.2, h.2⟩

/-- The SCP mailbox's answer to a command. -/
def answer (c : Origin → CmdWords → Instr) (op a0 a1 a2 a3 : Nat) (s : State) : State :=
  let w := words op a0 a1 a2 a3
  after (c .scp w) (mailed 1 w s)

theorem witness_CommandChecksComeInOrder :
    (let w := words 0x71 1
     let s : State := { mailed 0 w with boot := { st := 5 } }
     (0x71, Instr.dbgPoke) ∈ mailRows ∧ mboxOf .hcp = some 0 ∧ taken .hcp w s = some ({ o := .hcp }, mboxTake s 0) ∧
       fieldN w.w0 24 8 = 0x71 ∧ s.boot.st < 6) ∧
    (let w := words 0x30 0
     let s := mailed 0 w
     taken .hcp w s = some ({ o := .hcp }, mboxTake s 0) ∧ 6 ≤ s.boot.st ∧ classOk s { o := .hcp } 0x30 = false) ∧
    (let w := words 0x00 128
     let s := mailed 2 w { ready with pins := { lifecycle := 1 } }
     taken .dbg w s = some ({ o := .dbg }, mboxTake s 2) ∧ classOk s { o := .dbg } 0x00 = true ∧ argsClean w 0x00 = false) := by
  refine ⟨⟨by simp [mailRows], rfl, rfl, by decide +kernel, by decide⟩, ⟨rfl, by decide, by decide +kernel⟩, rfl, by decide +kernel, by decide +kernel⟩
theorem test_unassigned_bit_is_bad_arg :
    MbDone (answer .arm 0x00 128 0 0 0 ready) 1 2 ∧ MbDone (answer .reduceRound 0x42 2 0 0 0 small) 1 3 ∧
    MbDone (answer .dbgPoke 0x71 0 0 0 0 ready) 1 5 := by unfold MbDone; decide +kernel

/-- Channel 127 in a state. -/
def chanIn (h : Chan) : State := { ready with chans := [(127, h)] }
theorem witness_ArmStartsOrWaits :
    cmdAt 0x00 127 0xFFFFFFE0 0xFFFFF 0xFFFF (chanIn { st := 4 }) (fun t _ => (chan t 127).st == 4) ∧
    cmdAt 0x00 127 0xFFFFFFE0 0xFFFFF 0xFFFF ready (fun t _ => (chan t 127).st == 0 && !unitHeld t 8) ∧
    cmdAt 0x00 127 32 0 0 (chanIn { st := 3 }) (fun t _ => (chan t 127).st == 3 && (chan t 127).pend.isNone) ∧
    cmdAt 0x00 127 32 0 0 (chanIn { st := 1 }) (fun t _ => (chan t 127).st == 1 && (chan t 127).pend.isNone && !unitHeld t 8) ∧
    cmdAt 0x00 127 32 0 0 (chanIn { st := 1, pend := some ⟨0, 0, 0⟩ }) (fun t _ => (chan t 127).pend.isSome) := by decide +kernel
theorem test_arm_starts :
    (let t := answer .arm 0x00 5 0x40 0x00020003 0 ready
     MbDone t 1 0 ∧ (chan t 5).st = 1 ∧ (chan t 5).src = 2 ∧ (chan t 5).posA = 0x300000040) := by unfold MbDone; decide +kernel

/-- A channel row of which a request is outstanding at the port. -/
def rowOut : State :=
  { chanIn { st := 1, rows := [{ id := 9, kaddr := 64, outN := 1 }] } with memp := { out := [(3, { who := .chanRow 127 9 })] } }
/-- A halted channel that has begun the second half of ring 3, with its page. -/
def halfBegun : State :=
  { chanIn { st := 5, posA := 0x800, posR := 9, fill := some 3, halves := [⟨3, 512, 0x400, 6⟩] } with
    rings := [(3, { en := true, pooled := true, prod := 515, beg := 1024, rel := 512, pg1 := [4] })] }
theorem witness_ChannelsStopResumeAndAbort :
    cmdAt 0x01 127 0 0 0 ready (fun t _ => (chan t 127).st == 0) ∧
    cmdAt 0x01 127 0 0 0 rowOut (fun t _ => (chan t 127).rows.all (fun r => !rowReady r) && chanBusy t 127) ∧
    cmdAt 0x01 127 0 0 0 (chanIn { st := 4, pend := some ⟨0, 0, 0⟩ }) (fun t _ => (chan t 127).st == 4) ∧
    cmdAt 0x01 127 0 0 0 (chanIn { st := 2 }) (fun t _ => !chanBusy t 127 && (chan t 127).stopTo.isNone && (chan t 127).tail.isNone && (curKib (chan t 127)).isNone) ∧
    cmdAt 0x02 127 0 0 0 (chanIn { st := 3 }) (fun t _ => (chan t 127).st == 3) ∧
    cmdAt 0x02 127 0 0 0 (chanIn { st := 5, unchecked := true }) (fun t _ => (chan t 127).st == 5 && !t.memp.closed && !unitHeld t 8) ∧
    cmdAt 0x02 127 0 0 0 (chanIn { st := 5 }) (fun t _ => (chan t 127).st == 5 && !t.memp.closed && !unitHeld t 8) ∧
    cmdAt 0x03 127 0 0 0 ready (fun t _ => (chan t 127).st == 0) ∧
    cmdAt 0x03 127 0 0 0 rowOut (fun t _ => chanBusy t 127 && (fillRing (chan t 127)).isNone && (chan t 127).begins.isEmpty) ∧
    cmdAt 0x03 127 0 0 0 halfBegun
      (fun t _ => !chanBusy t 127 && fillRing (chan t 127) == some 3 && !ringTaken t 127 3 && (chan t 127).begins.isEmpty) ∧
    cmdAt 0x03 127 0 0 0 (chanIn { st := 5 }) (fun t _ => !chanBusy t 127) := by decide +kernel
theorem test_stop_drops_the_arm_of_a_halted_channel :
    (chan (answer .chStop 0x01 127 0 0 0 (chanIn { st := 5, pend := some ⟨0, 0, 0⟩ })) 127).pend = none := by decide +kernel
theorem test_abort_drops_the_half :
    (let t := answer .chAbort 0x03 127 0 0 0 halfBegun
     (ringOf t 3).prod = 512 ∧ (ringOf t 3).beg = 512 ∧ (ringOf t 3).pg1 = [] ∧ (chan t 127).posA = 0x400 ∧ (chan t 127).posR = 6 ∧
     (chan t 127).st = 0) := by decide +kernel
theorem test_stop_waits_for_its_responses :
    (chan (answer .chStop 0x01 127 0 0 0 rowOut) 127).st = 3 ∧
    (let t := answer .chStop 0x01 127 0 0 0 (chanIn { st := 2 }); (chan t 127).st = 5 ∧ (chan t 127).cause = 1 ∧ MbDone t 1 0) := by
  unfold MbDone; decide +kernel

/-- A seam's binding: 1 vector, rows at `base`. -/
def bindW (k base : Nat) : CmdWords := words 0x10 k 0 base 0
theorem witness_BoundaryCommandsWait :
    cmdAt 0x04 63 0x80000000 1 0 ready (fun t w => ringArgBad t w) ∧
    cmdAt 0x04 63 0x80000000 2 0 { ready with rings := [(63, { en := true, prod := 512 })] } (fun t w => !ringArgBad t w && ringBusy t 63) ∧
    cmdAt 0x04 0 0xC0000000 0x440 0 { pool with rings := [(1, { en := true, pooled := true, rsize := 1, nrows := 64 })] }
      (fun t w => !ringArgBad t w && !ringBusy t 0 && decide (poolPages t < otherReserve t 0 + ringReserve (ringOfWords w))) ∧
    cmdAt 0x04 63 0x80000000 2 0 ready (fun t w => !ringArgBad t w && !ringBusy t 63 && (ringOf t 63).pend.isNone) ∧
    cmdAt 0x10 255 0 1023 0 ready (fun t w => bindArgBad t 255 w) ∧
    cmdAt 0x10 255 0x00200000 0 0 small (fun t w => !bindArgBad t 255 w && !hasAdapt t) ∧
    cmdAt 0x10 255 0 0 0 { ready with seams := [(255, { st := 3 })] } (fun t w => !bindArgBad t 255 w && (seam t 255).st == 3) ∧
    cmdAt 0x10 255 0 0 0 { ready with seams := [(255, { st := 7, closePend := some { o := .hcp } })] }
      (fun t w => !bindArgBad t 255 w && (seam t 255).closePend.isSome) ∧
    (∀ n ∈ [4, 5], cmdAt 0x10 255 0 0 0 { ready with seams := [(255, { st := n })] } (fun t w => !bindArgBad t 255 w && (seam t 255).st == n)) ∧
    cmdAt 0x10 255 0x00000100 0 0 { ready with seams := [(0, { st := 1, deep := 255, nvec := 64 })] }
      (fun t w => !bindArgBad t 255 w && decide (256 < otherDeep t 255 + deepOf (bindSeam w))) ∧
    cmdAt 0x10 255 0 1022 0 ready (fun t w => !bindArgBad t 255 w && (seam t 255).st == 0) ∧
    cmdAt 0x13 255 0 0 0 ready (fun t w => seamArgBad t w) ∧
    cmdAt 0x13 255 0 0 0 { ready with seams := [(255, { st := 5 })] } (fun t w => !seamArgBad t w && (seam t 255).st == 5) ∧
    cmdAt 0x13 255 0 0 0 { ready with seams := [(255, { st := 4 })] } (fun t w => !seamArgBad t w && (seam t 255).pend.isNone) := by decide +kernel
theorem test_bind_waits : (seam (after (.bind .scp (bindW 7 4)) (mailed 1 (bindW 7 4))) 7).pend.isSome = true := by decide +kernel

/-- Seam 255 in a state, with its rows at 8 and 9. -/
def seamIn (x : Seam) : State := { ready with seams := [(255, { x with nrows := 1, base := 8 })] }
/-- Slot `n` with a step of seam 255 in the gate pipe that commits in slot 100. -/
def closing (n : Nat) : State :=
  { seamIn { st := 5 } with
    clk := { slot := n }
    seq := { st := 2, benches := [{ uid := 1, recs := [{ pos := 0, ty := 4, w := [0, 0, 0, 0] }] }] }
    gate := { steps := [{ uid := 1, pos := 0, k := 0, seam := 255, g := 75 }] } }
/-- A seam of which a transfer has started. -/
def moving (reload : Bool) (n : Nat) : State :=
  { seamIn { st := n } with acc := { xfers := [{ seam := 255, reload := reload, started := true, left := 8 }] } }
theorem witness_SeamCommandsChangeTheState :
    (∀ op ∈ [0x11, 0x12, 0x14, 0x15], cmdAt op 255 0 0 0 ready (fun t w => seamArgBad t w)) ∧
    cmdAt 0x11 255 0 0 0 (seamIn { st := 2 }) (fun t w => !seamArgBad t w && (seam t 255).st == 2) ∧
    (∀ n ∈ [1, 4, 5, 6, 7], cmdAt 0x11 255 0 0 0 (seamIn { st := n }) (fun t w => !seamArgBad t w && (seam t 255).st == n)) ∧
    (∀ n ∈ [2, 3, 7], cmdAt 0x12 255 0 0 0 (seamIn { st := n }) (fun t w => !seamArgBad t w && (seam t 255).st == n)) ∧
    cmdAt 0x12 255 0 0 0 (seamIn { st := 1 }) (fun t w => !seamArgBad t w && (rowHolder t 255).isNone) ∧
    cmdAt 0x12 255 0 0 0 { ready with seams := [(3, { st := 4, nrows := 1, base := 8 }), (255, { st := 1, nrows := 1, base := 8 })] }
      (fun t w => !seamArgBad t w && (rowHolder t 255).map Prod.fst == some 3) ∧
    cmdAt 0x12 255 0 0 0 (seamIn { st := 4, stale := true }) (fun t w => !seamArgBad t w && (seam t 255).stale) ∧
    cmdAt 0x12 255 0 0 0 (seamIn { st := 5 }) (fun t w => !seamArgBad t w && (seam t 255).st == 5) ∧
    cmdAt 0x14 255 0 0 0 (seamIn { st := 4, stale := true }) (fun t w => !seamArgBad t w && !unitHeld t 1) ∧
    cmdAt 0x15 255 0 0 0 (seamIn { st := 4 }) (fun t w => !seamArgBad t w && (seam t 255).closePend.isNone && (seamWindow t 255).isNone && t.acc.xfers.isEmpty) ∧
    cmdAt 0x15 255 0 0 0 (seamIn { st := 7, closePend := some { o := .hcp } }) (fun t w => !seamArgBad t w && (seam t 255).closePend.isSome) ∧
    (∀ b ∈ [true, false], cmdAt 0x15 255 0 0 0 (moving b 3) (fun t w => !seamArgBad t w && (seam t 255).closePend.isNone &&
      (seamWindow t 255).isNone && t.acc.xfers.any (fun e => e.seam == 255 && e.started) && t.gate.steps.isEmpty && t.scan.chunks.isEmpty
        && (seam t 255).pend.isNone)) ∧
    cmdAt 0x15 255 0 0 0 (closing 99) (fun t w => !seamArgBad t w && seamWindow t 255 == some 100) := by decide +kernel
theorem test_seam_commands :
    (seam (answer .evict 0x11 255 0 0 0 (seamIn { st := 4 })) 255).st = 7 ∧
    (seam (answer .evict 0x11 255 0 0 0 (seamIn { st := 5 })) 255).st = 6 ∧
    (seam (answer .reload 0x12 255 0 0 0 (seamIn { st := 1 })) 255).st = 3 ∧
    (seam (answer .accept 0x14 255 0 0 0 (seamIn { st := 4, stale := true })) 255).stale = false ∧
    (seam (answer .seamClose 0x15 255 0 0 0 (seamIn { st := 4 })) 255).st = 0 ∧
    (let t := seam (answer .seamClose 0x15 255 0 0 0 (moving true 3)) 255; t.st = 3 ∧ t.closing = true ∧ t.closePend.isSome = true) := by decide +kernel

theorem witness_SequencerCommandsMoveTheState :
    cmdAt 0x20 15 0 0 0 ready (fun t _ => !bitB (reg t 0x30BC) 31) ∧
    cmdAt 0x20 15 0 0 0 (seqIn 5 (holding 0x30BC 0x80000000)) (fun t _ => bitB (reg t 0x30BC) 31 && t.seq.st == 5) ∧
    cmdAt 0x20 15 0 0 0 (holding 0x30BC 0x80000000) (fun t _ => bitB (reg t 0x30BC) 31 && t.seq.st == 0 && !slotUnitHeld t) ∧
    cmdAt 0x21 0 0 0 0 ready (fun t _ => !seqActive t) ∧ cmdAt 0x21 0 0 0 0 (seqIn 4) (fun t _ => seqActive t && t.seq.haltReq.isNone) ∧
    cmdAt 0x22 0 0 0 0 (seqIn 5) (fun t _ => t.seq.st == 5) ∧ cmdAt 0x22 0 0 0 0 (seqIn 3) (fun t _ => t.seq.st == 3) ∧
    cmdAt 0x22 0 0 0 0 { ready with seq := { st := 2, benches := [{}] } } (fun t _ => t.seq.st == 2 && !t.seq.benches.isEmpty) ∧
    cmdAt 0x22 0 0 0 0 { ready with seq := { st := 2, haltReq := some ⟨1, 31, 0, false, 0⟩ } } (fun t _ => t.seq.st == 2 && t.seq.haltReq.isSome) ∧
    cmdAt 0x22 0 0 0 0 (seqIn 2) (fun t _ => t.seq.st == 2 && t.seq.benches.isEmpty && t.seq.haltReq.isNone) ∧
    cmdAt 0x23 0 0 0 0 (seqIn 2) (fun t _ => t.seq.st == 2) ∧ cmdAt 0x23 0 0 0 0 (seqIn 5) (fun t _ => t.seq.st == 5 && !slotUnitHeld t) ∧
    cmdAt 0x24 0 0 0 0 (seqIn 0) (fun t _ => t.seq.st == 0) ∧ cmdAt 0x24 0 0 0 0 (seqIn 5) (fun t _ => t.seq.st == 5) := by decide +kernel
theorem test_sequencer_commands :
    (answer .run 0x20 15 0 0 0 (holding 0x30BC 0x80000000)).seq.st = 1 ∧ (answer .benchStop 0x22 0 0 0 0 (seqIn 2)).seq.st = 5 ∧
    (answer .benchResume 0x23 0 0 0 0 (seqIn 5)).seq.st = 2 ∧ (answer .benchAbort 0x24 0 0 0 0 (seqIn 5)).seq.st = 0 ∧
    (answer .halt 0x21 0 0 0 0 (seqIn 4)).seq.haltReq.map (·.cause) = some 6 := by decide +kernel

/-- The tile after start-up with a supply that is OK. -/
def supplied : State := { ready with sup := { st := 0, firstOk := true } }
/-- A valid copy of a key in a frame of the store: 8 bytes, sequence number 1. -/
def framed (f key : Nat) (s : State := supplied) : State :=
  let j : StoreJob :=
    { fetch := false, key := BitVec.ofNat 32 key, len := 8, off := 0, payload := [1, 2, 3, 4, 5, 6, 7, 8], frame := f, phase := 1
      tries := 0, prev := none, cli := { o := .scp } }
  writePhase (writePhase (writePhase s { j with phase := 2 } 1) { j with phase := 3 } 7) { j with phase := 5 } 1
/-- A small tile with seven frames of which six hold live keys of one byte. -/
def almostFull : State :=
  let frame (f : Nat) : SMap Nat :=
    let b := leBytes 4 (0x02000000 + f) ++ leBytes 4 1 ++ leBytes 4 1 ++ leBytes 4 1
    let h := leBytes 8 commitWord ++ b ++ leBytes 4 (crc32c (b ++ [7])).toNat
    (natsTo 28).map (fun i => (frameAt f + i, lget h 0 i)) ++ [(frameAt f + 64, 7)]
  { supplied with variant := .l, store := { data := (natsTo 6).flatMap frame } }

theorem witness_StoreAndFetchBegin :
    cmdAt 0x30 0 0x02000001 4097 0 supplied (fun t w => storeArgBad t w) ∧
    cmdAt 0x30 0 0x02000001 8 0 { supplied with store := { job := some ⟨false, 0, 0, 0, [], 0, 5, 0, none, { o := .hcp }, 0, none⟩ } }
      (fun t w => !storeArgBad t w && storeBusy t) ∧
    cmdAt 0x30 0 0x02000099 8 0 almostFull
      (fun t w => !storeArgBad t w && !storeBusy t && (liveFrame t w.w1.toNat).isNone && (freeFrames t).length == 1) ∧
    cmdAt 0x30 0 0x02000001 4096 0x3FF000 ready
      (fun t w => !storeArgBad t w && !storeBusy t && (freeFrames t).length == 63 && t.sup.st == 1) ∧
    cmdAt 0x30 0 0x02000001 0 0 supplied (fun t w => !storeArgBad t w && !storeBusy t && (targetFrame (finishClean t) none).isSome) ∧
    cmdAt 0x30 0 0x02000001 0 0 { supplied with store := { clean := [62] } } (fun t w => !storeArgBad t w && !storeBusy t) ∧
    cmdAt 0x30 0 0x02000001 8 0 supplied (fun t w => (storeRead (storeOff w) 1 (finishClean (mboxTake t 1))).1.isNone) ∧
    cmdAt 0x30 0 0x02000001 8 0 (dmaFresh supplied 0 7) (fun t w => (storeRead (storeOff w) 1 (finishClean (mboxTake t 1))).1.isSome) ∧
    cmdAt 0x31 0 0x00000001 0 0 supplied (fun _ w => fieldN w.w1 24 8 == 0) ∧
    cmdAt 0x31 0 0x02000001 0 0 supplied (fun t w => (liveFrame t w.w1.toNat).isNone && !storeBusy t) ∧
    cmdAt 0x31 0 0x02000001 0 0x3FFFE0 (framed 62 0x02000001)
      (fun t w => liveFrame t w.w1.toNat == some 62 && !storeRangeBad t w (fLen t 62) && !storeBusy t) := by
  decide +kernel

/-- A window entry. -/
def winIs (x : Win) : State := { ready with wins := [(15, x)] }
theorem witness_WindowCommandsOpenAndClose :
    cmdAt 0x50 0x3F 2047 2 0xBF ready (fun t w => exportBad t 15 { mode := 1, rd := true, wr := true, base := fieldN w.w1 0 11, size := 2 }) ∧
    cmdAt 0x50 0x1F 2047 1 0xBF (winIs { mode := 2 }) (fun t _ => (mget t.wins {} 15).mode == 2) ∧
    cmdAt 0x50 0x1F 2047 1 0xBF ready
      (fun t w => !exportBad t 15 { mode := 1, rd := true, base := fieldN w.w1 0 11, size := 1, peer := 0xBF } && (mget t.wins {} 15).mode == 0) ∧
    cmdAt 0x51 15 192 0 0 ready (fun _ w => decide (191 < fieldN w.w1 0 8)) ∧
    cmdAt 0x51 15 191 0 0 (winIs { mode := 1 }) (fun t _ => (mget t.wins {} 15).mode == 1) ∧
    cmdAt 0x51 15 191 0 0 ready (fun t w => decide (fieldN w.w1 0 8 ≤ 191) && (mget t.wins {} 15).mode == 0 && !unitHeld t 7) ∧
    cmdAt 0x52 15 0 0 0 ready (fun t _ => (mget t.wins {} 15).mode == 0) ∧
    cmdAt 0x52 15 0 0 0 (winIs { mode := 2 }) (fun t _ => (mget t.wins {} 15).mode == 2 && (mget t.wins {} 15).closing.isNone) ∧
    cmdAt 0x52 15 0 0 0 (winIs { mode := 1 }) (fun t _ => (mget t.wins {} 15).mode == 1 && (mget t.wins {} 15).closing.isNone) := by
  decide +kernel
theorem test_window_commands :
    mget (answer .openExport 0x50 0x1F 2047 0 0xBF { ready with wins := [(15, { gen := 9 })] }).wins {} 15 = { gen := 9 } ∧
    mget (answer .openExport 0x50 0x1F 2047 1 0xBF { ready with wins := [(15, { gen := 9 })] }).wins {} 15 =
      { mode := 1, rd := true, gen := 9, peer := 0xBF, base := 2047, size := 1 } ∧
    mget (answer .openImport 0x51 0x2F 0x00070305 0 0 ready).wins {} 15 =
      { mode := 2, wr := true, gen := 7, peer := 5, pwin := 3, size := 2048 } ∧
    (mget (answer .windowClose 0x52 15 0 0 0 (winIs { mode := 2 })).wins {} 15).mode = 0 := by decide +kernel

/-- A link port that is UP to tile `peer`. -/
def upTo (peer : Nat) : LinkPort := { st := 3, peerId := peer, cred := [32, 32, 32] }
/-- A tile whose survey is over: its ID is 1, tile 2 is behind port 5, and port 0 is UP to tile 0. -/
def linked : State :=
  { supplied with
    straps := (0, 1)
    fab := { st := 4, idValid := true, id := 1, route := [(0, 0), (1, 6), (2, 5)], ports := [upTo 0, {}, {}, {}, {}, upTo 2] } }
/-- Tile 1 as the leader of a barrier over tile 2, or over tiles 1 and 2. -/
def leading (m : Nat) (s : State := linked) : State :=
  holding 0x9010 (BitVec.ofNat 32 m) (holding 0x7008 0x0100 s)

/-- Tile 1 as the leader and only member of a barrier. -/
def alone : State := leading 2
/-- The same with a member group whose round is running. -/
def refusing : State := { alone with red := [{ st := 1, live := { cfg := 0x40000000 } }, {}] }
theorem witness_FabricCommandsBegin :
    cmdAt 0x40 3 255 0xFFFF 0 (leading 4) (fun _ w => fieldN w.w0 0 2 == 3) ∧
    cmdAt 0x40 4 0 0 0 { leading 4 with variant := .l } (fun t w => bitB w.w0 2 && !hasAdapt t && tileId t == leaderId t) ∧
    cmdAt 0x40 0 0 0 0 { leading 4 with mode := { prepared := some ⟨0, 0, 0, false⟩ } } (fun t _ => barrierOn t) ∧
    cmdAt 0x40 2 255 0xFFFF 0 (leading 4) (fun t _ => modeMembers t == [2] && routeFor t 2 == 5 && tileId t == leaderId t && !barrierOn t) ∧
    cmdAt 0x40 2 0 0 0 (leading 6) (fun t w => modeMembers t == [1, 2] && !redRefuses t ⟨fieldN w.w0 0 2, 0, 0, false⟩) ∧
    cmdAt 0x40 2 0 0 0 alone (fun t w => modeMembers t == [1] && !redRefuses t ⟨fieldN w.w0 0 2, 0, 0, false⟩ && applyNow t && !barrierOn t) ∧
    cmdAt 0x40 2 0 0 0 { alone with seq := { st := 2, benches := [{}] } } (fun t _ => modeMembers t == [1] && !applyNow t && !barrierOn t) ∧
    cmdAt 0x40 2 0 0 0 refusing (fun t w => modeMembers t == [1] && redRefuses t ⟨fieldN w.w0 0 2, 0, 0, false⟩ && !barrierOn t) ∧
    cmdAt 0x42 1 0 0 0 small (fun t _ => !hasAdapt t) ∧
    cmdAt 0x41 0 0 0 0 { linked with fab := { linked.fab with st := 5 } } (fun t _ => t.fab.st == 5) ∧
    cmdAt 0x41 0 0 0 0 { linked with fab := { linked.fab with resurveyCli := some { o := .hcp } } } (fun t _ => t.fab.resurveyCli.isSome) ∧
    cmdAt 0x41 0 0 0 0 linked (fun t _ => !barrierOn t && t.fab.resurveyCli.isNone && t.fab.st == 4) ∧
    cmdAt 0x42 1 0 0 0 linked (fun t _ => gRole (grp t 1) != 1 && hasAdapt t) ∧
    cmdAt 0x42 1 0 0 0 { linked with red := [{}, { live := { cfg := 0x40000000 } }] }
      (fun t _ => (grp t 1).st == 0 && gRole (grp t 1) == 1 && t.red.length == 2) := by decide +kernel

/-- The SCP mailbox with a command for another tile. -/
def remoteTo (dst : Nat) (w : CmdWords) (s : State) : State := holding 0x13C (BitVec.ofNat 32 (0x80000000 + dst)) (mailed 1 w s)
theorem witness_FabricCommandsBegin_remote :
    (∀ s ∈ [remoteTo 2 (words 0x20 0) { ready with boot := {} }, remoteTo 255 (words 0x20 0) linked, remoteTo 9 (words 0x20 0) linked,
        remoteTo 2 (words 0x20 0) linked],
      accepts s = true ∧ mboxDue s 1 = true ∧ s.mb.nextT ≤ pclkOf s ∧ mboxRemote s 1 = true ∧ mboxWords s 1 = words 0x20 0) ∧
    (let s := remoteTo 255 (words 0x20 0) linked
     regF s 0x13C 0 8 = 255 ∧ s.fab.st = 4 ∧ s.fab.parent = 7 ∧ s.fab.kids = [] ∧ opKnown 0x20 = true ∧ s.mb.peerQ.length < 8) ∧
    (let s := remoteTo 255 (words 0x20 0) { linked with fab := { linked.fab with parent := 1 } }
     regF s 0x13C 0 8 = 255 ∧ s.fab.parent ≠ 7 ∧ portUp s s.fab.parent = false) ∧
    (let s := remoteTo 255 (words 0x20 0) { linked with fab := { linked.fab with parent := 5 } }
     regF s 0x13C 0 8 = 255 ∧ s.fab.dup = false ∧ s.fab.parent < s.fab.ports.length ∧ portUp s s.fab.parent = true) ∧
    routeFor (remoteTo 9 (words 0x20 0) linked) 9 = 7 ∧
    (let s := remoteTo 2 (words 0x20 0) linked
     6 ≤ s.boot.st ∧ routeFor s 2 < 6 ∧ s.fab.dup = false ∧ (portOf s (routeFor s 2)).st = 3 ∧ freeTag s = some 0) := by decide +kernel
theorem test_broadcast_completes_as_its_head_leaves :
    (let s := remoteTo 255 (words 0x20 0) { linked with fab := { linked.fab with parent := 5 } }
     let t := after (.remoteCommand (words 0x20 0)) s
     ¬ MbDone t 1 0 ∧ (portOf t 5).outVc0.map (fun x => (x.1, x.2.data.extractLsb' 128 32)) = [(7, 0x20000000)] ∧
     MbDone (portTick 5 t) 1 0 ∧ MbDone (dropQueues t 5) 1 13) := by unfold MbDone; decide +kernel
theorem test_one_command_in_a_cycle :
    (let w := words 0x41 0
     let t := after (.resurvey .scp w) { mailed 1 w with mb := { st := [0, 1, 0], goT := [0, 2, 0] } }
     pclkOf t = 2 ∧ t.mb.nextT = 3) := by decide +kernel
theorem test_remote_command_leaves :
    (let t := after (.remoteCommand (words 0x20 0)) (remoteTo 2 (words 0x20 0) linked)
     (portOf t 5).outVc0.length = 1 ∧ (mget t.fab.reqs {} 0).isCmd = true) ∧
    MbDone (after (.remoteCommand (words 0x20 0)) (remoteTo 9 (words 0x20 0) linked)) 1 12 := by unfold MbDone; decide +kernel

/-- A reset map in which every source but SUPPLY resets at L3. -/
def levels3 (s : State := ready) : State := { s with fuse := { levels := 0x3FFF } }
theorem witness_ResetAndDebugCommands :
    cmdAt 0x60 0 0 0 0 ready (fun t _ => levelOf t 2 == 0 && t.rst.req.isNone && t.rst.act.isNone && t.rst.unit.isNone) ∧
    cmdAt 0x60 17 0 0 0 (levels3) (fun t w => levelOf t 2 == 3 && fieldN w.w0 0 5 == 17) ∧
    cmdAt 0x60 16 0 0 0 (levels3) (fun t w => levelOf t 2 == 3 && hasUnit t (fieldN w.w0 0 5)) ∧
    (let u : State := { ready with pins := { lifecycle := 1 } }
     let peek (a : Nat) := words 0x70 0 a
     Waits (mailed 2 (peek 0x3FFFFC) (holding 0x6044 1 u)) .dbg 2 (peek 0x3FFFFC) 0x70 ∧
     spadFits (holding 0x6044 1 u) 0x3FFFFC 4 = false ∧
     Waits (mailed 2 (peek 0x3FFFFC) u) .dbg 2 (peek 0x3FFFFC) 0x70 ∧ argsClean (peek 0x3FFFFC) 0x70 = true ∧
     fieldN (peek 0x3FFFFC).w0 0 1 = 0 ∧ spadFits u 0x3FFFFC 4 = true ∧
     eccKind (wordClass u (0x3FFFFC / 8)) (popcount (flipsOf u (0x3FFFFC / 8))) = 0 ∧
     (let v : State := { u with spad := { u.spad with flips := [(0, 3)] } }; eccKind (wordClass v 0) (popcount (flipsOf v 0)) = 2) ∧
     (let v : State := { u with spad := { u.spad with flips := [(0, 7)] } }
      eccKind (wordClass v 0) (popcount (flipsOf v 0)) = 3 ∧ spadFits v 0 4 = true) ∧
     (let w := words 0x70 1 0x1FFFF; Waits (mailed 2 w u) .dbg 2 w 0x70 ∧ argsClean w 0x70 = true ∧ fieldN w.w0 0 1 = 1) ∧
     unitHeld u 7 = false ∧ unitHeld u 1 = false ∧
     (let v : State := { u with rst := { unit := some ⟨7, 1, 2, none, 0, none, []⟩ } }
      unitHeld v 7 = true ∧ Waits (mailed 2 (peek 0x3FFFFC) v) .dbg 2 (peek 0x3FFFFC) 0x70)) := by
  unfold Waits; decide +kernel
theorem witness_ResetAndDebugCommands_poke :
    (let poke (n a : Nat) := words 0x71 n a 0xFFFFFFFF
     Waits (mailed 2 (poke 1 0)) .dbg 2 (poke 1 0) 0x71 ∧ argsClean (poke 1 0) 0x71 = true ∧
     Waits (mailed 2 (poke 0 0x3FFFFC) (seqIn 2)) .dbg 2 (poke 0 0x3FFFFC) 0x71 ∧ seqStopped (seqIn 2) = false ∧
     Waits (mailed 2 (poke 0 0x3FFFFC) (seqIn 5)) .dbg 2 (poke 0 0x3FFFFC) 0x71 ∧ spadFits (seqIn 5) 0x3FFFFC 4 = true ∧
     seqStopped (seqIn 5) = true) := by unfold Waits; decide +kernel
theorem test_reset_commands :
    (answer .reset 0x60 0 0 0 0 ready).rst.req = some (0, 2) ∧ MbDone (answer .reset 0x60 17 0 0 0 levels3) 1 2 ∧
    ((answer .reset 0x60 16 0 0 0 levels3).rst.unit.map (·.unit)) = some 16 := by unfold MbDone; decide +kernel
theorem test_poke_then_peek :
    (let w := words 0x71 0 0x24 0x12345678
     let t := after (.dbgPoke .dbg w) (mailed 2 w)
     let v := words 0x70 0 0x24
     spadByte t 0x25 = 0x56 ∧ reg (after (.dbgPeek .dbg v) (mailed 2 v t)) 0x158 = 0x12345678) := by decide +kernel

-- Resets and start-up.

/-- A tile at SCLK cycle n. -/
def atSclkOf (n : Nat) (s : State := ready) : State := { s with clk := { s.clk with t := 40 * n } }
/-- A STORE in phase p. -/
def storing (p : Nat) (s : State := supplied) : State :=
  { s with store := { s.store with
    job := some { fetch := false, key := 0x02000001, len := 8, off := 0, payload := [1, 2, 3, 4, 5, 6, 7, 8], frame := 62, phase := p
                  tries := 0, prev := none, cli := { o := .scp } } } }

theorem witness_ASourceResetsAtItsFusedLevel :
    levelOf (levels3) 6 = 3 ∧ levelOf (levels3) 4 = 1 ∧ levelOf (levels3) 0 = 0 ∧ fieldN (readReg ready 0x204) 8 2 = 0 := by
  decide +kernel

theorem witness_ResetsClearTheTileAndRelease :
    ready.rst.por = false ∧ (after .porAssert ready).rst.por = true ∧
    (let s := { atSclkOf 2 with rst := { req := some (2, 6) } }
     s.rst.req = some (2, 6) ∧ s.rst.t + 2 ≤ sclkOf s ∧ s.rst.after + 2 ≤ sclkOf s ∧ resetDeferred s = false ∧
       resetDeferred (storing 5) = true) ∧
    (∀ l ∈ [0, 1, 2], let s := { atSclkOf 16 with rst := { act := some (l, 6), actCli := some { o := .scp } } }
      s.rst.act = some (l, 6) ∧ s.rst.req = none ∧ s.rst.por = false ∧ s.rst.t + 16 ≤ sclkOf s) := by decide +kernel
theorem test_reset_release_completes_the_command :
    MbDone (after (.resetRelease 0 0) { atSclkOf 16 with rst := { act := some (2, 2), actCli := some { o := .scp } } }) 1 0 ∧
    (after (.resetRelease 5 7) { atSclkOf 16 with rst := { act := some (0, 2) } }).straps = (5, 7) := by unfold MbDone; decide +kernel

/-- A single-unit reset of unit u, and a tile in it. -/
def rstOf (u phase : Nat) (ack : Option Nat := none) : UnitRst := ⟨u, phase, 2, some { o := .scp }, 0, ack, []⟩
def unitRst (u phase : Nat) (s : State := ready) (ack : Option Nat := none) : State :=
  { s with rst := { s.rst with unit := some (rstOf u phase ack) } }
theorem witness_SingleUnitResetsRunTheHandshake :
    (∀ u ∈ [0, 6, 7, 8, 15], let s := unitRst u 1 (atSclkOf 4) (some 3)
      s.rst.unit = some (rstOf u 1 (some 3)) ∧ 3 < sclkOf s ∧ s.seq.haltReq = none ∧ mwf {} s.arr.planes = true) ∧
    unitIdle (unitRst 6 1 (seqIn 2)) (rstOf 6 1) = false ∧ idleTo (unitRst 6 1 (atSclkOf 5000)) ≤ sclkOf (atSclkOf 5000) ∧
    4 ≤ sclkOf (atSclkOf 4) ∧ (unitRst 3 2).rst.wdogWait = false ∧
    ({ unitRst 3 2 with rst := { (unitRst 3 2).rst with wdogWait := true } } : State).rst.wdogWait = true ∧ (unitRst 15 2 (atSclkOf 4)).fab.ports.length = 6 ∧
    (portOf (unitRst 15 2 (atSclkOf 4 linked)) 5).st = 3 := by decide +kernel
theorem test_unit_is_reset_in_the_cycle_after_its_acknowledgement :
    (let s := unitAck (unitRst 6 1 (atSclkOf 4))
     s.rst.unit = some (rstOf 6 1 (some 4)) ∧ (after .unitIdleAck s).rst.unit.map (·.since) = some 5) := by decide +kernel
theorem test_idle_request_comes_an_sclk_cycle_later :
    (let s := atSclkOf 100 (levels3 (seqIn 2))
     let w := words 0x60 6
     let t := after (.reset .scp w) (mailed 1 w s)
     t.rst.unit = some ⟨6, 0, 2, some { o := .scp }, 101, none, []⟩ ∧ t.seq.haltReq = none ∧ reg t 0x200 = 0 ∧
     (let u := unitReq { t with clk := { t.clk with t := 40 * 101 } }
      u.rst.unit.map (·.phase) = some 1 ∧ u.seq.haltReq.map (·.cause) = some 6 ∧ regF u 0x200 0 6 = 6 ∧ regF u 0x200 9 2 = 3)) := by
  decide +kernel
theorem test_requests_of_one_cycle_are_settled_by_source :
    (let s := atSclkOf 100 (levels3)
     let t := resetRequest (resetRequest s 3 0 none) 2 4 none
     t.rst.unit.map (·.src) = some 2 ∧ regF t 0x214 0 16 = 1) := by decide +kernel
theorem test_unit_reset_completes :
    MbDone (after .unitResetRelease (unitRst 15 2 (atSclkOf 4 linked))) 1 0 ∧
    (portOf (after .unitResetRelease (unitRst 15 2 (atSclkOf 4 linked))) 5).resync = true := by unfold MbDone; decide +kernel

/-- The watchdog enabled with PERIOD 1 and a count. -/
def dogAt (n : Nat) (s : State := ready) : State := { holding 0x218 0x00010001 s with rst := { s.rst with wdog := n } }
theorem witness_TheWatchdogWarnsAndExpires :
    (dogOn (dogAt 512) = true ∧ dogPeriod (dogAt 512) / 2 ≤ (dogAt 512).rst.wdog ∧ (dogAt 512).rst.wdogWarned = false) ∧
    (dogOn (dogAt 1024) = true ∧ dogPeriod (dogAt 1024) ≤ (dogAt 1024).rst.wdog ∧ levelOf (dogAt 1024) 3 ≠ 3 ∧
      (dogAt 1024).rst.unit = none) ∧
    (levelOf (dogAt 1024 levels3) 3 = 3 ∧ (dogAt 1024 levels3).rst.req = none ∧ (dogAt 1024 levels3).rst.act = none ∧
      (dogAt 1024 (unitRst 3 1 levels3)).rst.unit.isSome = true ∧ dogOn (dogAt 1024 (unitRst 3 1 levels3)) = true ∧
      (let u : UnitRst := ⟨3, 0, 2, none, 1, none, []⟩
       let s := dogAt 1024 { levels3 with rst := { unit := some u } }
       s.rst.unit = some u ∧ u.phase = 0 ∧ u.since = sclkOf s + 1 ∧ u.src = 2 ∧ dogOn s = true) ∧
      levelOf (dogAt 1024 (unitRst 3 1)) 3 ≠ 3 ∧ dogOn (dogAt 1024 (unitRst 3 1)) = true) := by
  decide +kernel
theorem test_watchdog_expires : (after .wdogExpire (dogAt 1024)).rst.req = some (0, 3) ∧ Caused (after .wdogWarn (dogAt 512)) 0x6A := by
  unfold Caused; decide +kernel

/-- A fuse map that passes its check: every field 0, whose CRC-16 is 0. -/
def fuses : BitVec 1024 := BitVec.ofNat 1024 (0x5A5A * 2 ^ 1008)
/-- The CRC-16 of bytes that are 0 is 0. -/
theorem crc16_of_zeros (l : List Byte) (h : ∀ b ∈ l, b = 0) : crc16 l = 0 := by
  unfold crc16
  induction l with
  | nil => rfl
  | cons b l ih =>
    rw [List.foldl_cons, h b (by simp), show crc16Byte 0 0 = 0 by decide]
    exact ih fun x hx => h x (by simp [hx])
theorem fuses_crc : crc16 (fuseBytes fuses) = 0 := crc16_of_zeros _ (by decide +kernel)
theorem blank_crc : crc16 (fuseBytes 0) = 0 := crc16_of_zeros _ (by decide +kernel)
theorem witness_TheFuseMapIsCheckedBeforeItIsApplied :
    (let s := atSclkOf 1024 State.reset
     s.boot.st = 0 ∧ accessHeld s = false ∧ s.boot.t0 + 1024 ≤ sclkOf s) ∧
    (BitVec.ofNat 16 (fieldN fuses 1008 16) = 0x5A5A#16 ^^^ crc16 (fuseBytes fuses) ∧
      fieldN fuses 46 2 = 0 ∧ fieldN fuses 62 2 = 0 ∧ fieldN fuses 105 13 = 0) ∧
    BitVec.ofNat 16 (fieldN (0 : BitVec 1024) 1008 16) ≠ 0x5A5A#16 ^^^ crc16 (fuseBytes 0) := by
  rw [fuses_crc, blank_crc]; decide +kernel
theorem test_blank_fuse_map_fails : fuseOk 0 = false ∧ fuseOk fuses = true := by
  unfold fuseOk; rw [fuses_crc, blank_crc]; decide +kernel

/-- Lines of words. -/
def linesOf (l : List Nat) : SMap Nat :=
  (natsTo ((l.length + 15) / 16)).map fun i => (i, (natsTo 16).foldl (fun a j => a + lget l 0 (16 * i + j) * 2 ^ (32 * j)) 0)
/-- An image of one section of TYPE 1 without records, which requires `caps` and keeps out the overlay and RUN 0; `crc` is HDR_CRC. -/
def imageWords (caps crc : Nat) : List Nat :=
  [0x48534C4F, 0x00010000, caps, 0x140, 1, 3, 0, crc] ++ List.replicate 56 0 ++ [0x01000000, 0x120, 4, 1214729159] ++
    List.replicate 12 0
/-- The CRC-32C with each byte's result formed before the next byte is taken. -/
def crcS : List Nat → W32 → W32
  | [], c => c
  | b :: r, c =>
    match (crc32Byte c b).toNat with
    | 0 => crcS r 0
    | n + 1 => crcS r (BitVec.ofNat 32 (n + 1))
theorem crc32c_eq (l : List Nat) : crc32c l = crcS l 0xFFFFFFFF#32 ^^^ 0xFFFFFFFF#32 := by
  have h : ∀ (l : List Nat) (c : W32), l.foldl crc32Byte c = crcS l c := by
    intro l
    induction l with
    | nil => intro c; rfl
    | cons b l ih =>
      intro c
      rw [List.foldl_cons, ih, crcS]
      split <;> rename_i h
      · rw [show crc32Byte c b = 0 from BitVec.eq_of_toNat_eq (by simp [h])]
      · rw [← Nat.succ_eq_add_one, ← h, BitVec.ofNat_toNat, BitVec.setWidth_eq]
  rw [crc32c, h]
/-- A tile in step n of start-up with that image read. -/
def booting (n : Nat) (img : List Nat) (sect : List Nat := img) : State :=
  { State.reset with boot := { st := n, stage := 4, hdr := linesOf img, img := linesOf sect }, sup := { st := 0, firstOk := true } }

/-- The same tile, of the smallest variant, with an image that requires the adaptation unit. -/
def bootingSmall : State := { booting 3 (imageWords 0x80000000 302205128) with variant := .l }
theorem image_header_passes : hdrCrcOk (booting 3 (imageWords 0 2086401434)) = true := by
  simp only [hdrCrcOk, crc32c_eq]; decide +kernel
theorem image_header_passes_small : hdrCrcOk bootingSmall = true := by
  simp only [hdrCrcOk, crc32c_eq]; decide +kernel
theorem image_check_passes : checkFault (booting 3 (imageWords 0 2086401434)) = none := by
  rw [checkFault, tableFault, image_header_passes]; decide +kernel
theorem image_check_misses_a_unit : checkFault bootingSmall = some (6, 0) := by
  rw [checkFault, tableFault, image_header_passes_small]; decide +kernel
theorem witness_StartUpGoesStepByStep :
    (let s := { atSclkOf 12900 State.reset with boot := { st := 1 }, sup := { st := 0, firstOk := true } }
     s.boot.st = 1 ∧ s.sup.firstOk = true ∧ s.boot.t0 + 12900 ≤ sclkOf s ∧ s.clk.trimmed.length = 3 ∧ accessHeld s = false ∧
     192 ≤ s.straps.2) ∧
    passOver (booting 3 (imageWords 0 2086401434)) = true ∧ checkFault (booting 3 []) = some (1, 0) ∧
    (let s := atSclkOf 504 { State.reset with boot := { st := 4 } }; s.boot.t0 + scanLen s ≤ sclkOf s) := by decide +kernel
theorem witness_StartUpGoesStepByStep_load :
    (let s := booting 5 (imageWords 0 2086401434)
     passOver s = true ∧ s.boot.recipeWait = false ∧ s.boot.loadBad = none ∧ s.boot.fail7 = false ∧ s.boot.refused = false ∧ s.vec.checking = [] ∧
     (hdrWord s 0x14).testBit 0 = true ∧ (hdrWord s 0x14).testBit 1 = true) ∧
    (let s : State := { State.reset with boot := { st := 5, loadBad := some (9, 31) } }
     passOver s = true ∧ s.boot.recipeWait = false ∧ s.boot.loadBad = some (9, 31) ∧ accessHeld s = false) ∧
    (let s : State := { State.reset with boot := { st := 5, fail7 := true } }
     passOver s = true ∧ s.boot.loadBad = none ∧ s.boot.fail7 = true ∧ s.boot.refused = false) ∧
    (let s : State := { State.reset with boot := { st := 5, refused := true } }
     passOver s = true ∧ s.boot.loadBad = none ∧ s.boot.refused = true) := by
  decide +kernel
theorem test_start_up_ends :
    (after .loadPassDone (booting 5 (imageWords 0 2086401434))).boot.st = 6 ∧
    Caused (after .loadPassDone (booting 5 (imageWords 0 2086401434))) 0x60 ∧
    (after .imageCheckDone (booting 3 [])).boot.cause = 1 := by unfold Caused; decide +kernel

/-- A program of an END alone, under check, that a RUN from SCP started. -/
def checking (w : W32) : State :=
  { holding 0x3080 0x80003FFF with seq := { st := 1, runCli := some { o := .scp }, pram := [(16383, w)] } }
/-- A recipe of one word under check in entry 63. -/
def rcpChecking (w : W64) : State :=
  { ready with vec := { checking := [63], dir := [(63, { checking := true, start := 511, len := 1 })], recipe := [(511, w)] }
               clk := { t := 8 } }
theorem witness_ProgramsAndRecipesAreChecked :
    (let s := checking 0x98000000
     s.seq.st = 1 ∧ s.seq.runCli = some { o := .scp } ∧ s.boot.run0 = false ∧
     checkProg s 16385 (regF s (0x3080 + 4 * s.seq.prog) 0 14) [] false = true) ∧
    checkProg (checking 0x88000000) 16385 16383 [] false = false ∧
    (let s := rcpChecking 0
     s.vec.checking = [63] ∧ s.vec.checkT + (mget s.vec.dir {} 63).len ≤ pclkOf s ∧ checkRecipe s (mget s.vec.dir {} 63) = none) ∧
    checkRecipe (rcpChecking 0x0400000000000000) (mget (rcpChecking 0).vec.dir {} 63) = some (6, 511) ∧
    (let s : State := { rcpChecking 0 with vec := { (rcpChecking 0).vec with badRcp := [511] } }
     (natsFrom 511 1).filter (fun k => s.vec.badRcp.contains k) = [511]) ∧ (checking 0x98000000).seq.badPram = [] := by decide +kernel
theorem test_program_check :
    MbDone (after .runCheckDone (checking 0x98000000)) 1 0 ∧ (after .runCheckDone (checking 0x98000000)).seq.pc = 16383 ∧
    MbDone (after .runCheckDone (checking 0x88000000)) 1 2 ∧ (mget (after .recipeCheckDone (rcpChecking 0)).vec.dir {} 63).pend = true := by
  unfold MbDone; decide +kernel

-- Clocks, supply, the settings store and the event log.

/-- A tile with the supply guard's counts. -/
def guarded (x : Sup) : State := { ready with sup := x }
theorem witness_TheSupplyGuardFollowsItsSamples :
    (guarded {}).rst.act = none ∧ (guarded {}).boot.st ≠ 0 ∧ (guarded {}).sup.sampleT ≤ sclkOf (guarded {}) ∧
    (let s := guarded { st := 0, nWarn := 4 }; s.sup.st = 0 ∧ svFilt s ≤ s.sup.nWarn ∧ s.store.job = none) ∧
    (let s := guarded { st := 1, level := 150 }; s.sup.st = 1 ∧ svGood s ≤ s.sup.level) ∧
    (let s := guarded { st := 2, level := 149 }; s.sup.st = 2 ∧ s.sup.level < svGood s) ∧
    (let s := guarded { st := 2, level := 150, dwell := 2500 }
     svGood s ≤ s.sup.level ∧ max 1 (svDwell s) ≤ s.sup.dwell ∧ s.clk.cap = false ∧ s.sup.firstOk = false) ∧
    (let s := guarded { nReset := 4 }; svFilt s ≤ s.sup.nReset ∧ s.rst.req = none ∧ s.rst.unit = none) := by decide +kernel
theorem test_supply_guard :
    (after (.svLevelSample 139) (guarded { st := 0 })).sup.nWarn = 1 ∧ (after (.svLevelSample 140) (guarded { st := 0, nWarn := 3 })).sup.nWarn = 0 ∧
    Caused (after .guardEnterLow (guarded { st := 0, nWarn := 4 })) 0x67 ∧
    (let t := after (.svLevelSample 139) (guarded { st := 0 })
     (after (.svLevelSample 139) t).sup.nWarn = 2 ∧ sclkOf (after (.svLevelSample 139) t) = 1) ∧
    (after .supplyResetTrip (guarded { nReset := 4 })).rst.req = some (0, 4) := by unfold Caused; decide +kernel

/-- The clock unit in a state. -/
def clocked (x : Clk) : State := { supplied with clk := x }
theorem witness_TheClockUnitFollowsItsEvents :
    (let s := clocked { winSclk := 500, winSlots := 100, winBusy := 71, sustBand := 2, sust := 19 }
     clocksOn s = true ∧ s.clk.st = 0 ∧ 500 ≤ s.clk.winSclk ∧ s.clk.winSlots ≠ 0 ∧ 70 * s.clk.winSlots < 100 * s.clk.winBusy ∧
     lget s.clk.trimmed false 2 = false ∧ s.clk.cap = false) ∧
    (let s := clocked { retrim := true, retrimBand := 2, retrimSensor := 15, retrimGot := List.replicate 15 1, t := 40 * 49152 }
     s.clk.retrim = true ∧ retrimDue s ≤ sclkOf s ∧ s.clk.retrimBand < 3 ∧ s.clk.trimmed.length = 3 ∧ s.clk.retrimGot.length = 15) ∧
    (let s := clocked { retrim := true, t := 40 * 3072 }; retrimDue s ≤ sclkOf s ∧ s.clk.retrimSensor < 15) ∧
    (let s := holding 0x300 1 (clocked { idleSclk := 1000 }); s.clk.st = 0 ∧ gateIdle s = true ∧ 1000 ≤ s.clk.idleSclk) ∧
    (let s : State := { clocked { st := 1 } with mb := { st := [0, 0, 1] } }; s.clk.st = 1 ∧ wakeCause s = true) ∧
    (let s := clocked { st := 2, wakeSclk := 100 }; s.clk.st = 2 ∧ 100 ≤ s.clk.wakeSclk) ∧
    (let s := clocked { dump := some (0x00BFFFE0, 0), trimmed := [true, true, true] }
     s.clk.dump.isSome = true ∧ spadFits s (0x00BFFFE0 / 32 % 131072 * 32) 256 = false) ∧
    (let s := clocked { st := 1, dump := some (0x00BFFF00, 0) }; s.clk.dump.isSome = true ∧ s.clk.st ≠ 0) ∧
    (let s := clocked { dump := some (0x00BFFF00, 0), trimmed := [true, true, true] }
     0x00BFFF00 / 2 ^ 22 % 4 = 2 ∧ lget s.clk.trimmed false 2 = true ∧ spadFits s (0x00BFFF00 / 32 % 131072 * 32) 256 = true) := by
  decide +kernel
theorem test_clock_unit :
    (after .activityWindowEnd (clocked { winSclk := 500, winSlots := 100, winBusy := 71, sustBand := 2, sust := 19 })).clk.cap = true ∧
    (after .activityWindowEnd (clocked { winSclk := 500, winSlots := 100, winBusy := 70 })).clk.band = 1 ∧
    (after .activityWindowEnd (clocked { winSclk := 500, winSlots := 100, winBusy := 29 })).clk.band = 0 ∧
    (after (.droopDetect 15) supplied).clk.droop = 32768 := by decide +kernel

/-- A job of the settings store whose present phase is over. -/
def jobEnds (p : Nat) (s : State := supplied) (fetch : Bool := false) : State :=
  atSclkOf 100 { s with store := { s.store with
    job := some { fetch := fetch, key := 0x02000001, len := 8, off := 32, payload := [1, 2, 3, 4, 5, 6, 7, 8], frame := 62, phase := p
                  tries := 0, prev := none, cli := { o := .scp } } } }
/-- Whether the present phase of the job is over. -/
def jobDue (s : State) : Bool := match s.store.job with | some j => decide (j.t0 + phaseLen s j ≤ sclkOf s) | none => false
theorem witness_StorePhasesFollowOneAnother :
    (∀ p ∈ [1, 2, 5, 6], jobDue (jobEnds p) = true ∧ (jobEnds p).sup.st = 0) ∧
    jobDue (atSclkOf 140 (jobEnds 3)) = true ∧
    (jobDue (jobEnds 4 (framed 62 0x02000001)) = true ∧ fCrcOk (jobEnds 4 (framed 62 0x02000001)) 62 = true) ∧
    (jobDue (jobEnds 4) = true ∧ fCrcOk (jobEnds 4) 62 = false ∧ targetFrame (jobEnds 4) (some 62) = some 0) ∧
    (let s : State := { jobEnds 4 with store := { (jobEnds 4).store with job := (jobEnds 4).store.job.map fun j => { j with tries := 1 } } }
     jobDue s = true ∧ (s.store.job.map (·.tries)) = some 1) ∧
    (jobDue (jobEnds 1 supplied true) = true ∧ spadFits (jobEnds 1) 32 32 = true) := by decide +kernel
theorem test_store_commits :
    MbDone (after .storePhaseDone (jobEnds 5)) 1 0 ∧ fCommitted (after .storePhaseDone (jobEnds 5)) 62 = true ∧
    (reg (after .fetchDone (jobEnds 1 supplied true)) 0x138 = 8 ∧ spadByte (after .fetchDone (jobEnds 1 supplied true)) 39 = 8 ∧
      spadByte (after .fetchDone (jobEnds 1 supplied true)) 40 = 0) := by unfold MbDone; decide +kernel

/-- An event with a cause in the last PCLK cycle, with ARG 5, `q` entries in the log's queue, and the pulse in a state. -/
def causedAt (c q pulse : Nat) : State :=
  { ready with ev := { due := [(c, 5)], routes := [(c, 15)], queue := List.replicate q ⟨1, 0, 0, 0⟩, pulse := pulse }, clk := { t := 8 } }
theorem witness_TheLogAndThePulseTakeTheirTurn :
    (let s : State := { ready with ev := { queue := [⟨0x7F, 3, 65535, 9⟩], head := 63, log := [(63, { valid := true, unread := true })] }, clk := { t := 8 } }
     s.ev.queue = ⟨0x7F, 3, 65535, 9⟩ :: [] ∧ s.ev.logT ≤ pclkOf s ∧ 0 < pclkOf s) ∧
    (let s : State := { ready with ev := { pulse := 2, merged := true }, clk := { t := 32 } }
     s.ev.pulse ≠ 0 ∧ s.ev.pulseT + 4 ≤ pclkOf s ∧ s.ev.merged = true) ∧
    (let s := causedAt 0x11 0 0
     s.ev.due = [(0x11, 5)] ∧ (routeOf (pclkBegin s) 0x11).testBit 3 = true ∧ (routeOf (pclkBegin s) 0x11).testBit 2 = true ∧
     s.ev.queue.length < 16 ∧ s.ev.pulse = 0 ∧ s.ev.count + s.ev.due.length ≤ 0xFFFFFFFF) ∧
    (let s := causedAt 0x11 16 1; (routeOf (pclkBegin s) 0x11).testBit 3 = true ∧ 16 ≤ s.ev.queue.length ∧ s.ev.pulse = 1) ∧
    (let s : State := { causedAt 0x11 0 0 with ev := { (causedAt 0x11 0 0).ev with routeNew := [(0x11, 1)] } }
     (routeOf (pclkBegin s) 0x11).testBit 3 = false ∧ (routeOf (pclkBegin s) 0x11).testBit 2 = false) ∧
    ready.ev.due = [] := by decide +kernel
theorem test_log_wraps :
    (let t := after .logWrite { ready with ev := { queue := [⟨0x69, 1, 5, 9⟩], head := 63, log := [(63, { valid := true, unread := true })] }, clk := { t := 8 } }
     t.ev.head = 0 ∧ t.ev.overwritten = 1 ∧ (mget t.ev.log {} 63).arg = 5) := by decide +kernel
theorem test_cause_is_raised_in_the_next_cycle :
    (let t := pclkBegin (causedAt 0x11 0 0)
     t.ev.pend.getLsbD 0x11 = true ∧ t.ev.queue.length = 1 ∧ t.ev.count = 1 ∧ t.ev.pulse = 1 ∧ t.ev.pulseT = 2) ∧
    (pclkBegin (causedAt 0x11 16 0)).ev.dropped = 1 := by decide +kernel

-- The memory port, the channels, the cache and the windows.

/-- A request with its holder. -/
def req (who : MWho) (write : Bool := false) (beats : Nat := 1) : MReq := { who := who, write := write, beats := beats }
/-- A tile with requests ready and outstanding. -/
def portOn (ready' : List MReq) (out : SMap MReq) (s : State := supplied) : State :=
  { s with memp := { gen := 15, ready := ready', out := out } }
/-- An egress row of channel 127 with its write ready; its sector holds `s`'s bytes. -/
def egressing (s : State) : State :=
  { s with chans := [(127, { st := 1, kibs := [{ kid := 3, op := 1, rows := 1 }], rows := [{ id := 2, kid := 3, outN := 1 }] })]
           memp := { ready := [req (.chanRow 127 2) true] } }
theorem witness_TheMemoryPortAcceptsAndAnswers_egress :
    (∀ e ∈ [(egressing (dmaFresh supplied 0 7), false), (egressing supplied, true)], ∃ rw q,
      let s := e.1
      let r := req (.chanRow 127 2) true
      portRuns s = true ∧ s.memp.req = none ∧ s.memp.ready.find? (mayPresent s) = some r ∧ freeSlot s r.write = some 64 ∧
      (chan s 127).rows.find? (·.id == 2) = some rw ∧ (chan s 127).kibs.find? (·.kid == rw.kid) = some q ∧
      decide ((egressRead { s with memp := { s.memp with ready := s.memp.ready.erase r } } q rw r).1.2.2 = 0) = !e.2) := by
  intro e he
  refine ⟨{ id := 2, kid := 3, outN := 1 }, { kid := 3, op := 1, rows := 1 }, ?_⟩
  revert e; decide +kernel
/-- A tile whose port presents a request in slot 0. -/
def asking (r : MReq) (s : State := supplied) : State := { s with memp := { req := some (0, r) } }
theorem witness_TheMemoryPortAcceptsAndAnswers :
    (let r := req (.chanKib 5)
     let s := portOn [r] []
     portRuns s = true ∧ s.memp.req = none ∧ s.memp.ready.find? (mayPresent s) = some r ∧ freeSlot s r.write = some 0 ∧
       r.write = false) ∧
    (∀ b ∈ [false, true],
      let s := asking (req (.chanKib 5) b)
      clocksOn s = true ∧ s.clk.st = 0 ∧ accessHeld s = false ∧ s.memp.req = some (0, req (.chanKib 5) b)) ∧
    cacheSets (holding 0x6044 1 (asking (req (.writer 3) true))) ≠ 0 ∧
    ready.memp.beat = none ∧ ready.memp.beatT ≤ mclkOf ready ∧
    (let s := portOn [] [(0, req .image)]
     (tagged s 1920).map (·.who) = some .image ∧ worse 0 2 ≠ 0) ∧
    (let r := req (.writer 3) true
     let s := portOn [r] [(64, req (.writer 1) true)]
     s.memp.ready.find? (mayPresent s) = some r ∧ freeSlot s r.write = some 65 ∧ badSectors r.data r.checks r.sec.testBit = 0) ∧
    (let s := portOn [] [(63, req (.chanRow 127 2) false 2)]
     (tagged s 1983).map (fun r => (r.write, r.got.length, r.beats)) = some (false, 0, 2)) ∧
    (let s := portOn [] [(63, req (.chanRow 127 2))]
     (tagged s 1983).map (fun r => decide (r.got.length + 1 = r.beats)) = some true ∧ worse 0 2 ≠ 0) ∧
    (∀ who ∈ [MWho.writer 3, .chanRow 127 2, .seam 255],
      (tagged (portOn [] [(95, req who true)]) 2015).map (fun r => (r.write, r.who)) = some (true, who)) ∧
    (let s : State := { supplied with acc := { xfers := [{ seam := 255, reload := false, started := true, left := 9 }] } }
     s.acc.xfers.map (fun x => (x.seam, x.started, decide (1 < x.left))) = [(255, true, true)]) ∧
    tagged (portOn [] [(63, req (.chanKib 5))]) 63 = none ∧ tagged ready 2047 = none ∧
    (let s := portOn [] [(95, req (.writer 3) true)]
     (mget s.memp.out {} 95).who ≠ .none ∧ timerEnd (mget s.memp.out {} 95) ≤ mclkOf s) := by decide +kernel
theorem test_memory_port :
    Caused (after (.memWriteResponse 95 2) (portOn [] [(95, req (.writer 3) true)])) 0x2C ∧
    Caused (after (.memWriteResponse 2015 2) (portOn [] [(95, req (.writer 3) true)])) 0x29 ∧
    (after (.memTimeout 95) (portOn [] [(95, req (.writer 3) true)])).memp.gen = 0 ∧
    (let t := after .memRequestIssue (asking (req (.writer 3) true 2)); t.memp.req = none ∧ t.memp.beats.map (·.last) = [false, true]) := by
  unfold Caused; decide +kernel
theorem test_a_second_beat_waits_for_the_next_cycle :
    (let t := after (.memWriteResponse 0 0) (after (.memWriteResponse 0 0) ready)
     mclkOf t = 1 ∧ reg t 0x1CC = 2) := by decide +kernel
theorem test_the_presented_request_is_held :
    (let s := presentTick 2 (portOn [req (.chanKib 5), req (.chanKib 6)] [])
     s.memp.req = some (0, req (.chanKib 5)) ∧ (presentTick 2 s).memp.req = s.memp.req ∧ s.memp.ready = [req (.chanKib 6)]) := by
  decide +kernel

/-- A channel that has filled half 0 of ring 63 and begun half 1. -/
def waiting : State :=
  { supplied with
    chans := [(127, { st := 2, kibs := [{ ring := 63, rows := 4 }], halves := [⟨63, 0, 64, 0⟩] })]
    rings := [(63, { en := true, nrows := 4, prod := 2, beg := 4 })], memp := { mwait := 4096 } }
/-- A row of channel 127 for which lines of the read cache are on their way. -/
def hitting (h : CacheHit) : State :=
  { supplied with
    chans := [(127, { st := 1, kibs := [{ kid := 1, ring := 63, rows := 2 }], rows := [{ id := 3, kid := 1, ext := 64, outN := 1 }] })]
    spad := { hits := [h] } }
theorem witness_WaitsEndAndHitsArrive :
    waitMay waiting 127 = true ∧ (4096 ≤ waiting.memp.mwait ∧ breakChan waiting = some 127 ∧ fillRing (chan waiting 127) = some 63) ∧
    (let s : State := { supplied with spad := { arb := { dma := [(31, 1)], starve := [(31, 64)] } } }
     mget s.spad.arb.starve 0 31 = 64 ∧ 0 < mget s.spad.arb.dma 0 31) ∧
    (let h : CacheHit := ⟨127, 3, 64, [{ data := 1 }], 0⟩
     let s := hitting h
     let rw : RowFl := { id := 3, kid := 1, ext := 64, outN := 1 }
     s.spad.hits.find? (fun h => h.c == 127) = some h ∧ h.due ≤ mclkOf s ∧ (chan s 127).stopTo = none ∧ (chan s 127).tail = none ∧
     (∀ k ∈ (chan s 127).kibs, k.op % 2 = 0) ∧ (∀ x ∈ (chan s 127).rows, x.id ≠ h.id → rowReady x = false) ∧ h.addr % 32 = 0 ∧
     h.lines.length ≤ 4 ∧ rw ∈ (chan s 127).rows ∧ rw.id = h.id ∧ rw.ext % 32 = 0 ∧ 0 < rowSize (chan s 127) rw) := by decide +kernel
theorem test_hit_brings_its_sector :
    ((chan (after (.cacheHitDelivery 127) (hitting ⟨127, 3, 64, [{ data := 7 }], 0⟩)) 127).rows.map fun x => mget x.data 0 0) = [7] := by
  decide +kernel
theorem test_mutual_wait_is_broken :
    (let t := after .deadlockBreak waiting
     (chan t 127).st = 5 ∧ (chan t 127).cause = 4 ∧ (chan t 127).posA = 64 ∧ (ringOf t 63).prod = 0 ∧ (ringOf t 63).beg = 0) := by
  decide +kernel

/-- A request packet from tile 2 to window 15 of tile 1. -/
def toWindow (ty off : Nat) (body : List Sector := []) : Packet :=
  packetOf { dst := 1, src := 2, ty := ty, tag := 9, pwin := 15, gen := 3, off := off, count := 1, step := 1 } body
/-- A tile with window 15 and that packet before its check. -/
def atWindow (x : Win) (p : Packet) (s : State := linked) : State :=
  { s with wins := [(15, x)], fab := { s.fab with chk := [(5, p)] } }
theorem witness_WindowsCheckLandAndClose :
    (let s := atWindow { mode := 1, gen := 2 } (toWindow 0 0)
     spadPort s = true ∧ s.fab.chk.find? (fun e => e.1 == 5) = some (5, toWindow 0 0) ∧ s.fab.land = [] ∧ unitHeld s 7 = false ∧
     windowStatus s (headOf (toWindow 0 0).head) = 1) ∧
    (let s := atWindow { mode := 1, gen := 3, rd := true, size := 1, peer := 2 } (toWindow 0 63)
     windowStatus s (headOf (toWindow 0 63).head) = 0 ∧ (headOf (toWindow 0 63).head).ty = 0) ∧
    (let u : State := { linked with rings := [(63, { en := true, landing := true })] }
     let s := atWindow { mode := 1, gen := 3, wr := true, land := true, lring := 63, peer := 2 } (toWindow 1 0 [{}]) u
     windowStatus s (headOf (toWindow 1 0 [{}]).head) = 0) ∧
    (let s := atWindow { mode := 1, gen := 3, wr := true, base := 2047, size := 1, peer := 255 } (toWindow 1 63 [{}])
     windowStatus s (headOf (toWindow 1 63 [{}]).head) = 0 ∧ spadFits s (32 * exportSector (mget s.wins {} 15) 63) 32 = true ∧
     1 ≤ (headOf (toWindow 1 63 [{}]).head).step) := by decide +kernel
/-- Landing writes to ring 63, of one row of one sector in each half. -/
def landing (off beg : Nat) (late : Bool := false) : State :=
  { linked with
    rings := [(63, { en := true, landing := true, rsize := 1, nrows := 2, beg := beg })]
    fab := { linked.fab with land := [⟨5, 15, 0, 63, off, 1, 7, 2, 9, [{}], late⟩] } }
theorem witness_WindowsCheckLandAndClose_land :
    (let s : State := { landing 0 0 with wins := [(15, { mode := 1, closing := some { o := .scp } })] }
     (mget s.wins {} 15).mode = 1 ∧ (mget s.wins {} 15).closing = some { o := .scp } ∧ (∃ l ∈ s.fab.land, l.win = 15 ∧ l.gen = 0) ∧ (mget s.wins {} 15).fin = [] ∧
     (∀ l ∈ linked.fab.land, l.win ≠ 15) ∧ mboxOf .scp = some 1) ∧
    (let s : State := { linked with fab := { linked.fab with wfails := [(15, 1, 3)] } }; s.fab.wfails = (15, 1, 3) :: []) ∧
    (spadPort (landing 0 0) = true ∧ (landFirst (landing 0 0) 5 false).isSome = true ∧
      (landFirst (landing 0 0) 5 false).map (landReady (landing 0 0)) = some true) ∧
    (landFirst (landing 1 0) 5 false).map (landReady (landing 1 0)) = some false ∧
    (landFirst (landing 1 0 true) 5 true).map (landReady (landing 1 0 true)) = some false ∧
    (landFirst (landing 0 0 true) 5 true).map (landReady (landing 0 0 true)) = some true := by decide +kernel
theorem test_landing_write_fills_its_half :
    (let t := after (.landingWrite 5) (landing 0 0)
     (ringOf t 63).prod = 1 ∧ halfTag (ringOf t 63) 0 = 7 ∧ t.fab.land = []) ∧
    (after (.landingWrite 5) (landing 1 0)).fab.land.map (·.waiting) = [true] := by decide +kernel
theorem test_close_waits_for_the_writes_of_its_generation :
    (let s : State := { landing 1 0 with wins := [(15, { mode := 1, closing := some { o := .scp } })] }
     let t := after (.exportCloseEffect 15) s
     (mget t.wins {} 15).mode = 0 ∧ (mget t.wins {} 15).gen = 1 ∧ (mget t.wins {} 15).fin = [(0, { o := .scp })] ∧
     MbDone (after (.exportCloseEffect 15) { s with wins := [(15, { mode := 1, gen := 4, closing := some { o := .scp } })] }) 1 0) := by
  unfold MbDone; decide +kernel

-- The sequencer's program.

/-- A sequencer that reads the item at `pc` in the present slot; `w` and `v` are its first words. -/
def reading (pc w : Nat) (v : Nat := 0) (f : Seq → Seq := id) : State :=
  { ready with clk := { slot := 5 }, seq := f { st := 2, pc := pc, pram := [(pc, BitVec.ofNat 32 w), (pc + 1, BitVec.ofNat 32 v)] } }
/-- The item next read is of a type and n words, and sound. -/
def itemNow (ty n : Nat) (s : State) : Bool :=
  itemIs ty s && !s.seq.frozen && (itemDue s).any (fun d => decide (d ≤ s.clk.slot)) &&
    s.seq.badPram.all fun x => decide (x < s.seq.pc) || decide (s.seq.pc + n ≤ x)
/-- What `itemNow` says, in the words of the statements. -/
theorem itemNext_of_itemNow {ty n : Nat} {s : State} (h : itemNow ty n s = true) : ItemNext s ty n := by
  simp only [itemNow, Bool.and_eq_true, Option.any_eq_true, decide_eq_true_eq, List.all_eq_true, Bool.or_eq_true,
    Bool.not_eq_true'] at h
  exact ⟨h.1.1.1, h.1.1.2, h.1.2, h.2⟩

/-- The item types and their words. -/
def itemTypes : List (Nat × Nat) :=
  [(1, 6), (2, 2), (3, 2), (4, 4), (5, 4), (6, 4), (0x20, 2), (0x21, 1), (0x22, 1), (0x23, 1), (0x24, 2), (0x25, 2), (0x26, 1)]
/-- A loop that is active, whose body is the word before the one read. -/
def frame (pc left : Nat) (forever : Bool := false) : LoopFrame := { body := pc - 1, left := left, forever := forever, after := pc + 1 }
theorem witness_ProgramItemsMoveTheSequencer :
    (∀ e ∈ itemTypes, itemNow e.1 e.2 (reading (16384 - e.2) (e.1 * 2 ^ 26)) = true) ∧
    (∀ e ∈ itemTypes, let s := reading 0 (e.1 * 2 ^ 26) 0 fun q => { q with badPram := [e.2 - 1] }
      itemIs e.1 s = true ∧ s.seq.frozen = false ∧ (itemDue s).any (fun d => decide (d ≤ s.clk.slot)) = true ∧
      (e.2 - 1) ∈ s.seq.badPram) ∧
    (let w := 0x21 * 2 ^ 26 + 3
     itemNow 0x21 1 (reading 9 w 0 fun q => { q with frames := List.replicate 4 (frame 9 1) }) = true ∧
     itemNow 0x21 1 (reading 9 w) = true ∧ bitB (BitVec.ofNat 32 w) 25 = false ∧ cntOf (reading 9 w) 0 = 0 ∧
     bitB (BitVec.ofNat 32 (w + 2 ^ 25)) 25 = true) ∧
    (let w := 0x22 * 2 ^ 26
     itemNow 0x22 1 (reading 9 w 0 fun q => { q with frames := [{ frame 9 1 with after := 11 }] }) = true ∧
     itemNow 0x22 1 (reading 9 w 0 fun q => { q with frames := [frame 9 2] }) = true ∧
     itemNow 0x22 1 (reading 9 w 0 fun q => { q with frames := [frame 9 1] }) = true ∧
     hasStart (reading 9 w) 9 1 8 = false) ∧
    (let w := 0x26 * 2 ^ 26
     itemNow 0x26 1 (reading 9 w 0 fun q => { q with recs := [{}] }) = true ∧
     itemNow 0x26 1 (reading 9 w 0 fun q => { q with benches := [{}] }) = true ∧
     (reading 9 w).seq.stopCli = [] ∧ (reading 9 w).seq.haltCli = []) ∧
    (let s := reading 9 (0x27 * 2 ^ 26)
     (itemDue s).any (fun d => decide (d ≤ s.clk.slot)) = true ∧ itemBad s = true ∧ s.seq.pc ∉ s.seq.badPram) ∧
    (let s := reading 9 (0x25 * 2 ^ 26 + 63 * 2 ^ 20) 5 fun q => { q with badTd := [511] }
     itemNow 0x25 2 s = true ∧ 8 * fieldN (pramWord s s.seq.pc) 20 6 + 7 ∈ s.seq.badTd) ∧
    itemBad (reading 16384 0) = true := by decide +kernel
theorem test_failed_words_are_counted :
    (let s := reading 9 (0x20 * 2 ^ 26 + 100) 7 fun q =>
       { q with badTd := [1, 6, 16], recs := [{ ty := 2, w := [BitVec.ofNat 32 (2 * 2 ^ 26), 0] }] }
     let t := after .progStart s
     t.seq.staged.map (badTdWords s) = some [1, 6] ∧ regF t 0xE040 0 32 = 2 ∧ t.seq.haltReq.map (·.cause) = some 4) := by
  decide +kernel
theorem test_program_items :
    (after .progLoop (reading 9 (0x21 * 2 ^ 26 + 3))).seq.pc = 12 ∧
    (after .endloop (reading 9 (0x22 * 2 ^ 26) 0 fun q => { q with frames := [frame 9 2] })).seq.pc = 8 ∧
    (after .endloop (reading 9 (0x22 * 2 ^ 26) 0 fun q => { q with frames := [frame 9 1] })).seq.pc = 10 ∧
    reg (after .cntset (reading 9 (0x23 * 2 ^ 26 + 2 ^ 24 + 77))) 0x3024 = 77 ∧
    reg (after .tdadd (reading 9 (0x25 * 2 ^ 26 + 63 * 2 ^ 20) 5)) 0x3BFC = 5 ∧
    (after .progEnd (reading 9 (0x26 * 2 ^ 26))).seq.st = 0 ∧ Caused (after .reservedItem (reading 9 (0x27 * 2 ^ 26))) 4 := by
  unfold Caused; decide +kernel
theorem test_start_stages_a_bench :
    ((after .progStart (reading 9 (0x20 * 2 ^ 26 + 100) 7)).seq.staged.map fun b => (b.len, b.seed)) = some (100, 7) := by
  decide +kernel

/-- A bench in progress with records, at slot n. -/
def running (recs : List Rec) (n : Nat := 100) (b : Bench := {}) : State :=
  { supplied with clk := { slot := n }, seq := { st := 2, benches := [{ b with recs := recs }] } }
/-- A bench staged. -/
def stagedB (b : Bench) : State := { ready with clk := { slot := 9 }, seq := { st := 2, staged := some b, stagedAt := 8 } }
/-- A frozen tile. -/
def frozen (x : Frz) (n : Nat := 0) (halts : Nat := 0) : State :=
  { holding 0x3000 (BitVec.ofNat 32 (5 + halts * 256)) with seq := { st := 2, frozen := true, frz := x, frzLen := n } }
theorem witness_BenchesStartRecordsFinishAndFreezesEnd :
    (∀ bad ∈ [false, true], let s := stagedB { bad := bad, recs := [{}] }
      benchFits s = true ∧ benchDue s = some 9 ∧ s.seq.frozen = false) ∧
    (let s := running [{ ty := 1, n := 1024 }]
     (recOf s 0 0).isSome = true ∧ recReady 0 0 s = true) ∧
    (let s := running [{ ty := 1, n := 1024 }, { pos := 31, ty := 3 }]
     recReady 0 0 s = true ∧ ∃ y ∈ (running [{ ty := 1, n := 1024 }, { pos := 31, ty := 3 }]).seq.benches.flatMap (·.recs),
       y.pos ≠ 0 ∧ y.fin = false) ∧
    (frzOver (frozen {}) = true ∧ (frozen {}).vec.vsts = []) ∧
    (∀ h ∈ [0, 1], let s := frozen { ecc := 1 } 33 h
      frzTooLong s = true ∧ regF s 0x3000 0 5 ≠ 0 ∧ s.seq.longDone = false) := by decide +kernel
theorem test_benches :
    (after .benchStart (stagedB { recs := [{}] })).seq.benches.length = 1 ∧ (after .benchStart (stagedB { bad := true })).seq.st = 5 ∧
    (after (.recordFinish 0 0) (running [{ ty := 1, n := 1024 }])).seq.benches = [] ∧
    (after .freezeEnd (frozen {})).seq.frozen = false ∧ Caused (after .freezeLong (frozen { ecc := 1 } 33)) 7 := by
  unfold Caused; decide +kernel

-- The array, the derrick and the drains.

/-- Record `pos` of bench 0 is of a type and in progress, the slots go on, and `p` holds of it. -/
def recIs (s : State) (pos ty : Nat) (p : Bench → Rec → Bool := fun _ _ => true) : Bool :=
  match recOf s 0 pos with
  | some (b, r) => decide (r.ty = ty) && seqActive s && !s.seq.frozen && p b r
  | none => false
/-- What `recIs` says, in the words of the statements. -/
theorem recNow_of_recIs {s : State} {pos ty : Nat} {p : Bench → Rec → Bool} (h : recIs s pos ty p = true) :
    ∃ b r, RecNow s 0 pos ty b r ∧ p b r = true := by
  unfold recIs at h
  split at h
  · next b r e =>
    simp only [Bool.and_eq_true, decide_eq_true_eq, Bool.not_eq_true'] at h
    exact ⟨b, r, ⟨e, h.1.1.1, h.1.1.2, h.1.2⟩, h.2⟩
  · simp at h

/-- One record of a type with its words and progress, with descriptor 0 of KIND `kind`. -/
def oneRec (ty : Nat) (w : List Nat) (kind : Nat := 1) (f : Rec → Rec := id) (slot : Nat := 100) : State :=
  running [f { ty := ty, w := w.map (BitVec.ofNat 32) }] slot { tdf := [(0, BitVec.ofNat 32 (kind * 2 ^ 29))] }
/-- A tile whose array holds a wave that entered at slot 0 and whose record is record 0 of bench 0. -/
def leaving (w : Wave) (s : State := oneRec 1 []) : State := { s with arr := { waves := [w] }, clk := { slot := 256 } }
/-- A wave of one column, with two inputs 3 and 255 (that is −1). -/
def wave1 : Wave := { uid := 0, pos := 0, entry := 0, benchStart := 0, bep := 0, acts := [some 3, some 255], cols := 1, row := 1023
                      met := [[{ data := [(0, 5)] }], [{ data := [(0, 254)] }]] }
/-- A seam bound to the last two rows. -/
def lastRows (s : State) : State := { s with seams := [(0, { st := 4, nrows := 1, base := 1022 })] }

theorem witness_WavefrontsEnterAndLeaveTheArray :
    (let s : State := { oneRec 1 [] with arr := { waves := [{ wave1 with entry := 100 }] } }
     recIs s 0 1 (fun b r => decide (r.n < aWaves r) && decide (aDue b r r.n ≤ s.clk.slot) && !startedBefore b.uid r.pos 0 0) = true ∧
     (waveNow s).isSome = true) ∧
    (let s : State := { oneRec 1 [] with arr := { waves := [{ wave1 with uid := 1, entry := 100 }] } }
     recIs s 0 1 (fun b r => decide (aDue b r r.n ≤ s.clk.slot) && startedBefore b.uid r.pos 1 0 &&
       decide ((actsOf (inTurn s 0 0) b r r.n).1 = .acts [])) = true ∧ (waveNow s).map (·.uid) = some 1) ∧
    (let s : State := { oneRec 1 [] 2 with rings := [(0, { en := true })] }
     waveNow s = none ∧ recIs s 0 1 (fun b r => decide ((actsOf (inTurn s 0 0) b r r.n).1 = .wait)) = true) ∧
    (let s := oneRec 1 []
     waveNow s = none ∧ recIs s 0 1 (fun b r => decide ((actsOf (inTurn s 0 0) b r r.n).1 = .acts [])) = true) ∧
    ((leaving wave1).arr.waves = wave1 :: [] ∧ wave1.entry + 256 ≤ (leaving wave1).clk.slot ∧ (leaving wave1).seq.frozen = false ∧
      (recOf (leaving wave1) 0 0).isSome = true ∧ wave1.acts ≠ [] ∧ wave1.opfmt = 0 ∧ wave1.tfmt = 8 ∧ wave1.add = false ∧
      wave1.checked = false ∧ wave1.cols ≤ 128 ∧ rowSeam (leaving wave1) 1023 = false ∧
      rowSeam (lastRows (leaving wave1)) 1023 = true) ∧
    (∀ mm ∈ [false, true], let s : State := { oneRec 1 [] with arr := { csums := [⟨0, 0, 100, mm, 7, 15, 15, 65535⟩] } }
      s.arr.csums.map (fun c => decide (c.due ≤ s.clk.slot) && decide (c.tag < 8) && decide (c.epoch < 16) &&
        decide (c.opfmt < 16) && decide (c.slot < 65536)) = [true]) ∧
    (let s : State := { oneRec 2 [] with arr := { active := true, ldOwner := 3 } }
     recIs s 0 2 (fun b r => decide (r.n < dRows r) && !r.lost && derrickBusy s b r) = true) ∧
    (let s : State := { oneRec 2 [] 2 with rings := [(0, { en := true, rsize := 32 })] }
     recIs s 0 2 (fun b r => !derrickBusy s b r && decide ((feedRow (inTurn s 0 0) b r 0 r.n 128 true true 1).1 = .wait)) = true) ∧
    (let s : State := { oneRec 2 [] 2 with rings := [(0, {})] }
     recIs s 0 2 (fun b r => !derrickBusy s b r && decide ((feedRow (inTurn s 0 0) b r 0 r.n 128 true true 1).1 = .nothing)) = true) ∧
    (let s := oneRec 2 []
     recIs s 0 2 (fun b r => match (feedRow (inTurn s 0 0) b r 0 r.n 128 true true 1).1 with | .row _ bad => bad | _ => false) = true) ∧
    (let s := (natsTo 4).foldl (fun s i => dmaFresh s i 1) (oneRec 2 [])
     recIs s 0 2 (fun b r => match (feedRow (inTurn s 0 0) b r 0 r.n 128 true true 1).1 with | .row _ bad => !bad | _ => false) = true) := by
  decide +kernel
/-- The wave with the formats of its operands and its total, with the partial 2.0; and the tile that it leaves, whose target row
(and the one after) has metadata and a data word. -/
def waveAs (op tf : Nat) (add : Bool) : Wave := { wave1 with opfmt := op, tfmt := tf, add := add, part := [some 0x40000000] }
def onto (w : Wave) (m m2 : Meta := {}) (a c : Nat := 0) : State :=
  { leaving w with acc := { md := [(0, m2), (1023, m)], data := [(0, c), (1023 * 128, a)] } }
/-- The totals' formats with the codes of their rows (R92) and a format of operands for each. -/
def totals : List (Nat × Nat × Nat × Nat) := [(0, 8, 1, 1), (1, 8, 1, 1), (5, 8, 1, 1), (0, 9, 2, 3), (5, 9, 2, 3), (2, 7, 4, 4), (7, 7, 4, 4), (3, 10, 5, 6)]
/-- The format and state of a row, and the rows that a step writes. -/
def mf (f : Nat) (poison : Bool := false) : Meta := { fmt := f, stale := false, poison := poison }
def wqOf (t : State) : List (Nat × List (Option W32) × Nat) := t.acc.wq.map fun x => (x.row, x.lanes, x.md.passes)
/-- What the statement asks of a wave that leaves the array, but for its row. -/
def leaves (w : Wave) (s : State) : Bool :=
  decide (s.arr.waves = [w]) && decide (w.entry + 256 ≤ s.clk.slot) && !s.seq.frozen && (recOf s w.uid w.pos).isSome &&
    decide (w.acts ≠ []) && decide (w.cols ≤ 128) && decide (s.acc.flips = []) &&
    ([0, 1, 5].contains w.opfmt && [8, 9].contains w.tfmt || [2, 3, 4, 6, 7].contains w.opfmt && [7, 10].contains w.tfmt)
theorem witness_WavefrontsEnterAndLeaveTheArray_totals :
    totals.all (fun e => [false, true].all fun add =>
      let w := waveAs e.1 e.2.1 add
      let s := onto w (mf e.2.2.1) (mf e.2.2.2)
      leaves w s && !rowSeam s w.row && !rowSeam s ((w.row + 1) % 1024) && decide ((arrRow s w.row).2.1 = mf e.2.2.1) &&
        (!isPair w.tfmt || decide ((arrRow s ((w.row + 1) % 1024)).2.1 = mf e.2.2.2))) = true := by decide +kernel
theorem witness_WavefrontsEnterAndLeaveTheArray_rows :
    (arrRow (onto (waveAs 0 8 true) (mf 4)) 1023).2.1.fmt ≠ 1 ∧
    (arrRow (onto (waveAs 0 8 true) (mf 1 true)) 1023).2.1.poison = true ∧
    rowSeam { onto (waveAs 3 10 true) with seams := [(0, { st := 4, nrows := 1, base := 0 })] } 0 = true ∧
    (arrRow (onto (waveAs 3 10 true) (mf 5) (mf 6 true)) 0).2.1.poison = true := by decide +kernel
theorem witness_WavefrontsEnterAndLeaveTheArray_sums :
    (let v : AccWrite := { due := 0, row := 9, kind := .arr, uid := 0, pos := 0, lanes := [some 1], md := {}, add := [2] }
     v.lanes.length ≤ 128 ∧ v.add.length = v.lanes.length ∧ lget v.lanes none 0 = some 1) ∧
    csumOn { wave1 with checked := true, met := [[{ dfmt := 0 }], [{ dfmt := 0 }]] } = true ∧ csumOn wave1 = false := by
  decide +kernel
theorem test_integer_wavefronts :
    wqOf (after .wavefrontWritePort (onto (waveAs 0 8 true) (mf 1) {} 0x7FFFFFFE 0)) = [(1023, [some 0x7FFFFFFF], 1)] ∧
    wqOf (after .wavefrontWritePort (onto (waveAs 0 9 true) (mf 2) (mf 3) 0xFFFFFFFE 7)) =
      [(1023, [some 15], 1), (0, [some 8], 1)] := by decide +kernel
theorem test_float_wavefronts :
    wqOf (after .wavefrontWritePort (onto (waveAs 2 7 true) (mf 4) {} 0x3F800000 0)) =
      [(1023, [some 0x3F800000], 1)] ∧
    wqOf (after .wavefrontWritePort (onto (waveAs 3 10 true) (mf 5) (mf 6) 0x3F800000 0x3F800000)) =
      [(1023, [some 0x40800000], 1), (0, [some 0], 1)] := by decide +kernel
theorem test_wavefront_slips_and_halts :
    (let t := after .wavefrontWritePort (onto (waveAs 0 8 true) (mf 4 true))
     wqOf t = [(1023, [some 17], 0)] ∧ t.seq.haltReq.map (·.cause) = some 1 ∧ t.ev.due.map (·.1) = [5]) ∧
    (let t := after .wavefrontWritePort (onto (waveAs 0 8 true) (mf 1 true))
     wqOf t = [] ∧ t.seq.haltReq.map (·.cause) = some 4) := by decide +kernel
theorem test_earlier_wavefront_displaces :
    ((after (.wavefrontIssue 0 0) { oneRec 1 [] with arr := { waves := [{ wave1 with uid := 1, entry := 100 }] } }).arr.waves.map
      fun x => (x.uid, x.entry, x.acts.length)) = [(1, 100, 0), (0, 100, 0)] := by decide +kernel
theorem test_wavefront_leaves :
    ((after .wavefrontWritePort (leaving wave1)).acc.wq.map fun x => (x.row, x.due, x.lanes)) = [(1023, 259, [some 17])] := by
  decide +kernel

/-- A drain record: to accumulator row 5, of 1 row and 2 columns. -/
def drain1 : List Nat := [0x03 * 2 ^ 26 + 2 ^ 12 + 2 * 2 ^ 5, 2 * 2 ^ 14 + 1 * 2]
/-- A tile with that drain, whose total is row 9 with its metadata. -/
def draining (m : Meta) (w : List Nat := drain1) : State :=
  { running [{ ty := 3, w := w.map (BitVec.ofNat 32) }] 100 { tdf := [(0, 0xA0000009), (8, 0xA0000005)] } with
    acc := { md := [(9, m)], data := [(9 * 128 + 1, 77)] } }
theorem witness_DrainsReadTheirTotals :
    (let s := draining { fmt := 3 }
     recIs s 0 3 (fun b r => decide (r.n < drRows r) && decide (drDue b r r.n ≤ s.clk.slot) && decide (r.n = 0) &&
       drBad b r (accMeta s (drRow b r 0)).fmt) = true) ∧
    (let s : State := { draining { fmt := 4 } [2 ^ 12, 2] with
       seq := { (draining {} [2 ^ 12, 2]).seq with benches := [{ tdf := [(8, 0x40000000)], recs := [{ ty := 3, w := [4096, 2] }] }] }
       rings := [(0, { en := true, psrc := true, nrows := 4, beg := 4, prod := 4 })] }
     recIs s 0 3 (fun b r => decide (drDest r = 0) && writerBlocked s b (drOtd r) && !drBad b r 4) = true) ∧
    (let s : State := { draining { fmt := 4 } with acc := { md := [(9, { fmt := 4 })], portSlot := 100, reads := 4 } }
     recIs s 0 3 (fun b r => decide (drDest r ≠ 0) && !drBad b r 4 && decide (s.acc.portSlot = s.clk.slot) &&
       decide (s.acc.reads + 1 > 4)) = true) ∧
    (let s := draining { fmt := 4, stale := false }
     recIs s 0 3 (fun b r => decide (drDest r = 2) && !drStat r && decide (rf r 1 7 1 = 0) && !rowSeam s (drRow b r 0) &&
       decide ((accMeta s (drRow b r 0)).fmt = 4) && decide ((accMeta s (drRow b r 0)).epoch = effEp b (drTd r) (rf r 0 1 4)) &&
       !(accMeta s (drRow b r 0)).stale && !(accMeta s (drRow b r 0)).poison && decide (s.acc.flips = [])) = true ∧
     portsTaken s 0 0 = 0) := by decide +kernel
/-- A drain of row 10, or of the pair from it, to a destination, with its statistics in row 20 and its rows freed. -/
def drainTo (dest : Nat) (m m2 : Meta) (otd : Nat := 8) : State :=
  { running [{ ty := 3, w := [BitVec.ofNat 32 (0x03 * 2 ^ 26 + 2 ^ 12 + 2 * 2 ^ 5 + 1), BitVec.ofNat 32 (dest * 2 ^ 14 + 9 * 2 ^ 8 + 128 + otd * 2)] }]
      100 { tdf := [(0, 0xA000000A), (8, 0xA0000005), (72, 0xA0000014), (16, 0x20000000), (22, 0x38000000)] } with
    acc := { md := [(10, m), (11, m2)], data := [(10 * 128, 3), (10 * 128 + 1, 0xFFFFFFFF), (11 * 128 + 1, 0xFFFFFFFF)] } }
/-- The formats of the rows of a total, and whether it is a pair. -/
def drained : List (Nat × Nat × Bool) := [(0, 1, false), (1, 1, false), (4, 1, false), (7, 1, false), (2, 3, true), (5, 6, true)]
theorem witness_DrainsReadTheirTotals_content :
    (∀ d ∈ [0, 1, 2, 3], ∀ e ∈ drained, e.1 ≠ 0 →
      let m : Meta := { fmt := e.1, stale := false }
      let s := drainTo d m { fmt := e.2.1, stale := false } (if d = 0 then 2 else 1)
      recIs s 0 3 (fun b r => decide (drDest r = d) && drStat r && decide (rf r 1 7 1 = 1) && !drBad b r e.1 && decide (r.n = 0) &&
        decide (effEp b (drTd r) (rf r 0 1 4) = 0) && decide (drRow b r 0 = 10) && decide (drRow b r 1 = 11) &&
        (decide (d ≠ 0) || (!writerBlocked s b (drOtd r) && decide (tdKind b (drOtd r) = 1)))) = true ∧
      (accMeta s 10).fmt = e.1 ∧ (e.1 == 2 || e.1 == 5) = e.2.2 ∧ portsTaken s 0 0 = 0 ∧ rowSeam s 10 = false ∧ rowSeam s 11 = false) := by
  decide +kernel
theorem test_drain_of_a_pair_with_statistics :
    (let s := drainTo 2 { fmt := 2, stale := false } { fmt := 3, stale := false } 1
     let t := after (.drainRead 0 0) s
     -- The totals are 3 and -1.
     t.acc.wq.map (fun x => (x.row, x.due, x.lanes.take 4, x.md.fmt)) =
       [(5, 101, [some 0x40400000, some 0xBF800000], 4), (20, 108, [some 0x40400000, some 0x40000000, some 0, some 0], 7)] ∧
     (accMeta t 10).fmt = 0 ∧ (accMeta t 11).fmt = 0) := by decide +kernel
theorem test_drain_of_integers :
    (let t := after (.drainRead 0 0) (drainTo 1 { fmt := 1, stale := false } {} 1)
     t.vec.res.map (fun x => (x.dst, x.due, x.lanes)) = [(.v 1, 101, [some 3, some 0xFFFFFFFF])] ∧
     t.acc.wq.map (fun x => (x.row, x.lanes.take 2)) = [(20, [some 3, some 2])]) := by decide +kernel
theorem test_drain_writes_its_row :
    ((after (.drainRead 0 0) (draining { fmt := 4, stale := false })).acc.wq.map fun x => (x.row, x.due, x.lanes)) =
      [(5, 101, [some 0, some 77])] := by decide +kernel

-- The gate pipe, the scan stage and the special function unit.

/-- A gate record: one stream of seam 5 under cell 1, two slots after its parameters. -/
def gate1 : Rec := { ty := 4, w := [BitVec.ofNat 32 (4 * 2 ^ 26 + 2 ^ 21 + 2 ^ 15 + 5 * 2 ^ 7), BitVec.ofNat 32 (13 * 2 ^ 16), 0, 0] }
/-- The parameter rows of a gate record, read. -/
def gatePar (r : Rec := gate1) : Rec := { r with par := List.replicate (gParRows r) [] }
/-- A tile with a gate or a scan record and seam 5 in a state. -/
def withSeam (r : Rec) (x : Seam) (b : Bench := {}) : State :=
  { running [r] 100 { b with tdf := [(0, 0xA0000009)] } with seams := [(5, { x with nrows := 2, base := 1020, nvec := 1 })] }
/-- A step of seam 5 in flight that started at slot 75. -/
def step1 : GateStep := { uid := 0, pos := 0, k := 0, seam := 5, g := 75 }

/-- Whether a seam takes part in a bench. -/
def joins (s : State) (b : Bench) (k : Nat) : Bool :=
  b.disp.contains k || (!b.held.contains k && decide (mget b.skips 0 k = 0) && seamReady s k && !seamMisfit s b k &&
    !oldBinding (seam s k) b)
theorem seamJoins_of_joins {s : State} {b : Bench} {k : Nat} (h : joins s b k = true) : SeamJoins s b k := by
  by_cases hd : k ∈ b.disp
  · exact .inl hd
  · simp only [joins, List.contains_eq_mem, hd, decide_false, Bool.false_or, Bool.and_eq_true, Bool.not_eq_true',
      decide_eq_false_iff_not, decide_eq_true_eq] at h
    exact .inr ⟨hd, h.1.1.1.1, h.1.1.1.2, h.1.1.2, h.1.2, h.2⟩

theorem witness_GateStreamsStartAndCommit :
    (let s : State := { withSeam gate1 {} with acc := { portSlot := 100, reads := 4 } }
     recIs s 0 4 (fun b r => decide (r.par.length < gParRows r) && decide (b.start + gIssue r - 13 + r.par.length ≤ s.clk.slot)) = true ∧
     portsTaken s 0 0 = 4) ∧
    (let s : State := { withSeam gate1 {} with acc := { portSlot := 100, reads := 3, md := [(9, { fmt := 4, stale := false })] } }
     recIs s 0 4 (fun b r => !rowSeam s (tdAcc b (rf r 2 11 6) (gParRow r 0)) && decide (s.acc.flips = []) &&
       decide ((accMeta s (tdAcc b (rf r 2 11 6) (gParRow r 0))).fmt = 4)) = true ∧ portsTaken s 0 0 = 3) ∧
    recIs (withSeam gatePar {} { held := [5] }) 0 4 (fun b r => b.held.contains (gSeam r r.n) && !b.disp.contains (gSeam r r.n)) = true ∧
    (∀ b ∈ [{}, { disp := [5] }], let s := withSeam gatePar { st := 4 } b
      recIs s 0 4 (fun b r => joins s b (gSeam r r.n) && decide (gDue b r r.n ≤ s.clk.slot) && !r.lost && !s.gate.hasLast) = true) ∧
    (let s : State := { withSeam gatePar { st := 4 } with gate := { hasLast := true, lastStart := 99, lastP := 2 } }
     recIs s 0 4 (fun b r => joins s b (gSeam r r.n)) = true ∧ ¬ s.gate.lastStart + s.gate.lastP ≤ s.clk.slot) ∧
    (let r : Rec := { gatePar with n := 1, w := [BitVec.ofNat 32 (4 * 2 ^ 26 + 2 ^ 21 + 2 ^ 15 + 5 * 2 ^ 7), BitVec.ofNat 32 (13 * 2 ^ 16 + 1), 0, 0] }
     let u := withSeam r { st := 5, owner := 1 } { disp := [5], tdf := [] }
     let s : State := { u with
       gate := { steps := [step1] }, rings := [(0, { en := true, psrc := true, nrows := 4, beg := 4, prod := 4 })]
       seq := { u.seq with benches := u.seq.benches.map fun b => { b with tdf := [(0, 0x40000000)] } } }
     recIs s 0 4 (fun b r => (firstStep s b r).any (fun x => decide (x.g + 25 ≤ s.clk.slot)) && gateOutBlocked s b r) = true) ∧
    (let s : State := { withSeam { gatePar with n := 1 } { st := 5, owner := 1 } { disp := [5] } with gate := { steps := [step1] } }
     recIs s 0 4 (fun b r => (firstStep s b r).any (fun x => decide (x.g + 25 ≤ s.clk.slot)) && decide (rf r 1 0 2 = 0)) = true) := by
  decide +kernel
theorem test_gate_step_commits :
    (let s : State := { withSeam { gatePar with n := 1 } { st := 5, owner := 1, shadow := [(128, some 9)] } { disp := [5] } with gate := { steps := [step1] } }
     let t := after (.gateCommit 0 0) s
     (seam t 5).step = 1 ∧ (seam t 5).cur = true ∧ accEntry t 1023 0 = 9 ∧ t.gate.steps = []) := by decide +kernel

/-- A scan record: one stream of seam 5, of one step. -/
def scan1 : Rec := { ty := 5, w := [BitVec.ofNat 32 (5 * 2 ^ 26 + 2 ^ 16 + 5 * 2 ^ 8 + 2 ^ 2), BitVec.ofNat 32 (24 * 2 ^ 16), 0, 0] }
/-- The parameter rows of a scan record, read. -/
def scanPar : Rec := { scan1 with par := List.replicate (sParRows scan1) [] }
/-- A chunk of seam 5 dispatched at slot 60, with its steps. -/
def chunk1 (l : List ScanStep) : ScanChunk := { uid := 0, pos := 0, k := 0, seam := 5, s := 60, steps := l }
/-- A tile with that chunk, whose projection row is row 9. -/
def inChunk (l : List ScanStep) : State :=
  { withSeam { scanPar with n := 1 } { st := 5, owner := 1 } { disp := [5] } with scan := { chunks := [chunk1 l] } }
theorem witness_ScanChunksRunAndCommit :
    (let s : State := { withSeam { scan1 with par := List.replicate 4 [] } {} with acc := { portSlot := 100, reads := 4 } }
     recIs s 0 5 (fun b r => decide (r.par.length = 4) && decide (r.par.length < sParRows r) &&
       decide (b.start + sIssue r - 24 + r.par.length ≤ s.clk.slot)) = true ∧ portsTaken s 0 0 = 4) ∧
    portsTaken (withSeam scan1 {}) 0 0 = 0 ∧ recIs (withSeam scan1 {}) 0 5 (fun b r => !rowSeam (withSeam scan1 {}) (tdAcc b (rf r 2 12 6) r.par.length)) = true ∧
    recIs (withSeam scanPar {} { held := [5] }) 0 5 (fun b r => b.held.contains (sSeam r r.n) && decide (sDue b r r.n ≤ 100)) = true ∧
    (∀ b ∈ [{}, { disp := [5] }], let s := withSeam scanPar { st := 4 } b
      recIs s 0 5 (fun b r => joins s b (sSeam r r.n) && decide (r.par.length = sParRows r) && !r.lost) = true) ∧
    (let s := withSeam { scanPar with lost := true } { st := 4 }
     recIs s 0 5 (fun b r => joins s b (sSeam r r.n) && r.lost) = true) ∧
    portsTaken (inChunk []) 0 0 = 0 ∧ portsTaken { inChunk [] with acc := { portSlot := 100, reads := 4 } } 0 0 = 4 ∧
    recIs (inChunk []) 0 5 (fun b r => (scanNextRead (inChunk []) b r).any (fun c => decide (c.s + scanR r c.e * c.steps.length ≤ 100)) &&
      decide (sMode r ≠ 2) && !rowSeam (inChunk []) (tdAcc b (rf r 1 1 6) 0)) = true ∧
    recIs (inChunk [{ r := 60 }]) 0 5 (fun b r => (firstChunk (inChunk [{ r := 60 }]) b r).any
      (fun c => decide (c.steps.length = sLen r) && decide (scanCommitDue r c ≤ 100))) = true := by decide +kernel
theorem test_scan_chunk_commits :
    (let t := after (.scanCommit 0 0) (inChunk [{ r := 60 }])
     (seam t 5).step = 1 ∧ reg t 0x4F08 = 1 ∧ t.scan.chunks = []) := by decide +kernel

/-- A request of the special function unit that is due. -/
def sfuReq (who : SfuWho) : State :=
  { inChunk [{ r := 60 }] with sfu := { reqs := [{ who := who, uid := 0, pos := 0, due := 100, ord := 0, lanes := [some 3], fls := [0x41] }] } }
theorem witness_SpecialFunctionsDeliverInTheirSlot :
    (∀ who ∈ [SfuWho.vec 31, .vec 261, .scanSoft 0 0, .scanExp 0 0],
      (sfuTake (sfuReq who)).map (fun e => (e.1.who, decide (e.1.due ≤ (sfuReq who).clk.slot))) = some (who, true)) ∧
    (sfuReq .scanSetup).seq.frozen = false ∧ (recOf (sfuReq (.vec 261)) 0 0).isSome = true ∧
    (chunkOf (sfuReq (.scanSoft 0 0)) 0 0 0).map (fun c => decide (0 < c.steps.length)) = some true := by decide +kernel
theorem test_sfu_delivers :
    ((after .sfuResult (sfuReq (.vec 31))).vec.res.map fun x => (x.dst, x.lanes)) = [(.v 31, [some 3])] ∧
    (after .sfuResult (sfuReq (.vec 31))).sfu.reqs = [] := by decide +kernel

-- The vector engine.

/-- A word of a recipe: the opcode, DST, S1, S2, S3 and IMM. -/
def vWordOf (op : Nat) (d a b c imm : Nat := 0) : W64 :=
  BitVec.ofNat 64 (op * 2 ^ 58 + d * 2 ^ 44 + a * 2 ^ 34 + b * 2 ^ 24 + c * 2 ^ 14 + imm)
/-- A vector record: recipe 0 on seam 5, slot 100 of its bench. -/
def vRec (n : Nat := 0) : Rec :=
  { ty := 6, n := n, w := [BitVec.ofNat 32 (6 * 2 ^ 26 + 2 ^ 16), BitVec.ofNat 32 (100 * 2 ^ 16 + 5 * 2 ^ 8), 0, 0] }
/-- A tile whose recipe issues a word at address 9 in slot 100, with descriptor 0 of KIND `kind` and seam 5 of one row. -/
def vecAt (w : W64) (kind : Nat := 1) (b : Bench := {}) : State :=
  { running [vRec] 100 { b with tdf := [(0, BitVec.ofNat 32 (kind * 2 ^ 29))] } with
    vec := { run := some ⟨0, 0, 0, 9, 100, []⟩, recipe := [(9, w)], vl := 2 }
    seams := [(5, { st := 5, owner := 1, nrows := 1, base := 1022 })] }
/-- The recipe issues an instruction of opcode `op` next, and `p` holds. -/
def vNow (s : State) (op : Nat) (p : Bench → Rec → W64 → Bool := fun _ _ _ => true) : Bool :=
  match s.vec.run with
  | some run =>
    match recOf s run.uid run.pos with
    | some (b, r) => decide (vF (vWord s run) 58 6 = op) && !vWordBad s run && decide (run.next ≤ s.clk.slot) && seqActive s &&
      !s.seq.frozen && p b r (vWord s run)
    | none => false
  | none => false
/-- What `vNow` says, in the words of the statements. -/
theorem vNow_of {s : State} {op : Nat} {p : Bench → Rec → W64 → Bool} (h : vNow s op p = true) :
    ∃ run b r, VNow s op run b r ∧ p b r (vWord s run) = true := by
  unfold vNow at h
  split at h
  · next run e =>
    split at h
    · next b r e2 =>
      simp only [Bool.and_eq_true, decide_eq_true_eq, Bool.not_eq_true'] at h
      exact ⟨run, b, r, ⟨e, h.1.1.1.1.1, h.1.1.1.1.2, h.1.1.1.2, h.1.1.2, h.1.2, e2⟩, h.2⟩
    · simp at h
  · simp at h

/-- The opcodes, with their sources. -/
def opcodes : List (Nat × Nat) :=
  [(0x0A, 1), (0x0B, 2), (0x3C, 1), (0x3D, 1), (0x3E, 1), (0x10, 2), (0x11, 2), (0x12, 2), (0x13, 2), (0x14, 2), (0x16, 1), (0x15, 1),
    (0x17, 2), (0x18, 2), (0x19, 2), (0x20, 2), (0x21, 2), (0x22, 2), (0x23, 3), (0x24, 2), (0x25, 2), (0x26, 1), (0x27, 1), (0x28, 1),
    (0x29, 1), (0x2A, 1), (0x2B, 1), (0x30, 2), (0x31, 2), (0x3A, 1), (0x3B, 1), (0x3F, 1)]
/-- Every read port taken. -/
def fullPorts (s : State) : State := { s with acc := { s.acc with portSlot := 100, reads := 4 } }

theorem witness_RecipesStartGoOnAndEnd :
    (let w : W64 := 0
     let u := vecAt w
     let idle : State := { u with vec := { u.vec with run := none } }
     (∀ e ∈ [(true, 99), (false, 100)], recIs { idle with vec := { idle.vec with hasEnd := e.1, endSlot := e.2 } } 0 6
        (fun b r => decide (r.n = 0) && !r.slipped && decide (vDue b r ≤ 100)) = true) ∧
     recIs u 0 6 (fun b r => decide (r.n = 0) && !r.slipped && decide (vDue b r ≤ 100)) = true ∧ u.vec.run.isSome = true ∧
     recIs { idle with vec := { idle.vec with hasEnd := true, endSlot := 100 } } 0 6 = true) ∧
    (∀ op ∈ [0, 1, 2, 3, 4], vNow (vecAt (vWordOf op)) op = true) ∧
    vNow (vecAt (BitVec.ofNat 64 (2 * 2 ^ 58 + 1023 * 2 ^ 48 + 511 * 2 ^ 37))) 2
      (fun _ _ w => decide (vF w 46 2 = 0) && decide (0 < vF w 48 10) && decide (0 < vF w 37 9)) = true ∧
    (∀ b ∈ [{ skips := [(5, 1)] }, { disp := [5] }, { held := [5] }],
      vNow (vecAt (vWordOf 4) 1 b) 4 (fun _ r w => decide (vSeam r (vF w 48 1) = 5)) = true) ∧
    ((vecAt 0).seq.benches.map fun b => (mget b.skips 0 5, b.disp, b.held)) = [(0, [], [])] ∧
    (∀ op ∈ [0x00, 0x01, 0x02, 0x03, 0x04, 0x08, 0x09, 0x0A, 0x10, 0x20, 0x30, 0x36, 0x3A, 0x3F], let u := vecAt (vWordOf op)
      let s : State := { u with vec := { u.vec with badRcp := [9] } }
      s.vec.run.any (fun x => decide (vF (vWord s x) 58 6 = op) && vWordBad s x && decide (x.next ≤ 100)) = true ∧
      seqActive s = true ∧ s.seq.frozen = false) := by decide +kernel
theorem test_loop_and_end :
    ((after .recipeLoop (vecAt (BitVec.ofNat 64 (2 * 2 ^ 58 + 3 * 2 ^ 48 + 2 * 2 ^ 37)))).vec.run.map fun x => (x.pc, x.loops)) =
      some (10, [⟨10, 2, 3, 0⟩]) ∧
    (let t := after .recipeEnd (vecAt 0)
     t.vec.run = none ∧ t.vec.endSlot = 100 ∧ reg t 0x4820 = 1) := by decide +kernel

theorem witness_RowsMoveThroughTheVectorEngine :
    (∀ e ∈ opcodes, let s := vecAt (vWordOf e.1 31)
      vNow s e.1 (fun b r w => (vSrcs (vTurn s b r) b r w e.2).1.isSome) = true) ∧
    (∀ e ∈ opcodes, let s := fullPorts (vecAt (vWordOf e.1 0 256))
      vNow s e.1 (fun b r w => (vSrcs (vTurn s b r) b r w e.2).1.isNone) = true) ∧
    (∀ d ∈ [0, 256, 512], vNow (vecAt (vWordOf 0x3B d) 1 { disp := [5] }) 0x3B (fun b r w =>
      decide (vF w 44 10 = d) && decide (vSeam r (d / 128 % 2) ∈ b.disp) && decide (d / 16 % 4 = 0)) = true) ∧
    (let u := vecAt (vWordOf 0x3F 31)
     let q : SfuReq := { who := .vec 0, uid := 0, pos := 0, due := 112, ord := 0, lanes := [], fls := [] }
     let s : State := { u with
       sfu := { reqs := [q] }, vec := { u.vec with run := some ⟨1, 0, 0, 9, 100, []⟩ }
       seq := { u.seq with benches := u.seq.benches.map fun b => { b with uid := 1 } } }
     vNow s 0x3F (fun b r _ => ((s.sfu.reqs.find? fun q => q.due == s.clk.slot + 12).any fun q =>
       startedBefore q.uid q.pos b.uid r.pos)) = true) := by decide +kernel
/-- A VLD of 2 elements of binary32 into V31. -/
def vldWord : W64 := BitVec.ofNat 64 (0x08 * 2 ^ 58 + 31 * 2 ^ 44 + 8 * 2 ^ 34)
/-- What a VLD finds, by its state: nothing it may load (0), a wait (1), a bad row (2), a row (3), no row (4). -/
def vldFinds (s : State) : Option Nat :=
  match s.vec.run.bind fun x => recOf s x.uid x.pos with
  | some (b, r) =>
    let u := vTurn s b r
    if vldBad u b 0 (vTdRow u vldWord) then some 0
    else match (feedRow u b r 0 (vTdRow u vldWord) (u.vec.vl * 4) false false 2).1 with
      | .wait => some 1
      | .row _ bad => some (if bad then 2 else 3)
      | .nothing => some 4
  | none => none
theorem witness_vector_loads :
    (∀ e ∈ [(0, 0), (3, 1), (1, 2)], vNow (vecAt vldWord e.1) 0x08 = true ∧ vldFinds (vecAt vldWord e.1) = some e.2) ∧
    vldFinds { vecAt vldWord 2 with rings := [(0, {})] } = some 4 ∧
    (let s : State := { vecAt vldWord with vec := { (vecAt vldWord).vec with vl := 0 } }
     vNow s 0x08 = true ∧ vldFinds s ≠ some 0) ∧
    vldFinds { vecAt vldWord with spad := { side := [(0, { check := 0, poison := false, uninit := false })] } } = some 3 := by decide +kernel
/-- A VST of V31 as binary32. -/
def vstWord (d : Nat) : W64 := BitVec.ofNat 64 (0x09 * 2 ^ 58 + d * 2 ^ 44 + 8 * 2 ^ 34)
theorem witness_vector_stores :
    (∀ k ∈ [0, 5], vNow (vecAt (vstWord 31) k) 0x09 (fun b _ _ => decide (tdKind b 0 = k)) = true) ∧
    (∀ k ∈ [1, 4], ∀ b ∈ [{}, { held := [5] }], let s := vecAt (vstWord 31) k b
      vNow s 0x09 (fun b r w => decide (tdKind b 0 = k) && (vSrc (vTurn s b r) b r w 31).1.isSome) = true) ∧
    recIs (vecAt (vstWord 31) 1 { held := [5] }) 0 6 (fun b r => vHeldSeam (vecAt (vstWord 31) 1 { held := [5] }) b r) = true ∧
    recIs (vecAt (vstWord 31)) 0 6 (fun b r => !vHeldSeam (vecAt (vstWord 31)) b r) = true := by decide +kernel

/-- A VLD of binary32 to a destination. -/
def vldTo (d : Nat) : W64 := BitVec.ofNat 64 (0x08 * 2 ^ 58 + d * 2 ^ 44 + 8 * 2 ^ 34)
/-- The same tile with VL 0, and with a descriptor word that fails its parity. -/
def noLanes (s : State) : State := { s with vec := { s.vec with vl := 0 } }
def badWord (s : State) : State := { s with seq := { s.seq with benches := s.seq.benches.map fun b => { b with badTd := [3] } } }
theorem witness_vector_words_that_fail :
    vNow (badWord (vecAt (vldTo 31))) 8 (fun b _ w => !(vTdFails b (vF w 38 6)).isEmpty) = true ∧
    vNow (badWord (vecAt (vstWord 31))) 9 (fun b _ w => !(vTdFails b (vF w 38 6)).isEmpty) = true := by decide +kernel
theorem witness_vector_rows_without_lanes :
    (∀ d ∈ [31, 256, 513], let s := noLanes (vecAt (vldTo d) 1 { disp := [5] })
      vNow s 8 (fun b r w => (vTdFails b (vF w 38 6)).isEmpty && !vldBad (vTurn s b r) b 0 (vTdRow s w)) = true) ∧
    (let s := noLanes (vecAt (vstWord 31)); vNow s 9 (fun b r w => (vSrc (vTurn s b r) b r w 31).1.isSome) = true) := by decide +kernel
theorem witness_vector_row_past_the_copy :
    vNow (vecAt (vWordOf 0x0A 513) 1 { disp := [5] }) 0x0A (fun b r w =>
      decide (vF w 44 10 / 256 = 2) && b.disp.contains (vSeam r (vF w 44 10 / 128 % 2)) && decide (vF w 44 10 % 16 = 1)) = true ∧
    (seam (vecAt 0) 5).nrows = 1 := by decide +kernel
theorem test_load_without_elements_takes_its_port :
    (after .vld (noLanes (vecAt (vldTo 256)))).acc.wq.map (fun x => (x.due, x.void)) = [(102, true)] := by decide +kernel

/-- A register of the vector engine at its lanes 0 and 1. -/
def vLoaded (l : List (Nat × Nat)) (s : State) : State :=
  { s with vec := { s.vec with v := l.foldl (fun v e => mset v 0 e.1 (BitVec.ofNat 32 e.2)) s.vec.v } }
/-- What an instruction with sources V1 and V2 sends to V0's lane 0. -/
def vGives (c : Instr) (op a b : Nat) (imm : Nat := 0) : Option (Option W32) :=
  (after c (vLoaded [(128, a), (256, b)] (vecAt (vWordOf op 0 1 2 0 imm)))).vec.res.head?.map fun x => lget x.lanes none 0
theorem witness_IntegerAndLogicInstructions :
    (∀ e ∈ opcodes.filter (fun e => e.1 / 16 == 1), let s := vecAt (vWordOf e.1)
      vNow s e.1 (fun b r w => (vSrcs (vTurn s b r) b r w e.2).1.isSome) = true) := by decide +kernel
theorem witness_FloatInstructions :
    (∀ e ∈ opcodes.filter (fun e => e.1 / 16 == 2), let s := vecAt (vWordOf e.1 0 1 31)
      vNow s e.1 (fun b r w => (vSrcs (vTurn s b r) b r w e.2).1.isSome) = true) := by decide +kernel
theorem test_integer_saturates :
    vGives .vaddi 0x10 0x7FFFFFFF 1 = some (some 0x7FFFFFFF) ∧ vGives .vsubi 0x11 0x80000000 1 = some (some 0x80000000) ∧
    vGives .vmuli 0x12 0x10000 0x8000 = some (some 0x7FFFFFFF) ∧ vGives .vshl 0x16 0xC0000000 0 1 = some (some 0x80000000) ∧
    vGives .vsra 0x15 0xFFFFFFFD 0 1 = some (some 0xFFFFFFFE) := by decide +kernel
theorem test_add_rounds : vGives .vadd 0x20 0x3F800000 0x33800000 = some (some 0x3F800000) ∧
    vGives .vadd 0x20 0x3F800001 0x33800000 = some (some 0x3F800002) ∧
    vGives .vmin 0x24 0x80000000 0 = some (some 0x80000000) ∧ vGives .vabs 0x26 0xC0000000 0 = some (some 0x40000000) := by decide +kernel
theorem witness_MaskInstructions :
    (∀ op ∈ [0x32, 0x33, 0x34, 0x35, 0x36, 0x37, 0x38], vNow (vecAt (vWordOf op)) op = true) ∧
    (∀ op ∈ [0x30, 0x31], ∀ a ∈ [0, 256], let s := fullPorts (vecAt (vWordOf op 0 a a))
      vNow s op (fun b r w => (vSrcs (vTurn s b r) b r w 2).1.isNone == (a == 256)) = true) := by decide +kernel
theorem test_compare :
    vGives .vcmpi 0x30 0xFFFFFFFF 0 2 = some (some 1) ∧ vGives .vcmpf 0x31 0x7FC00000 0 1 = some (some 1) ∧
    vGives .vcmpf 0x31 0x7FC00000 0 5 = some (some 0) := by decide +kernel

-- Packets and links.

/-- A control flit, or a packet, is taken at port n. -/
def heard (n : Nat) (s : State := linked) : Bool := linkIn s n && !unitHeld s (10 + n)
/-- What `heard` says, in the words of the statements. -/
theorem heard_iff {n : Nat} {s : State} (h : heard n s = true) : Heard s n := by
  simpa [heard, Heard] using h
/-- A head from tile 2 with TAG 9, as a flit. -/
def headFlit (dst ty : Nat) (payload : Nat := 0) (status : Nat := 0) : Flit :=
  let p := packetOf { dst := dst, src := 2, ty := ty, tag := 9, count := 1, step := 1, status := status, payload := BitVec.ofNat 128 payload } []
  ⟨p.head, p.side⟩
/-- The sectors that a packet of a type carries. -/
def bodyOf (ty : Nat) : List Flit := if ty = 1 || ty = 3 then [⟨0, BitVec.ofNat 32 (ty / 3 * 2 ^ 30 + 2 ^ 26)⟩] else []
/-- The head's CRC and channel are right. -/
def goodHead (f : Flit) : Bool :=
  (sectorCheck f.data == fieldN f.side 0 16) && decide (typeVc (headOf f.data).ty = some (fieldN f.side 30 2))
/-- The request of TAG 9 is outstanding. -/
def asked (q : FReq) : State := { linked with fab := { linked.fab with reqs := [(9, { q with act := true })] } }

theorem witness_PacketsAreCheckedAndDelivered :
    (∀ ty ∈ [0, 1, 2, 3, 4, 5], ∀ dst ∈ [0, 1], let f := headFlit dst ty
      packetRow ty f (bodyOf ty) = true ∧ goodHead f = true ∧ (headOf f.data).ty = ty ∧ (headOf f.data).dst = dst) ∧
    (∀ ty ∈ [0, 1, 2, 3, 4, 5], let f := headFlit 1 ty
      let g : Flit := ⟨f.data, f.side ^^^ 1#32⟩
      packetRow ty g (bodyOf ty) = true ∧ goodHead g = false) ∧
    holdsVc { linked with fab := { linked.fab with ports := linked.fab.ports.map fun p => { p with held := [⟨(headFlit 1 0).data, 0, []⟩] } } } 5 0 = true ∧
    heard 5 { linked with fab := { linked.fab with dup := true } } = true ∧
    (let s : State := { linked with fab := { linked.fab with route := [(9, 3)] } }
     9 ≠ tileId s ∧ routeFor s 9 = 3 ∧ portUp s 3 = false) ∧
    (∀ st ∈ [1, 3], heard 5 { linked with clk := { linked.clk with st := st } } = true) ∧
    (let s : State := { linked with mode := { joined := true, epoch := 200 } }
     heard 5 s = true ∧ isNewer s 71 = true ∧ isNewer s 72 = false ∧ isNewer s 200 = false) ∧
    (heard 5 = true ∧ linked.clk.st = 0 ∧ isNewer linked 0 = false ∧ (∀ vc ∈ [0, 1], holdsVc linked 5 vc = false) ∧
      linked.fab.dup = false ∧ tileId linked = 1 ∧ routeFor linked 0 = 0 ∧ portUp linked 0 = true ∧ fabHeld linked = false ∧
      unitHeld linked 7 = false ∧ linked.mb.peerQ = [] ∧ linked.fab.waitq = []) ∧
    opKnown (fieldN (wordsOf (headOf (headFlit 1 2 0x60000000).data).payload).w0 24 8) = true ∧
    (mget linked.fab.reqs {} 9).act = false ∧
    (∀ q ∈ [({ isRead := true, rd := 1 } : FReq), {}, { isCmd := true, cli := some { o := .scp } }], heard 5 (asked q) = true ∧
      (asked q).fab.waitq = [] ∧ mget (asked q).fab.reqs {} 9 = { q with act := true }) ∧
    mboxOf .scp = some 1 ∧ (∀ st ∈ [1, 2], (headOf (headFlit 1 4 0 st).data).status = st) := by decide +kernel
theorem test_packet_goes_on :
    (let f := headFlit 0 4
     (portOf (after (.writeAck 5 f) linked) 0).outVc1 = [(5, f)]) ∧
    (after (.read 5 (headFlit 1 0)) linked).fab.chk.map (·.1) = [5] := by decide +kernel

/-- A tile in survey state `st` whose ports 0 and 5 are in state `p`. -/
def surveying (st p : Nat) (parent : Nat := 7) : State :=
  { supplied with
    straps := (0, 1)
    fab := { st := st, candPort := parent, candRoot := 1, candSender := 1
             ports := [{ st := p, peerId := 0 }, {}, {}, {}, {}, { st := p, peerId := 2 }] } }
theorem witness_LinksCountResyncAndFail :
    heard 5 = true ∧ (portOf linked 5).cred.length = 3 ∧ (portOf linked 5).st = 3 ∧ (portOf linked 5).resync = false ∧
    (∀ st ∈ [1, 4], let s : State := { linked with fab := { linked.fab with ports := linked.fab.ports.map fun p => { p with st := st } } }
     heard 5 s = true ∧ (portOf s 5).st = st) ∧
    (∀ h ∈ [true, false], let s : State := { linked with fab := { linked.fab with
        st := 1, ports := linked.fab.ports.map fun p => { p with st := 2, resync := true, heard := h } } }
     heard 5 s = true ∧ (portOf s 5).resync = true ∧ (portOf s 5).st = 2) ∧
    (let s : State := { linked with fab := { linked.fab with ports := linked.fab.ports.map fun p => { p with resync := true } } }
     heard 5 s = true ∧ (portOf s 5).resync = true) ∧
    (∀ v ∈ [0, 1], let s := holding 0x7004 (BitVec.ofNat 32 (64 * 256 + v)) linked
      bitB (reg s 0x7004) 0 = (v == 1) ∧ s.fab.st = 4 ∧
      (let t := { s with clk := { s.clk with t := 8192 } }
       linkIn t 5 = true ∧ (linkDue t 5).any (fun d => decide (d ≤ mclkOf t)) = true)) ∧
    (∀ q ∈ [({ isRead := true, rd := 1 } : FReq), {}, { isCmd := true, cli := some { o := .scp } }],
      let s := { holding 0x7004 0x00010000 (asked q) with clk := { linked.clk with t := 2048 } }
      (mget s.fab.reqs {} 9).act = true ∧ (mget s.fab.reqs {} 9).t0 + zeroIs 256 (regF s 0x7004 16 8) * 1024 ≤ mclkOf s ∧
        s.fab.waitq = []) := by decide +kernel
/-- Every port of a tile changed alike. -/
def onPorts (f : LinkPort → LinkPort) (s : State := linked) : State :=
  { s with fab := { s.fab with ports := s.fab.ports.map f } }
theorem witness_LinksCountResyncAndFail_ends :
    (let s := onPorts fun p => { p with farReq := true }
     heard 5 s = true ∧ (portOf s 5).farReq = true ∧ (portOf s 5).resync = false ∧ (portOf linked 5).farReq = false) ∧
    (∀ e ∈ [(some (0, 1, 2), true), (none, false)],
      let s := onPorts (fun p => { p with st := 2, heard := true, resync := true, tree := e.1 }) (surveying 1 2)
      heard 5 s = true ∧ (portOf s 5).tree.isSome = e.2 ∧ (portOf s 5).resync = true ∧ (portOf s 5).heard = true) ∧
    (let s : State := { linked with rst := { unit := some ⟨15, 2, 2, none, 0, none, []⟩ } }
     linkIn s 5 = true ∧ unitHeld s 15 = true) := by decide +kernel
theorem test_a_resync_ends :
    -- Port 5 has asked and been asked: the request that its neighbour then sends is answered and asks for nothing more.
    (let t := after (.resyncReq 5 0) (onPorts fun p => { p with farReq := true })
     (portOf t 5).ctl.map (·.ctype) = [6] ∧ (portOf t 5).farReq = false ∧ (portOf t 5).resync = false) := by decide +kernel
theorem test_credits :
    (let s : State := { linked with fab := { linked.fab with ports := linked.fab.ports.map fun p => { p with resync := true } } }
     (portOf (after (.resyncAck 5 2 7 8 9) s) 5).cred = [7, 9, 9]) ∧
    (portOf (after (.resyncReq 5 0) linked) 5).ctl.map (·.ctype) = [6, 5] := by decide +kernel

/-- Every link of the reports is named by both its ends. -/
def allLinked (l : List (Nat × List LinkEnd)) : Bool :=
  l.all fun e => e.2.all fun x => l.any fun q => q.2.any fun y =>
    y.tile == x.peer && y.port == x.peerPort && y.peer == x.tile && y.peerPort == x.port
theorem witness_TheSurveyReachesReady :
    (∀ p ∈ [2, 3, 4], let s := surveying 1 p
      heard 5 s = true ∧ fabHeld s = false ∧ 2 ≤ s.boot.st ∧ (portOf s 5).st = p ∧ (portOf s 5).resync = false ∧ propId s = 1) ∧
    (∀ st ∈ [0, 5], (portOf (surveying st 1) 5).st = 1 ∧ heard 5 (surveying st 1) = true) ∧ (portOf (surveying 1 5) 5).st = 5 ∧
    (let s := surveying 1 3
     candBefore s.fab.surveyRoot (0, 1, 2, 5) (candOf s) = true ∧ (portOf s 5).peerId = 2 ∧ s.fab.st = 1 ∧
     candBefore s.fab.surveyRoot (1, 1, 2, 5) (candOf s) = false) ∧
    (∀ st ∈ [2, 4, 5], heard 5 (surveying st 3) = true ∧ fabHeld (surveying st 3) = false) ∧
    (∀ pa ∈ [0, 5], let s := surveying 2 3 pa
      s.fab.candPort ≠ 7 ∧ s.fab.candPort < s.fab.ports.length ∧ heard 5 s = true) ∧
    (∀ e ∈ [([], true), ([⟨2, 0, 9, 0⟩], false), ([⟨2, 0, 9, 0⟩, ⟨9, 0, 2, 0⟩], true)],
      allLinked ((surveying 2 3).fab.reports ++ [(2, e.1)]) = e.2) ∧
    (let s := surveying 0 3
     surveyIn s 0 = true ∧ surveyOn (surveying 4 2) = true ∧ (portOf (surveying 4 2) 5).st = 2 ∧ (mclkOf s - s.fab.phaseT) % 1000 = 0 ∧
     upPorts { s with clk := { s.clk with t := 40000 } } ≠ [] ∧
     s.fab.phaseT + 20000 ≤ mclkOf { s with clk := { s.clk with t := 40000 } } ∧
     upPorts { surveying 0 2 with clk := { s.clk with t := 40000 } } = []) ∧
    (∀ e ∈ [(7, 3), (7, 2), (0, 3), (5, 3)], let s := { surveying 1 e.2 e.1 with clk := { linked.clk with t := 16000 } }
      surveyIn s 1 = true ∧ s.fab.phaseT + 8000 ≤ mclkOf s ∧
      allLinked (s.fab.reports ++ [(propId s, ownLinks s)]) = (e.2 == 2)) := by decide +kernel
/-- A root whose reports are these. -/
def reported (l : List (Nat × List LinkEnd)) (st : Nat := 2) (topo : Option Topo := none) : State :=
  { surveying st 3 with fab := { (surveying st 3).fab with reports := l, topo := topo, below := [5] } }
theorem witness_TheSurveyReachesReady_topo :
    (let s := reported [(1, [⟨1, 5, 2, 0⟩]), (2, [⟨2, 0, 1, 5⟩])]
     s.fab.st = 2 ∧ s.fab.candPort = 7 ∧ (∀ e ∈ s.fab.reports, ∀ x ∈ e.2,
       ∃ q ∈ s.fab.reports, ∃ y ∈ q.2, y.tile = x.peer ∧ y.port = x.peerPort ∧ y.peer = x.tile ∧ y.peerPort = x.port)) ∧
    (let s := reported [(1, [⟨1, 5, 2, 0⟩])]
     s.fab.st = 2 ∧ ¬ s.fab.phaseT + 43548 ≤ mclkOf s ∧ ∀ q ∈ s.fab.reports, ∀ y ∈ q.2, y.tile ≠ 2) ∧
    (∀ d ∈ [[], [1]], let s := reported [] 3 (some ⟨[], [1], d⟩)
      s.fab.st = 3 ∧ s.fab.topo = some ⟨[], [1], d⟩ ∧ propId s = 1) ∧
    (∀ st ∈ [0, 1, 2], heard 5 (surveying st 3) = true ∧ st < 3) ∧
    (heard 5 (surveying 1 2) = true ∧ (portOf (surveying 1 2) 5).st ≠ 3) := by decide +kernel
theorem test_topo_lasts_one_cycle :
    (let s := topoTick (reported [(1, [⟨1, 5, 2, 0⟩]), (2, [⟨2, 0, 1, 5⟩])])
     s.fab.st = 3 ∧ (portOf s 5).ctl.map (fun x => (x.ctype, x.tiles)) = [(4, [1, 2])] ∧
     (topoTick s).fab.st = 4 ∧ routeFor (topoTick s) 2 = 5 ∧ (topoTick s).fab.dup = false) ∧
    (topoTick (reported [(1, [⟨1, 5, 2, 0⟩])])).fab.st = 2 ∧
    (topoTick (reported [] 3 (some ⟨[], [1], [1]⟩))).fab.dup = true := by decide +kernel
theorem test_port_without_a_peer_goes_down :
    (let s := surveying 0 2
     let u : State := { s with fab := { s.fab with ports := lupd s.fab.ports 0 fun p => { p with st := 3 } }, clk := { s.clk with t := 40000 } }
     (portOf (after .helloPhaseEnd u) 5).st = 1 ∧ (portOf (after .helloPhaseEnd u) 0).st = 3) := by decide +kernel
theorem test_tree_candidate_is_adopted :
    (let t := after (.tree 5 0 0 1 2 false) (surveying 1 3)
     t.fab.candRoot = 0 ∧ t.fab.candDepth = 2 ∧ t.fab.candPort = 5 ∧ (portOf t 0).ctl.map (fun x => (x.ctype, x.a, x.b, x.c)) = [(2, 0, 2, 1)]) ∧
    (after .helloPhaseEnd { surveying 0 2 with clk := { linked.clk with t := 40000 } }).fab.st = 4 := by decide +kernel

/-- A member that leads a barrier, or is led by tile 0: its mode. -/
def barrier (m : Mode) (leader : Nat := 0) : State := { holding 0x7008 (BitVec.ofNat 32 (leader * 256)) linked with mode := m }
/-- A mode word. -/
def mode9 : ModeWord := ⟨2, 255, 0xFFFF, false⟩
theorem witness_TheModeBarrierPreparesAndCommits :
    heard 5 (barrier {}) = true ∧ fabHeld (barrier {}) = false ∧ 2 ≤ (barrier {}).boot.st ∧ tileId (barrier {}) = 1 ∧ leaderId (barrier {}) = 0 ∧
    routeFor (barrier {}) 2 = 5 ∧ portUp (barrier {}) 5 = true ∧ portUp (barrier {}) (routeFor (barrier {}) 9) = false ∧
    mayPrepare (barrier {}) 0 0 1 mode9 = true ∧ mayPrepare (barrier { joined := true, epoch := 255 }) 0 0 1 mode9 = false ∧
    (let s := barrier { prepared := some mode9, prepE := 1, prepSrc := 0 }
     s.mode.prepared = some mode9 ∧ s.mode.prepE = 1 ∧ s.mode.prepSrc = 0 ∧ leaderId s = 0 ∧ applyNow s = true ∧ heard 5 s = true) ∧
    (∀ e ∈ [([], [0, 2]), ([2], [0, 2]), ([0], [2])], let s := barrier { lead := 1, acks := e.1, members := [0, 2] }
      heard 5 s = true ∧ s.mode.lead = 1 ∧ 0 ∈ s.mode.members ∧ (∀ x ∈ e.2, x ∈ s.mode.members)) ∧
    (let s := barrier { prepared := some mode9, prepE := 1, prepSrc := 0 }
     heard 5 s = true ∧ applyNow s = true ∧ s.mode.prepared = some mode9 ∧ s.mode.committed = false ∧
     applyNow (seqIn 2 s) = false ∧ heard 5 (seqIn 2 s) = true) ∧
    (let s := barrier { joined := true, epoch := 1 }
     s.mode.prepared = none ∧ s.mode.joined = true ∧ s.mode.epoch = 1 ∧ heard 5 s = true) ∧
    (∀ d ∈ [[], [2]], let s := barrier { lead := 2, members := [0, 2], dones := d, cli := some { o := .scp } }
      heard 5 s = true ∧ s.mode.lead = 2 ∧ 0 ∈ s.mode.members) ∧
    (∀ e ∈ [(1, 0), (2, 3), (2, 4)], let u := barrier { lead := e.1, members := [0, 2], resends := e.2 }
      let s := { holding 0x9008 1 u with clk := { u.clk with t := 2000 } }
      s.mode.lead = e.1 ∧ s.mode.t0 + barrierTo s ≤ mclkOf s ∧ tileId s ∉ s.mode.members) := by decide +kernel
theorem test_prepare_stands_for_the_missed_commit :
    (let t := after (.prepare 0 0 0 1 1 2 mode9) (barrier { prepared := some mode9, prepE := 1, prepSrc := 0 })
     t.mode.epoch = 1 ∧ t.mode.rnd = 2 ∧ t.mode.joined = true) := by decide +kernel
theorem test_prepare_is_acknowledged :
    (after (.prepare 0 0 0 1 0 1 mode9) (barrier {})).mode.answers.map (fun x => (x.1, x.2.sub, x.2.a, x.2.b)) =
      [(mclkOf linked + 4, 1, 1, 0)] ∧
    (after (.commit 0 0 0 1 1) (barrier { prepared := some mode9, prepE := 1, prepSrc := 0 })).mode.epoch = 1 := by decide +kernel

-- Reduction.

/-- A RUNNING member of group 1 of two blocks, the first its own, that sends on port 5. -/
def member (f : Group → Group) (t : Nat := 16) : State :=
  let g : Group := { live := { cfg := 0x68020000, size := 0x01000002 }, st := 1, sumTok := 1, parTok := 1 }
  { linked with red := [{}, f g], clk := { linked.clk with t := t } }
/-- A flit of group 1: a sum flit (2) or a parameter flit (3) with OVS, of a block. -/
def groupFlit (rch ovs b : Nat) : Flit := redFlit rch 0 0 ovs b
/-- Whether a flit is taken at port 5. -/
def flitAt (s : State) (fl : Flit) (par : Nat) : Bool :=
  heard 5 s && decide (fieldN fl.side 30 2 = 2) && decide (flRch fl % 2 = par) && decide (flRch fl / 2 = 1)
/-- The member takes group flits: the unit is there and works, and nothing stands before them. -/
def adapts (s : State) : Bool :=
  decide (s.clk.st = 0) && hasAdapt s && decide (gRole (grp s 1) = 1) && decide (1 < s.red.length) && !s.fab.dup &&
    decide (transit s 5 2 = 0) && decide ((portOf s 5).inVc2 = []) && decide ((grp s 1).waiting = []) &&
    (natsTo 6).all fun m => m == 5 || decide ((portOf s m).inVc2 = [])
/-- Block 1 of another member, or block 0 of the tile's own, in a state. -/
def blockAt (b : Nat) (x : RBlk) (st : Nat := 1) : State := member fun g => { g with st := st, blks := [(b, x)] }

theorem witness_ReductionRoundsPassTheirFlits :
    (let s := member id
     redRuns s 1 = true ∧ (grp s 1).formed < gNblk (grp s 1) ∧ (grp s 1).t0 + 8 * ((grp s 1).formed + 1) ≤ mclkOf s ∧
     (grp s 1).waiting = [] ∧ gOut (grp s 1) = 5) ∧
    sumMay (blockAt 0 { formed := true }) 1 0 = true ∧ parMay (blockAt 0 { updated := true }) 1 0 = true ∧
    (let s := member id 131072
     redRuns s 1 = true ∧ (grp s 1).t0 + zeroIs 256 (fieldN (grp s 1).live.size 24 8) * 65536 ≤ mclkOf s) ∧
    (∀ e ∈ [(2, 0), (3, 1)], let fl := groupFlit e.1 0 0
      adapts (member id) = true ∧ flitAt (member id) fl e.2 = true ∧
      flitAt { member id with clk := { linked.clk with st := 1 } } fl e.2 = true ∧
      (let s : State := { member id with fab := { linked.fab with ports := linked.fab.ports.map fun p => { p with outVc2 := [(5, fl)] } } }
       flitAt s fl e.2 = true ∧ transit s 5 2 ≠ 0) ∧
      flitAt { member id with fab := { linked.fab with dup := true } } fl e.2 = true ∧
      flitAt linked fl e.2 = true ∧ linked.clk.st = 0 ∧ gRole (grp linked 1) = 0 ∧
      (let r := member fun g => { g with live := { g.live with cfg := 0xA8000000 } }
       flitAt r fl e.2 = true ∧ r.clk.st = 0 ∧ hasAdapt r = true ∧ gRole (grp r 1) = 2) ∧
      parOk fl = true ∧ parOk ⟨fl.data, fl.side ^^^ 1#32⟩ = false ∧
      flitAt (member id) ⟨fl.data, fl.side ^^^ 1#32⟩ e.2 = true) ∧
    (∀ b ∈ [0, 1], gOwns (grp (member id) 1) b = (b == 0) ∧ ∀ o ∈ [0, 1, 7], flBlock (groupFlit 2 o b) = b ∧ flOvs (groupFlit 2 o b) = o) ∧
    (∀ st ∈ [1, 3], ∀ b ∈ [0, 1], ∀ x ∈ [{}, { formed := true }, { formed := true, seen := 2 }], let s := blockAt b x st
      adapts s = true ∧ (grp s 1).st = st ∧ mget (grp s 1).blks {} b = x) ∧
    (∀ a ∈ [0, 15], let s := member fun g => { g with inPar := 1, blks := [(0, { updated := true }), (1, { arrived := a })] }
      adapts s = true ∧ gOwns (grp s 1) 0 = true ∧ flOvs (groupFlit 3 3 0) % 4 = 3 ∧ (grp s 1).st = 1 ∧
      ((∀ d, d < gNblk (grp s 1) → let y := mget (grp s 1).blks {} d
        if gOwns (grp s 1) d then y.updated = true ∧ (d = 0 ∨ y.home = true) else y.arrived = 15) ↔ a = 15)) ∧
    (∀ st ∈ [0, 1, 2, 3], adapts (blockAt 0 {} st) = true ∧ (grp (blockAt 0 {} st) 1).st = st) ∧
    (let s := member id
     flBlock (groupFlit 3 3 1) = 1 ∧
     spadFits s (32 * ((copyBase (grp s 1) (liveCopy s + 1) + 128 + 32 * 3) % spadBytes s / 32)) 32 = true) := by decide +kernel
/-- The member with a segment of one block, of rate 1 between -2 and 2, its areas apart. -/
def learning (x : RBlk) : State :=
  member fun g => { g with
    inSum := 1, blks := [(0, x)], live := { g.live with bases := 0x00020001, param := 4, end01 := 1, lr := [0x3F800000, 0, 0, 0]
                                                        pmin := [0xC0000000, 0, 0, 0], pmax := [0x40000000, 0, 0, 0] } }
theorem witness_ReductionRoundsPassTheirFlits_blocks :
    (let s := learning { formed := true }
     let g := grp s 1
     s.spad.flips = [] ∧ adapts s = true ∧ gOwns g 0 = true ∧ fieldN g.live.end01 0 12 = 1 ∧
     ∀ i < 4, ∀ a ∈ [residAt g 0, copyBase g (liveCopy s), copyBase g (liveCopy s + 1)],
       spadFits s (32 * ((a + 32 * i) % spadBytes s / 32)) 32 = true) := by decide +kernel
theorem test_block_is_updated :
    (let s := learning { formed := true }
     let fl := redFlit 2 (mantissas (1 :: List.replicate 31 3)) 0 0 0
     let t := after (.sumFlit 5 fl) s
     let g := grp s 1
     blockEntry t (copyBase g 1) 0 = 0xBF800000 ∧ blockEntry t (copyBase g 1) 31 = 0xC0000000 ∧
     (mget (grp t 1).blks {} 0).updated = true ∧ blockEntry t (copyBase g 0) 0 = 0) := by decide +kernel
theorem test_second_pass_corrects_the_residual :
    -- 21 × 2^0 was sent; with X one higher q is 10, so 21 − 20 = 1 stays, with the sign of the entry.
    (let s := learning { formed := true, m := 0x41A80000, sgn := 1, q := 21, seen := 1 }
     let t := after (.sumFlit 5 (redFlit 2 0 0 1 0)) s
     let g := grp s 1
     blockEntry t (residAt g 0) 0 = 0xBF800000 ∧ blockEntry t (residAt g 0) 1 = 0x3F800000 ∧ (mget (grp t 1).blks {} 0).seen = 2) := by
  decide +kernel
theorem test_member_adds_its_contribution :
    ((grp (after (.sumFlit 5 (groupFlit 2 0 1)) (blockAt 1 { formed := true, m := 0x41A80000, sgn := 1 })) 1).leaving.map fun e =>
       (e.1, [fieldN e.2.data 0 8, fieldN e.2.data 8 8, fieldN e.2.data 248 8])) =
      [(mclkOf (member id) + 4, [0xEB, 21, 21])] := by decide +kernel
theorem test_parameter_lands :
    (let t := after (.paramFlit 5 (redFlit 3 0xA5 7 3 1)) (member id)
     (mget (grp t 1).blks {} 1).arrived = 8 ∧ (mget (grp t 1).blks {} 1).x = 7 ∧
     spadByte t (copyBase (grp t 1) 1 + 128 + 96) = 0xA5#8) := by decide +kernel
theorem test_own_pass_comes_home_to_an_aborted_member :
    (let t := after (.sumFlit 5 (groupFlit 2 0 0)) (member fun g => { g with st := 3, sumTok := 0, inSum := 1 })
     (grp t 1).sumTok = 1 ∧ (grp t 1).inSum = 0 ∧ (portOf t 5).outVc2 = []) := by decide +kernel


/-- A tile with an event pending that goes to the host. -/
def pinsHigh : State :=
  { ready with ev := { ready.ev with pend := 1#128 <<< 127, routes := [(127, 1)] }, pins := { ready.pins with irqHost := true } }
theorem witness_EveryStepKeepsPinsFollowingEvents : PinsFollow pinsHigh := by
  unfold PinsFollow; decide +kernel
-- The worked example of R46: 0x3D3F is 167 / 128 and 7 / 1024, 0xC0A5 is −296 / 128 and −5 × 2 / 1024.
theorem test_pieces_of_an_fp16 :
    pieceOf 6 0 0x3D3F = .fin false 167 (-7) ∧ pieceOf 6 1 0x3D3F = .fin false 7 (-10) ∧
    pieceOf 6 0 0xC0A5 = .fin true 148 (-6) ∧ pieceOf 6 1 0xC0A5 = .fin true 5 (-9) := by decide +kernel

theorem witness_EveryStepKeepsTheMemoryCanonical :
    Memory.wf (dmaFresh ready 3 0x1234) = true ∧ (dmaFresh ready 3 0x1234).spad.data ≠ [] ∧
    (match step (dmaFresh ready 3 0x1234) with | .next _ => true | _ => false) = true := by decide +kernel

end Sys2Proof.Tests
end

section
/-! PROOFS. Accesses to the register window: how a meaning answers, that every row which is an access comes to `gated` (R435), the events
that a denial causes, and HCP's accesses to registers marked "SCP only" (R20). -/
namespace Sys2Proof.Machine

variable {s : State} {c i : Instr} {p : Port} {off : Nat} {val : W32}

/-- A meaning whose effect leads to `u`, which has the queue and the variant of `s`, answers with `u` but for the pins. -/
theorem answers_of_effect {f : State → State} {P : State → Prop} (u : State) (h : exec c s = act s f) (hu : f s = u)
    (hq : u.pending = s.pending) (hv : u.variant = s.variant) (hP : ∀ pins, P { u with pins := pins }) : Answers c s P := by
  refine ⟨_, h.trans (act_next s f), ?_⟩
  rw [hu, ← hq, ← hv]
  exact hP _

/-- State `u` is what some access of port p to the register at `off` leaves of `s`. -/
def LeftByAccess (s : State) (p : Port) (off : Nat) (u : State) : Prop := ∃ f, u = access p off f s

@[simp] theorem leftByAccess_access (f : State → State) : LeftByAccess s p off (access p off f s) := ⟨f, rfl⟩

@[simp] theorem leftByAccess_accessW (f : State → State) : LeftByAccess s p off (accessW p off val f s) := ⟨_, rfl⟩

@[simp] theorem leftByAccess_accessUnit (b : Bool) (f : State → State) : LeftByAccess s p off (accessUnit b p off f s) := ⟨_, rfl⟩

@[simp] theorem leftByAccess_accessData (wr : Option W32) (g : State → W32 → State) (h : State → State) :
    LeftByAccess s p off (accessData p off wr g h s) := by
  cases wr <;> exact ⟨_, rfl⟩

theorem leftByAccess_ite {b : Prop} [Decidable b] {u v : State} (hu : LeftByAccess s p off u) (hv : LeftByAccess s p off v) :
    LeftByAccess s p off (if b then u else v) := by
  split <;> assumption

theorem leftByAccess_ite_apply {b : Prop} [Decidable b] {f g : State → State} (hf : LeftByAccess s p off (f s))
    (hg : LeftByAccess s p off (g s)) : LeftByAccess s p off ((if b then f else g) s) := by
  split <;> assumption

theorem exec_sfuUcDataAccess (s : State) (wr : Option W32) : exec (.sfuUcDataAccess p wr) s = act s fun s =>
    if hasUcode s then accessData p 0x5018 wr ucWrite (ucRead · p) s else accessUnit false p 0x5018 id s := rfl

/-- The effect of a command that is an access to one register is that of an access (R435). -/
theorem exec_access (s : State) (h : accessOf i = some (p, off)) : ∃ f, exec i s = act s f ∧ LeftByAccess s p off (f s) := by
  unfold accessOf at h
  split at h
  all_goals try split at h
  all_goals cases h
  case h_17 => exact ⟨_, exec_sfuUcDataAccess s _, leftByAccess_ite (by simp) (by simp)⟩
  all_goals refine ⟨_, rfl, ?_⟩
  all_goals simp [leftByAccess_ite_apply, guardS, *]

/-- The event unit of `s` with one more cause in the present PCLK cycle (R425). -/
def evWith (s : State) (code arg : Nat) : Ev := { s.ev with due := s.ev.due ++ [(code, arg)] }

theorem raise_eq (s : State) (code arg : Nat) (h : (evClass code).isSome = true) :
    raise s code arg = { s with ev := evWith s code (arg % 65536) } := if_pos h

theorem portDenied_eq (s : State) (p : Port) : portDenied s p = { s with ev := evWith s 0x6B (portArg p) } := by
  cases p <;> exact raise_eq s _ _ (by decide)

theorem tableBusy_eq (s : State) : tableBusy s = { s with ev := evWith s 0x0D 0 } := raise_eq s _ _ (by decide)

theorem scpDenied_eq (s : State) : scpDenied s = { setRdata s .hcp 0 with ev := evWith s 0x6B 0 } := portDenied_eq _ _

theorem caused_of_evWith {s t : State} {code arg : Nat} (h : t.ev = evWith s code arg) : Caused t code := by
  simp [Caused, h, evWith]

theorem evGrows_of_evWith {s t : State} {code arg : Nat} (h : t.ev = evWith s code arg) : EvGrows s t := ⟨_, h⟩

/-- HCP reaches no register marked "SCP only" (R20). -/
theorem access_scpOnly (f : State → State) (hs : scpOnly off = true) (hh : accessHeld s = false) :
    access .hcp off f s = portAck .hcp (scpDenied s) := by
  simp [access, gated, hs, hh]

/-- Both kinds of command that bring an HCP access to a register marked "SCP only" do what the denial says. -/
theorem exec_scpOnly (hi : accessOf i = some (.hcp, off) ∨ ∃ we, i = .scpOnlyDenied off we) (hs : scpOnly off = true)
    (hh : accessHeld s = false) : ∃ f, exec i s = act s f ∧ f s = portAck .hcp (scpDenied s) := by
  obtain hi | ⟨we, rfl⟩ := hi
  · obtain ⟨f, hf, g, hg⟩ := exec_access s hi
    exact ⟨f, hf, hg.trans (access_scpOnly g hs hh)⟩
  · exact ⟨guardS _ (access .hcp off id), rfl, by rw [hs, hh]; exact access_scpOnly id hs hh⟩

/-- Settles O6: every row that is an access comes to `gated`, which denies HCP before the row's own effect. -/
theorem hcpAccessToScpOnlyIsDenied : Obligations.HcpAccessToScpOnlyIsDenied := by
  intro i s off hi hs hh
  obtain ⟨f, hf, hu⟩ := exec_scpOnly hi hs hh
  have hev : (portAck .hcp (scpDenied s)).ev = evWith s 0x6B 0 := by rw [scpDenied_eq]; rfl
  refine answers_of_effect _ hf hu rfl rfl fun pins => ⟨?_, ?_, caused_of_evWith hev, evGrows_of_evWith hev⟩
  · rw [scpDenied_eq]
    rfl
  · intro hl
    simp [scpDenied_eq, portAck, setRdata, portArg, lget_lupd, hl]

end Sys2Proof.Machine
end

section
/-! PROOFS. Commands from a mailbox: the acceptance of the one that waits, its completion, and the checks that come before its own
(R445 to R450). -/
namespace Sys2Proof.Machine

variable {s : State} {o : Origin} {w : CmdWords} {m op : Nat}

-- The acceptance of the command that waits in a mailbox (R445 to R447).

theorem mboxOf_lt (h : mboxOf o = some m) : m < 3 := by
  cases o <;> simp only [mboxOf, Option.some.injEq, reduceCtorEq] at h <;> omega

/-- A mailbox's command that is taken was issued, its cycle has come, and its words are the mailbox's. -/
theorem taken_mbox {x : Cli × State} (ho : mboxOf o = some m) (ht : taken o w s = some x) :
    s.mb.nextT ≤ pclkOf s ∧ mboxDue s m = true ∧ mboxWords s m = w := by
  unfold taken at ht
  split at ht
  · cases ht
  next hn =>
    cases o <;> simp only [mboxOf, Option.some.injEq, reduceCtorEq] at ho <;> subst ho <;> simp_all

/-- A command that can be taken now is accepted at once. -/
theorem acceptIn_taken {c : Cli} {u : State} (body : State → Cli → CmdWords → State) (ho : mboxOf o = some m)
    (ht : taken o w s = some (c, u)) (hop : fieldN w.w0 24 8 = op) : acceptIn op body o w s = judged op body u c w := by
  obtain ⟨hn, hd, hw⟩ := taken_mbox ho ht
  obtain ⟨hi, hg⟩ : mboxIssued s m = true ∧ lget s.mb.goT 0 m ≤ pclkOf s := by simpa [mboxDue] using hd
  have hwait : waitsIn s o w = true := by simp [waitsIn, ho, hi, hw]
  have hnow : acceptT s o ≤ pclkOf s := by simp [acceptT, ho, hn, hg]
  rw [acceptIn, if_pos (by simp [hop, hwait]), atPclk_now s _ _ hnow, accept, if_neg (by simp [hop]), ht]

/-- The row of a mailbox's opcode is the acceptance of the body of that opcode (R450). -/
theorem exec_mailRow {e : Nat × (Origin → CmdWords → Instr)} (he : e ∈ mailRows) :
    ∃ body, bodyOf e.1 = some body ∧ ∀ o w s, exec (e.2 o w) s = act s (acceptIn e.1 body o w) := by
  unfold mailRows at he
  fin_cases he <;> exact ⟨_, rfl, fun _ _ _ => rfl⟩

-- Completion (R448).

/-- An element that becomes the default reads as the default, be it in the list or past its end. -/
theorem lget_lupd_default {α : Type} (l : List α) (d : α) (n : Nat) : lget (lupd l n fun _ => d) d n = d := by
  rw [lget_lupd]
  split
  · rfl
  next h => exact lget_past l d n (by omega)

/-- MB_STATUS reads as it is held. -/
theorem readReg_mbStatus (t : State) (hm : m < 3) : readReg t (mboxBase m + 0x14) = reg t (mboxBase m + 0x14) := by
  interval_cases m <;> rfl

/-- A completed command shows its status. -/
theorem mbDone_mboxDone {t : State} (hm : m < 3) (st res : Nat) (hst : st < 256) (hr : t.regs = (mboxDone s m st res).regs)
    (hb : t.mb = (mboxDone s m st res).mb) : MbDone t m st := by
  have hv : reg t (mboxBase m + 0x14) = BitVec.ofNat 32
      (1073741824 + fieldN (reg s (mboxBase m)) 24 8 * 65536 + fieldN (reg s (mboxBase m)) 16 8 * 256 + st % 256) := by
    show mget t.regs 0 _ = _
    rw [hr]
    show reg (setReg (setReg s _ _) _ _) _ = _
    simp
  have ha : fieldN (reg s (mboxBase m)) 24 8 < 256 := Nat.mod_lt _ (by decide)
  have hc : fieldN (reg s (mboxBase m)) 16 8 < 256 := Nat.mod_lt _ (by decide)
  generalize fieldN (reg s (mboxBase m)) 24 8 = a at *
  generalize fieldN (reg s (mboxBase m)) 16 8 = c at *
  show _ ∧ _ ∧ _ ∧ _
  rw [readReg_mbStatus t hm, hv, hb]
  simp only [bitB, fieldN, BitVec.toNat_ofNat, Nat.shiftRight_eq_div_pow, beq_iff_eq, beq_eq_false_iff_ne]
  exact ⟨by omega, by omega, by omega, lget_lupd_default _ _ _⟩

/-- A completion changes a mailbox's status and result, and its state, whatever became of the state before it. -/
theorem answers_mboxDone {c : Instr} {f : State → State} {P : State → Prop} (v : State) (st : Nat) (h : exec c s = act s f)
    (hf : f s = mboxDone v m st 0) (hq : v.pending = s.pending) (hv : v.variant = s.variant) (hm : m < 3) (hst : st < 256)
    (hregs : v.regs = s.regs)
    (hP : ∀ t, t = { v with mb := t.mb, regs := t.regs, cyc := t.cyc, pins := t.pins } → MbDone t m st →
      RegsKept s t (mbRegs m) → P t) : Answers c s P := by
  have hfr := mboxDone_frame v m st 0
  refine answers_of_effect _ h hf (by rw [hfr]; exact hq) (by rw [hfr]; exact hv) fun pins => hP _ ?_ ?_ ?_
  · exact congrArg (fun x : State => { x with pins := pins }) hfr
  · exact mbDone_mboxDone hm st 0 hst rfl rfl
  · intro r hr
    have := mboxDone_regs v m st 0 r hr
    rwa [reg, reg, hregs] at this

-- The checks before a command's own (R447).

/-- Before start-up has ended every command but the image's completes with BUSY. -/
theorem judged_early (body : State → Cli → CmdWords → State) (c : Cli) (hb : s.boot.st < 6) (hc : c.o ≠ .image) :
    judged op body s c w = complete s c 1 0 := by
  simp [judged, hb, hc]

theorem raise_originArg (s : State) (o : Origin) :
    raise s 0x6B (originArg o) = { s with ev := evWith s 0x6B (originArg o) } := by
  cases o <;> exact raise_eq s _ _ (by decide)

/-- A command whose class its port may not issue is denied. -/
theorem judged_denied (body : State → Cli → CmdWords → State) (c : Cli) (hb : 6 ≤ s.boot.st) (hc : classOk s c op = false) :
    judged op body s c w = complete { s with ev := evWith s 0x6B (originArg c.o) } c 5 0 := by
  rw [← raise_originArg, judged, if_neg (by simp [Nat.not_lt.mpr hb]), if_pos (by simp [hc])]

/-- A command that passes both checks is its body's. -/
theorem judged_body (body : State → Cli → CmdWords → State) (c : Cli) (hb : 6 ≤ s.boot.st) (hc : classOk s c op = true) :
    judged op body s c w = body s c w := by
  simp [judged, hc, Nat.not_lt.mpr hb]

/-- The status of a command that sets an unassigned bit: UNSUPPORTED where its unit is absent (R9), else BAD_ARG. -/
def uncleanStatus (s : State) (o : Origin) (w : CmdWords) (op : Nat) : Nat :=
  if (op = 0x42 ∧ hasAdapt s = false) ∨ (op = 0x60 ∧ levelOf s (resetSrc o) = 3 ∧ hasUnit s (fieldN w.w0 0 5) = false) then 3 else 2

theorem uncleanStatus_of_ne (h : op ≠ 0x42) (h' : op ≠ 0x60) : uncleanStatus s o w op = 2 := by simp [uncleanStatus, h, h']

theorem firstFail_head {b : Bool} {n : Nat} {l : List (Bool × Nat)} {c : Cli} {f : State → State} (h : b = true) :
    firstFail ((b, n) :: l) s c f = complete s c n 0 := by
  subst h; rfl

/-- A STORE or a FETCH whose first check fails shows it as its last result too. -/
theorem storeFail_head {b : Bool} {l : List (Bool × Nat)} {c : Cli} {f : State → State} (h : b = true) :
    storeFail ((b, 2) :: l) s c f = complete { s with store := { s.store with last := 6 } } c 2 0 := by
  subst h; rfl

theorem storeBody_unclean {c : Cli} (hc : argsClean w 0x30 = false) :
    storeBody s c w = complete { s with store := { s.store with last := 6 } } c 2 0 := by
  unfold storeBody
  exact storeFail_head (by simp_all [storeArgBad, argsClean, argBits])

theorem fetchBody_unclean {c : Cli} (hc : argsClean w 0x31 = false) :
    fetchBody s c w = complete { s with store := { s.store with last := 6 } } c 2 0 := by
  unfold fetchBody
  extract_lets
  exact storeFail_head (by simp_all [argsClean, argBits])

/-- REDUCE_ROUND finds its unit absent before it looks at its words. -/
theorem reduceBody_unclean {c : Cli} (hc : argsClean w 0x42 = false) :
    reduceBody s c w = complete s c (uncleanStatus s c.o w 0x42) 0 := by
  have hw : argsOk w 1 0 0 0 = false := hc
  cases ha : hasAdapt s <;> simp [reduceBody, firstFail, uncleanStatus, ha, hw]

/-- RESET of a unit finds it absent before it looks at its words. -/
theorem resetBody_unclean {c : Cli} (hc : argsClean w 0x60 = false) :
    resetBody s c w = complete s c (uncleanStatus s c.o w 0x60) 0 := by
  have hw : argsOk w 0x1F 0 0 0 = false := hc
  by_cases hl : levelOf s (resetSrc c.o) = 3 <;> cases hu : hasUnit s (fieldN w.w0 0 5) <;>
    simp [resetBody, firstFail, uncleanStatus, arg0, hl, hu, hw]

/-- DBG_PEEK assigns bits of ARG1 by what it reads, and looks at its words first in both cases. -/
theorem peekBody_unclean {c : Cli} (hc : argsClean w 0x70 = false) : peekBody s c w = complete s c 2 0 := by
  simp only [argsClean, argBits] at hc
  rw [peekBody, arg0]
  split at hc
  next h => rw [if_pos h]; exact firstFail_head (by simp [hc])
  next h => rw [if_neg h]; exact firstFail_head (by simp [hc])

/-- The body of a command that sets an unassigned bit changes nothing but that it completes, and the last result of a STORE or a FETCH. -/
theorem body_unclean {body : State → Cli → CmdWords → State} (c : Cli) (hb : bodyOf op = some body) (hc : argsClean w op = false) :
    ∃ k, body s c w = complete { s with store := { s.store with last := k } } c (uncleanStatus s c.o w op) 0 := by
  unfold bodyOf at hb
  split at hb
  all_goals cases hb
  case h_17 => exact ⟨6, storeBody_unclean hc⟩
  case h_18 => exact ⟨6, fetchBody_unclean hc⟩
  case h_21 => exact ⟨s.store.last, reduceBody_unclean hc⟩
  case h_25 => exact ⟨s.store.last, resetBody_unclean hc⟩
  case h_26 => exact ⟨s.store.last, peekBody_unclean hc⟩
  all_goals
    refine ⟨s.store.last, ?_⟩
    rw [uncleanStatus_of_ne (by decide) (by decide)]
    simp only [argsClean, argBits] at hc
    simp only [armBody, chStopBody, chResumeBody, chAbortBody, ringSetBody, bindBody, evictBody, reloadBody, zeroBody, acceptBody,
      closeBody, runBody, haltBody, stopBody, resumeBody, abortBody, modeBody, resurveyBody, openExportBody, openImportBody,
      winCloseBody, pokeBody]
    exact firstFail_head (by simp_all [ringArgBad, bindArgBad, seamArgBad])

/-- Settles O20: the row of a waiting opcode is accepted at once, and `judged` and then the body's first check end it. -/
theorem commandChecksComeInOrder : Obligations.CommandChecksComeInOrder := by
  intro s o m w e he ho ht hop
  obtain ⟨body, hbody, hexec⟩ := exec_mailRow he
  have hm := mboxOf_lt ho
  have hacc : acceptIn e.1 body o w s = judged e.1 body (mboxTake s m) { o := o } w := acceptIn_taken body ho ht hop
  have himg : o ≠ .image := by rintro rfl; cases ho
  refine ⟨fun hb => ?_, fun hb hc => ?_, fun hb hc ha => ?_⟩
  · rw [judged_early (s := mboxTake s m) body _ hb himg, complete_mbox _ _ m _ _ ho] at hacc
    exact answers_mboxDone _ 1 (hexec o w s) hacc rfl rfl hm (by decide) rfl fun t hfr hd hk => ⟨hfr, hd, hk⟩
  · rw [judged_denied (s := mboxTake s m) body _ hb hc, complete_mbox _ _ m _ _ ho] at hacc
    refine answers_mboxDone _ 5 (hexec o w s) hacc rfl rfl hm (by decide) rfl fun t hfr hd hk => ?_
    have hev : t.ev = evWith s 0x6B (originArg o) := congrArg State.ev hfr
    exact ⟨by rw [hev]; exact hfr, hd, hk, caused_of_evWith hev, evGrows_of_evWith hev⟩
  · obtain ⟨k, hk⟩ := body_unclean (s := mboxTake s m) { o := o } hbody ha
    rw [judged_body (s := mboxTake s m) body _ hb hc, hk, complete_mbox _ _ m _ _ ho] at hacc
    refine answers_mboxDone _ _ (hexec o w s) hacc rfl rfl hm (by unfold uncleanStatus; split <;> decide) rfl
      fun t hfr hd hk => ⟨?_, hk, hd⟩
    have hl : t.store.last = k := by rw [hfr]
    rw [hl]
    exact hfr

end Sys2Proof.Machine
end

section
/-! PROOFS. Writes that ports make to one register in a PCLK cycle: what a bit holds after writes in turn (R17, R19), and that the order
of R436 comes to such writes. -/
namespace Sys2Proof.Machine

variable {s t u : State} {p : Port} {off : Nat} {val : W32}

-- One bit of a register under the writes of a PCLK cycle (R17, R19).

/-- A bit after a write of `v`: one that the tile set or updated stands, an RW bit takes the bit written, and a W1C bit is
cleared by a 1. -/
def bitStored (tile rw w1c b v : Bool) : Bool := if tile then b else if rw then v else b && !(w1c && v)

/-- A bit after writes in turn. -/
def bitAfter (tile rw w1c b : Bool) (vs : List Bool) : Bool := vs.foldl (bitStored tile rw w1c) b

variable {tile rw w1c b v : Bool} {vs ws : List Bool}

theorem bitAfter_append : bitAfter tile rw w1c b (vs ++ ws) = bitAfter tile rw w1c (bitAfter tile rw w1c b vs) ws :=
  List.foldl_append

theorem bitAfter_tile (h : tile = true) : bitAfter tile rw w1c b vs = b := by
  induction vs with
  | nil => rfl
  | cons v vs ih => simpa [bitAfter, bitStored, h] using ih

/-- An RW bit holds what the last write gave it. -/
theorem bitAfter_rw (ht : tile = false) (hr : rw = true) : bitAfter tile rw w1c b vs = vs.getLastD b := by
  induction vs generalizing b with
  | nil => rfl
  | cons v vs ih =>
    rw [List.getLastD_cons, ← ih]
    simp [bitAfter, bitStored, ht, hr]

/-- A bit that no write stores in stays 0. -/
theorem bitAfter_false (hr : rw = false) : bitAfter tile rw w1c false vs = false := by
  induction vs with
  | nil => rfl
  | cons v vs ih => simpa [bitAfter, bitStored, hr] using ih

/-- A W1C bit is 0 once a write has brought a 1. -/
theorem bitAfter_w1c (ht : tile = false) (hr : rw = false) (hw : w1c = true) (h : true ∈ vs) : bitAfter tile rw w1c b vs = false := by
  obtain ⟨l, r, rfl⟩ := List.append_of_mem h
  have hone (x : Bool) : bitAfter tile rw w1c x [true] = false := by simp [bitAfter, bitStored, ht, hr, hw]
  rw [List.append_cons, bitAfter_append, bitAfter_append, hone, bitAfter_false hr]

/-- One write leaves a bit that it neither stores in nor clears. -/
theorem bitAfter_kept (hr : rw = false) (h : w1c = false ∨ v = false) : bitAfter tile rw w1c b [v] = b := by
  rcases h with rfl | rfl <;> simp [bitAfter, bitStored, hr]

-- Host changes of one register.

theorem reg_hostReg (s : State) (o o' : Nat) (v : W32) :
    reg (hostReg s o v) o' = if o' = o then (v &&& ~~~tileBits s o) ||| (reg s o &&& tileBits s o) else reg s o' := by
  simp [hostReg, reg, putReg]

theorem getLsbD_hostReg (s : State) (o : Nat) (v : W32) {i : Nat} (hi : i < 32) :
    (reg (hostReg s o v) o).getLsbD i = if (tileBits s o).getLsbD i then (reg s o).getLsbD i else v.getLsbD i := by
  simp only [reg_hostReg, if_true, BitVec.getLsbD_or, BitVec.getLsbD_and, BitVec.getLsbD_not, hi, decide_true, Bool.true_and]
  cases (tileBits s o).getLsbD i <;> simp

/-- The note of a write keeps what the tile set or updated in the PCLK cycle. -/
theorem tileBits_noteWrite (d : Bool) (o : Nat) : tileBits (noteWrite p off val d s u) o = tileBits u o := by
  have h : cycNow (noteWrite p off val d s u) = (noteWrite p off val d s u).cyc := if_pos (by
    simp only [noteWrite, cycNow]
    split
    · assumption
    · rfl)
  simp only [tileBits, h]
  rfl

/-- From `s` to `t` ports have changed nothing but bits of the register at `off` that the tile has neither set nor updated. -/
structure HostChanges (off : Nat) (s t : State) : Prop where
  frame : t = { s with regs := t.regs, cyc := t.cyc }
  kept : RegsKept s t [off]
  tile : tileBits t off = tileBits s off
  bits : ∀ i, (tileBits s off).getLsbD i = true → (reg t off).getLsbD i = (reg s off).getLsbD i

theorem HostChanges.refl (s : State) : HostChanges off s s := ⟨rfl, fun _ _ => rfl, rfl, fun _ _ => rfl⟩

theorem HostChanges.trans (h : HostChanges off s t) (k : HostChanges off t u) : HostChanges off s u where
  frame := by rw [k.frame, h.frame]
  kept o ho := (k.kept o ho).trans (h.kept o ho)
  tile := k.tile.trans h.tile
  bits i hi := (k.bits i (by rwa [h.tile])).trans (h.bits i hi)

theorem hostChanges_hostReg (v : W32) : HostChanges off s (hostReg s off v) where
  frame := rfl
  kept o ho := by simp_all [reg_hostReg]
  tile := rfl
  bits i hi := by rw [getLsbD_hostReg _ _ _ (BitVec.lt_of_getLsbD hi), if_pos hi]

theorem hostChanges_noteWrite (d : Bool) : HostChanges off u (noteWrite p off val d s u) :=
  ⟨rfl, fun _ _ => rfl, tileBits_noteWrite d off, fun _ _ => rfl⟩

theorem HostChanges.ev (h : HostChanges off s t) : t.ev = s.ev := by rw [h.frame]

theorem HostChanges.rwBits (h : HostChanges off s t) (o : Nat) : rwBits t o = rwBits s o := by rw [h.frame]; rfl

/-- From `s` to `t` ports have written `vs` in turn to the register at `off`, which has no operation of its own. -/
structure Stores (off : Nat) (s t : State) (vs : List W32) : Prop extends HostChanges off s t where
  stored : ∀ i < 32, (reg t off).getLsbD i =
    bitAfter ((tileBits s off).getLsbD i) ((Machine.rwBits s off).getLsbD i) ((w1cBits off).getLsbD i) ((reg s off).getLsbD i)
      (vs.map (·.getLsbD i))

theorem Stores.trans {vs ws : List W32} (h : Stores off s t vs) (k : Stores off t u ws) : Stores off s u (vs ++ ws) where
  toHostChanges := h.toHostChanges.trans k.toHostChanges
  stored i hi := by rw [k.stored i hi, h.tile, h.toHostChanges.rwBits, h.stored i hi, List.map_append, bitAfter_append]

theorem stores_noteWrite (d : Bool) : Stores off u (noteWrite p off val d s u) [] :=
  ⟨hostChanges_noteWrite d, fun _ _ => rfl⟩

-- Registers whose writes are no operation of their own, and store by access code alone.

/-- The register at `off` has neither an operation of its own nor a rule of its own: it is none of the mailboxes, BENCH_DIRn, the TD file,
EVT_ROUTE, VEC_RCP_DIR and CLK_DUMP. -/
structure PlainReg (off : Nat) : Prop where
  aligned : off % 4 = 0
  inside : off < 0x10000
  own : ownRow off = false
  noMbox : ¬ (0x100 ≤ off ∧ off < 0x160)
  noDir : ¬ (0x3080 ≤ off ∧ off < 0x30C0)
  noTd : ¬ (0x3400 ≤ off ∧ off < 0x3C00)
  noRoute : off ≠ 0x814
  noRcpDir : off ≠ 0x4818
  noDump : off ≠ 0x31C

theorem PlainReg.hasOwnWrite (h : PlainReg off) (val : W32) : hasOwnWrite off val = false := by
  simp [Machine.hasOwnWrite, h.own, h.noRcpDir, h.noDump]

theorem plainWrite_plain (h : PlainReg off) : plainWrite s p off val =
    if rwBits s off = 0 && w1cBits off &&& val = 0 then s
    else hostReg s off ((reg s off &&& ~~~rwBits s off &&& ~~~(w1cBits off &&& val)) ||| (val &&& rwBits s off)) := by
  unfold plainWrite
  rw [if_neg (by simpa using ⟨h.aligned, h.inside⟩), if_neg (by simpa using h.noMbox), if_neg h.noRoute, if_neg h.noRcpDir,
    if_neg h.noDump, if_neg (by simpa using h.noDir), if_neg (by simpa using h.noTd)]

/-- A write of a plain register stores by access code. -/
theorem stores_plainWrite (h : PlainReg off) : Stores off s (plainWrite s p off val) [val] := by
  rw [plainWrite_plain h]
  split
  next hn =>
    obtain ⟨hm, hc⟩ : rwBits s off = 0 ∧ w1cBits off &&& val = 0 := by simpa using hn
    refine ⟨.refl s, fun i _ => ?_⟩
    have hci : ((w1cBits off).getLsbD i && val.getLsbD i) = false := by rw [← BitVec.getLsbD_and, hc]; simp
    simp [bitAfter, bitStored, hm, hci]
  next =>
    refine ⟨hostChanges_hostReg _, fun i hi => ?_⟩
    rw [getLsbD_hostReg _ _ _ hi]
    simp only [bitAfter, bitStored, List.map_cons, List.map_nil, List.foldl_cons, List.foldl_nil, BitVec.getLsbD_or,
      BitVec.getLsbD_and, BitVec.getLsbD_not, hi, decide_true, Bool.true_and]
    cases (rwBits s off).getLsbD i <;> simp

/-- A plain register is written the same way where writes of a cycle are performed again. -/
theorem anyWrite_plain (h : PlainReg off) : anyWrite s p off val = plainWrite s p off val := by
  obtain ⟨-, -, hown, -, -, -, -, hdir, hdump⟩ := h
  simp only [ownRow, Bool.or_eq_false_iff, Bool.and_eq_false_iff, decide_eq_false_iff_not, beq_eq_false_iff_ne] at hown
  obtain ⟨⟨⟨hlist, hregion⟩, hmembers⟩, hbell⟩ := hown
  unfold anyWrite
  rw [if_neg (by simp; omega), if_neg (by simp; omega), if_neg (by simp; omega)]
  split
  case h_36 => rfl
  -- Of the registers named, CLK_DUMP and VEC_RCP_DIR alone have no row for every write.
  case h_8 => exact absurd rfl hdump
  case h_21 => exact absurd rfl hdir
  all_goals exact absurd hlist (by decide)

/-- A plain register is no data register and no MB_GO, so that nothing but itself is taken back. -/
theorem takeBack_plain (h : PlainReg off) (later : List PortWrite) : takeBack off later s = hostReg s off (beforeOf s off).held := by
  have haddr : addrOf off = off := by
    obtain ⟨-, -, hown, hmbox, -⟩ := h
    unfold addrOf
    split
    case h_9 => rfl
    case h_1 | h_2 | h_3 => exact absurd hmbox (by decide)
    all_goals exact absurd hown (by decide)
  have hgo : isGo off = false := by
    have := h.noMbox
    simp [isGo]
    omega
  simp [takeBack, haddr, hgo, h.noRcpDir, h.noDump]

theorem stores_again (h : PlainReg off) (l : List PortWrite) (hl : ∀ w ∈ l, w.off = off) :
    Stores off s (eachS l (fun w s => anyWrite s w.port w.off w.val) s) (l.map (·.val)) := by
  induction l generalizing s with
  | nil => exact ⟨.refl s, fun _ _ => rfl⟩
  | cons w l ih =>
    have hw : Stores off s (anyWrite s w.port w.off w.val) [w.val] := by
      rw [hl w (by simp), anyWrite_plain h]
      exact stores_plainWrite h
    exact hw.trans (ih fun x hx => hl x (by simp [hx]))

theorem laterWrites_off {w : PortWrite} (hw : w ∈ laterWrites s p off) : w.off = off := by
  unfold laterWrites at hw
  split at hw
  · cases hw
  · simp only [List.mem_flatMap, List.mem_filter, Bool.and_eq_true, beq_iff_eq] at hw
    obtain ⟨_, _, _, ⟨⟨hoff, _⟩, _⟩, _⟩ := hw
    exact hoff

/-- A write that refuses nothing is an effect on the events' causes that adds none. -/
theorem refuses_of_ev {f : State → State} (h : ∀ u, (f u).ev = u.ev) : refuses f s = false := by
  simp [refuses, h]

/-- A write of a plain register in the order of R436: the later ports' writes are taken back, and performed again after it. -/
theorem inOrder_plain (h : PlainReg off) : ∃ r, HostChanges off s r ∧ (laterWrites s p off = [] → r = s) ∧
    Stores off r (inOrder p off val (plainWrite · p off val) s) (val :: (laterWrites s p off).map (·.val)) := by
  have href (u : State) : refuses (plainWrite · p off val) u = false :=
    refuses_of_ev fun u => (stores_plainWrite h).toHostChanges.ev
  by_cases hl : laterWrites s p off = []
  · refine ⟨s, .refl s, fun _ => rfl, ?_⟩
    rw [inOrder_last s p off val _ hl, hl]
    exact (stores_plainWrite h).trans (stores_noteWrite _)
  · refine ⟨takeBack off (laterWrites s p off) s, ?_, fun hn => absurd hn hl, ?_⟩
    · rw [takeBack_plain h]
      exact hostChanges_hostReg _
    · have he : inOrder p off val (plainWrite · p off val) s =
          eachS (laterWrites s p off) (fun w s => anyWrite s w.port w.off w.val)
            (noteWrite p off val true s (plainWrite (takeBack off (laterWrites s p off) s) p off val)) := by
        simp [inOrder, hl, href]
      rw [he]
      exact ((stores_plainWrite h).trans (stores_noteWrite _)).trans (stores_again h _ fun w hw => laterWrites_off hw)

end Sys2Proof.Machine
end

section
/-! PROOFS. REG_WRITE: how it is answered, and what it does to the mailboxes, the tables and the other registers that have a rule of their
own (R190, R237, R396, R427, R446). -/
namespace Sys2Proof.Machine

variable {s : State} {p : Port} {off m : Nat} {val : W32}

-- REG_WRITE (R17, R435, R436).

/-- A performed write of a register whose writes are no operation of their own is answered with what its place in the
order of R436 leaves. -/
theorem answers_regWrite {P : State → Prop} (u : State) (hp : Performed s p off) (hown : hasOwnWrite off val = false)
    (hu : inOrder p off val (plainWrite · p off val) s = u) (hq : u.pending = s.pending) (hv : u.variant = s.variant)
    (hP : ∀ pins, P { u with mb := ackedMb u p u.mb.rdata, pins := pins }) : Answers (.regWrite p off val) s P := by
  have hacc : (if hasOwnWrite off val then access p off id else accessW p off val fun s => plainWrite s p off val) s = portAck p u := by
    rw [hown, ← hu]
    exact access_performed s p off _ hp
  exact answers_of_effect (portAck p u) rfl hacc hq hv hP

/-- The same where no write to the register came before in the cycle: nothing but the record of the cycle is added to what the
write does. -/
theorem answers_regWrite_alone {P : State → Prop} (u : State) (hr : Reached s p off) (hown : hasOwnWrite off val = false)
    (hu : plainWrite s p off val = u) (hq : u.pending = s.pending) (hv : u.variant = s.variant)
    (hP : ∀ cyc pins, P { u with mb := ackedMb u p u.mb.rdata, cyc := cyc, pins := pins }) : Answers (.regWrite p off val) s P := by
  have hin := inOrder_last s p off val (plainWrite · p off val) (laterWrites_alone s p off hr.2)
  rw [hu] at hin
  exact answers_regWrite _ hr.1 hown hin hq hv fun pins => hP _ pins

/-- A refused write is the cause of an event, and changes nothing. -/
theorem answers_regWrite_refused (code arg : Nat) (hr : Reached s p off) (hown : hasOwnWrite off val = false)
    (hu : plainWrite s p off val = { s with ev := evWith s code arg }) : Answers (.regWrite p off val) s fun t =>
      t = { s with mb := ackedMb s p s.mb.rdata, ev := t.ev, cyc := t.cyc, pins := t.pins } ∧ Caused t code ∧ EvGrows s t :=
  answers_regWrite_alone _ hr hown hu rfl rfl fun _ _ => ⟨rfl, caused_of_evWith rfl, evGrows_of_evWith rfl⟩

/-- A plain register after a write, and after those of later ports in the same cycle (R436). -/
theorem answers_regWrite_plain (h : PlainReg off) (hp : Performed s p off) :
    let after := (laterWrites s p off).map (·.val)
    Answers (.regWrite p off val) s fun t =>
      t = { s with mb := ackedMb s p s.mb.rdata, regs := t.regs, cyc := t.cyc, pins := t.pins } ∧ RegsKept s t [off] ∧
      ∀ i, i < 32 →
        ((tileBits s off).getLsbD i = true → (reg t off).getLsbD i = (reg s off).getLsbD i) ∧
        ((tileBits s off).getLsbD i = false →
          ((rwBits s off).getLsbD i = true → (reg t off).getLsbD i = (after.getLastD val).getLsbD i) ∧
          ((rwBits s off).getLsbD i = false → (w1cBits off).getLsbD i = true → (∃ v ∈ val :: after, v.getLsbD i = true) →
            (reg t off).getLsbD i = false) ∧
          ((rwBits s off).getLsbD i = false → ((w1cBits off).getLsbD i = false ∨ val.getLsbD i = false) → after = [] →
            (reg t off).getLsbD i = (reg s off).getLsbD i)) := by
  intro after
  obtain ⟨r, hr, hrs, hst⟩ := inOrder_plain (s := s) (p := p) (val := val) h
  have hall := hr.trans hst.toHostChanges
  have hfr := hall.frame
  generalize hu : inOrder p off val (plainWrite · p off val) s = u at *
  refine answers_regWrite u hp (h.hasOwnWrite val) hu (by rw [hfr]) (by rw [hfr]) fun pins => ⟨?_, hall.kept, fun i hi => ?_⟩
  · have hmb : ackedMb u p u.mb.rdata = ackedMb s p s.mb.rdata := by rw [hfr]; rfl
    rw [hmb]
    exact congrArg (fun x : State => { x with mb := ackedMb s p s.mb.rdata, pins := pins }) hfr
  · have hbit := hst.stored i hi
    rw [hr.tile, hr.rwBits] at hbit
    refine ⟨hall.bits i, fun ht => ⟨fun hrw => ?_, fun hrw hw hv => ?_, fun hrw hw ha => ?_⟩⟩
    · refine hbit.trans ?_
      rw [bitAfter_rw ht hrw, List.map_cons, List.getLastD_cons, List.getLastD_eq_getLast?, List.getLast?_map, Option.getD_map,
        ← List.getLastD_eq_getLast?]
    · exact hbit.trans (bitAfter_w1c ht hrw hw (List.mem_map.mpr hv))
    · have hl : laterWrites s p off = [] := List.map_eq_nil_iff.mp ha
      rw [hrs hl, hl] at hbit
      exact hbit.trans (bitAfter_kept hrw hw)

-- Mailboxes (R446, R454).

theorem hasOwnWrite_mbox (h : 0x100 ≤ off ∧ off < 0x160) : hasOwnWrite off val = false := by
  simp [hasOwnWrite, ownRow]
  omega

/-- A write of the register at `o` of mailbox m. -/
theorem plainWrite_mbox {m o : Nat} (hm : m < 3) (ho : o < 0x20) (h4 : o % 4 = 0) : plainWrite s p (mboxBase m + o) val =
    if o = 0x18 then s
    else if o = 0x14 then
      (if bitB val 30 then hostReg s (mboxBase m + o) (reg s (mboxBase m + o) &&& 0xBFFFFFFF) else s)
    else if o = 0x10 && val.getLsbD 0 && portArg p ≠ m then portDenied s p
    else if lget s.mb.st 0 m ≠ 0 then tableBusy s
    else if o < 0x10 then putReg s (mboxBase m + o) val
    else if o = 0x1C then putReg s (mboxBase m + o) (val &&& 0x800000FF)
    else if val.getLsbD 0 then mboxGo s m
    else s := by
  have hin : 0x100 ≤ mboxBase m + o ∧ mboxBase m + o < 0x160 := by unfold mboxBase; omega
  have hk : (mboxBase m + o - 0x100) / 32 = m := by unfold mboxBase; omega
  have hr : (mboxBase m + o) % 32 = o := by unfold mboxBase; omega
  have hw : (mboxBase m + o) % 4 = 0 ∧ mboxBase m + o < 0x10000 := by unfold mboxBase; omega
  unfold plainWrite
  rw [if_neg (by simpa using hw), if_pos (by simpa using hin)]
  simp only [mboxWrite, hk, hr]

/-- The words of a free mailbox are stored. -/
theorem plainWrite_mboxWord {m o : Nat} (hm : m < 3) (ho : o < 0x10 ∨ o = 0x1C) (h4 : o % 4 = 0) (hst : lget s.mb.st 0 m = 0) :
    plainWrite s p (mboxBase m + o) val = putReg s (mboxBase m + o) (if o = 0x1C then val &&& 0x800000FF else val) := by
  rw [plainWrite_mbox hm (by omega) h4]
  rcases ho with ho | rfl
  · simp [hst, ho, show o ≠ 0x10 by omega, show o ≠ 0x14 by omega, show o ≠ 0x18 by omega, show o ≠ 0x1C by omega]
  · simp [hst]

/-- The words of a busy mailbox are refused. -/
theorem plainWrite_mboxBusy {m o : Nat} (hm : m < 3) (ho : o < 0x10 ∨ o = 0x1C) (h4 : o % 4 = 0) (hst : lget s.mb.st 0 m ≠ 0) :
    plainWrite s p (mboxBase m + o) val = { s with ev := evWith s 0x0D 0 } := by
  rw [plainWrite_mbox hm (by omega) h4, tableBusy_eq]
  simp [hst, show o ≠ 0x10 by omega, show o ≠ 0x14 by omega, show o ≠ 0x18 by omega]

/-- GO by a port that is not the mailbox's own is denied. -/
theorem plainWrite_goDenied {m : Nat} (hm : m < 3) (hv : val.getLsbD 0 = true) (hp : portArg p ≠ m) :
    plainWrite s p (mboxBase m + 0x10) val = { s with ev := evWith s 0x6B (portArg p) } := by
  rw [plainWrite_mbox hm (by decide) (by decide), portDenied_eq]
  simp [hv, hp]

/-- GO by the mailbox's own port: refused while the mailbox is busy, and else performed. -/
theorem plainWrite_go {m : Nat} (hm : m < 3) (hv : val.getLsbD 0 = true) (hp : portArg p = m) :
    plainWrite s p (mboxBase m + 0x10) val =
      if lget s.mb.st 0 m = 0 then mboxGo s m else { s with ev := evWith s 0x0D 0 } := by
  rw [plainWrite_mbox hm (by decide) (by decide), tableBusy_eq]
  simp [hv, hp]

/-- GO changes MB_STATUS and the mailbox's own state. -/
theorem mboxGo_frame (s : State) (m : Nat) : mboxGo s m = { s with regs := (mboxGo s m).regs, cyc := (mboxGo s m).cyc, mb := { s.mb with
    st := lupd s.mb.st m fun _ => 1, goT := lupd s.mb.goT m fun _ => pclkOf s + 1 } } := by
  rw [mboxGo, setReg_frame]
  rfl

/-- MB_STATUS after GO: BUSY 1, DONE 0. -/
theorem mboxGo_status (s : State) (m : Nat) :
    bitB (reg (mboxGo s m) (mboxBase m + 0x14)) 31 = true ∧ bitB (reg (mboxGo s m) (mboxBase m + 0x14)) 30 = false := by
  have h : reg (mboxGo s m) (mboxBase m + 0x14) =
      word [(1, 31), (fieldN (reg s (mboxBase m)) 24 8, 16), (fieldN (reg s (mboxBase m)) 16 8, 8)] := by
    show reg (setReg s _ _) _ = _
    simp
  have ha : fieldN (reg s (mboxBase m)) 24 8 < 256 := Nat.mod_lt _ (by decide)
  have hc : fieldN (reg s (mboxBase m)) 16 8 < 256 := Nat.mod_lt _ (by decide)
  rw [h]
  generalize fieldN (reg s (mboxBase m)) 24 8 = a at *
  generalize fieldN (reg s (mboxBase m)) 16 8 = c at *
  simp [word, bitB, fieldN, Nat.shiftLeft_eq, Nat.shiftRight_eq_div_pow]
  omega

theorem mboxGo_regs (s : State) (m : Nat) : RegsKept s (mboxGo s m) [mboxBase m + 0x14] := by
  intro o ho
  show reg (setReg s _ _) o = reg s o
  simp_all

-- Registers with a rule of their own.

/-- A write of EVT_ROUTE waits for the next PCLK cycle; a reserved code has no route. -/
theorem routeWrite_eq (s : State) (val : W32) :
    let c := regF s 0x810 0 7
    routeWrite s val = { s with ev := { s.ev with
      routeNew := s.ev.routeNew ++ (if evClass c = none then [] else [(c, fieldN val 0 4)]) } } := by
  intro c
  unfold routeWrite
  cases h : evClass (regF s 0x810 0 7) <;> simp [c, h]

theorem plainWrite_dir (h4 : off % 4 = 0) (hlo : 0x3080 ≤ off) (hhi : off < 0x30C0) (hs : seqTablesBusy s = false) :
    plainWrite s p off val = hostReg s off (val &&& 0x80003FFF) := by
  unfold plainWrite
  rw [if_neg (by simp; omega), if_neg (by simp; omega), if_neg (by omega), if_neg (by omega), if_neg (by omega),
    if_pos (by simp [hlo, hhi]), if_neg (by simp [hs])]

/-- A word of the TD file is stored, and a failed parity goes with the old word. -/
theorem plainWrite_td (h4 : off % 4 = 0) (hlo : 0x3400 ≤ off) (hhi : off < 0x3C00) (hs : seqTablesBusy s = false) :
    let k := (off - 0x3400) / 4
    plainWrite s p off val = { hostReg s off (val &&& tdMask (k % 8)) with
      seq := { s.seq with badTd := s.seq.badTd.filter (· != k) } } := by
  intro k
  have hreg : 0x3400 + 0x20 * ((off - 0x3400) / 32) + 4 * (off % 32 / 4) = off := by omega
  have hword : off % 32 / 4 = k % 8 := by omega
  have hkey : 8 * ((off - 0x3400) / 32) + off % 32 / 4 = k := by omega
  unfold plainWrite
  rw [if_neg (by simp; omega), if_neg (by simp; omega), if_neg (by omega), if_neg (by omega), if_neg (by omega),
    if_neg (by simp; omega), if_pos (by simp [hlo, hhi]), if_neg (by simp [hs]), tdHost, hreg, hkey, hword]
  rfl

theorem hasOwnWrite_table (h4 : off % 4 = 0) (h : (0x3080 ≤ off ∧ off < 0x30C0) ∨ (0x3400 ≤ off ∧ off < 0x3C00)) :
    hasOwnWrite off val = false := by
  simp [hasOwnWrite, ownRow]
  omega

theorem hasOwnWrite_rcpDir (h27 : bitB val 27 = false) (h26 : bitB val 26 = false) : hasOwnWrite 0x4818 val = false := by
  simp [hasOwnWrite, ownRow, h27, h26]

theorem plainWrite_rcpDir (h27 : bitB val 27 = false) (h26 : bitB val 26 = false) : plainWrite s p 0x4818 val = rcpDirWrite s val := by
  simp [plainWrite, h27, h26]

theorem hasOwnWrite_dump (h : bitB val 31 = false) : hasOwnWrite 0x31C val = false := by
  simp [hasOwnWrite, ownRow, h]

theorem plainWrite_dump (h : bitB val 31 = false) : plainWrite s p 0x31C val = putReg s 0x31C (val &&& 0x00FFFFE0) := by
  simp [plainWrite, h]

theorem regsKept_putReg (v : W32) : RegsKept s (putReg s off v) [off] := by
  intro o ho
  simp_all [reg, putReg]

theorem reg_putReg_self (s : State) (off : Nat) (v : W32) : reg (putReg s off v) off = v := by
  simp [reg, putReg]

-- The answers where no write to the register came before in the cycle.

/-- The words of a mailbox. -/
theorem answers_mboxWord (hr : Reached s p off) (hm : m < 3)
    (ho : off = mboxBase m ∨ off = mboxBase m + 4 ∨ off = mboxBase m + 8 ∨ off = mboxBase m + 0xC ∨ off = mboxBase m + 0x1C) :
    (lget s.mb.st 0 m = 0 → Answers (.regWrite p off val) s fun t =>
      t = { s with mb := ackedMb s p s.mb.rdata, regs := t.regs, cyc := t.cyc, pins := t.pins } ∧ RegsKept s t [off] ∧
      reg t off = if off = mboxBase m + 0x1C then val &&& 0x800000FF else val) ∧
    (lget s.mb.st 0 m ≠ 0 → Answers (.regWrite p off val) s fun t =>
      t = { s with mb := ackedMb s p s.mb.rdata, ev := t.ev, cyc := t.cyc, pins := t.pins } ∧ Caused t 0x0D ∧ EvGrows s t) := by
  obtain ⟨o, rfl, hw, h4⟩ : ∃ o, off = mboxBase m + o ∧ (o < 0x10 ∨ o = 0x1C) ∧ o % 4 = 0 := by
    rcases ho with h | h | h | h | h <;> exact ⟨off - mboxBase m, by omega, by omega, by omega⟩
  have hown : hasOwnWrite (mboxBase m + o) val = false := hasOwnWrite_mbox (by unfold mboxBase; omega)
  refine ⟨fun hst => ?_, fun hst => answers_regWrite_refused 0x0D 0 hr hown (plainWrite_mboxBusy hm hw h4 hst)⟩
  refine answers_regWrite_alone _ hr hown (plainWrite_mboxWord hm hw h4 hst) rfl rfl fun cyc pins => ⟨rfl, regsKept_putReg _, ?_⟩
  refine (reg_putReg_self s _ _).trans ?_
  simp

/-- GO of a mailbox. -/
theorem answers_go (hr : Reached s p (mboxBase m + 0x10)) (hm : m < 3) (hv : val.getLsbD 0 = true) :
    (portArg p ≠ m → Answers (.regWrite p (mboxBase m + 0x10) val) s fun t =>
      t = { s with mb := ackedMb s p s.mb.rdata, ev := t.ev, cyc := t.cyc, pins := t.pins } ∧ Caused t 0x6B ∧ EvGrows s t) ∧
    (portArg p = m → lget s.mb.st 0 m ≠ 0 → Answers (.regWrite p (mboxBase m + 0x10) val) s fun t =>
      t = { s with mb := ackedMb s p s.mb.rdata, ev := t.ev, cyc := t.cyc, pins := t.pins } ∧ Caused t 0x0D ∧ EvGrows s t) ∧
    (portArg p = m → lget s.mb.st 0 m = 0 → s.mb.st.length = 3 → s.mb.goT.length = 3 →
      Answers (.regWrite p (mboxBase m + 0x10) val) s fun t =>
        t = { s with mb := t.mb, regs := t.regs, cyc := t.cyc, pins := t.pins } ∧ RegsKept s t [mboxBase m + 0x14] ∧
        bitB (reg t (mboxBase m + 0x14)) 31 = true ∧ bitB (reg t (mboxBase m + 0x14)) 30 = false ∧
        lget t.mb.st 0 m = 1 ∧ lget t.mb.goT 0 m = pclkOf s + 1 ∧ t.mb.peerQ = s.mb.peerQ ∧ t.mb.nextT = s.mb.nextT) := by
  have hown : hasOwnWrite (mboxBase m + 0x10) val = false := hasOwnWrite_mbox (by unfold mboxBase; omega)
  refine ⟨fun hp => ?_, fun hp hst => ?_, fun hp hst hl hg => ?_⟩
  · exact answers_regWrite_refused 0x6B (portArg p) hr hown (plainWrite_goDenied hm hv hp)
  · exact answers_regWrite_refused 0x0D 0 hr hown ((plainWrite_go hm hv hp).trans (if_neg hst))
  · have hgo : plainWrite s p (mboxBase m + 0x10) val = mboxGo s m := (plainWrite_go hm hv hp).trans (if_pos hst)
    have hfr := mboxGo_frame s m
    have hmb : (mboxGo s m).mb = { s.mb with
        st := lupd s.mb.st m fun _ => 1, goT := lupd s.mb.goT m fun _ => pclkOf s + 1 } := congrArg State.mb hfr
    obtain ⟨hbusy, hdone⟩ := mboxGo_status s m
    refine answers_regWrite_alone _ hr hown hgo (by rw [hfr]) (by rw [hfr]) fun cyc pins =>
      ⟨?_, mboxGo_regs s m, hbusy, hdone, ?_, ?_, ?_, ?_⟩
    · exact congrArg (fun x : State => { x with mb := ackedMb (mboxGo s m) p (mboxGo s m).mb.rdata, cyc := cyc, pins := pins }) hfr
    all_goals simp [ackedMb, hmb, lget_lupd, hl, hg, hm]

/-- BENCH_DIRn, while the sequencer is stopped. -/
theorem answers_dir (hr : Reached s p off) (h4 : off % 4 = 0) (hlo : 0x3080 ≤ off) (hhi : off < 0x30C0) (hs : seqTablesBusy s = false) :
    Answers (.regWrite p off val) s fun t =>
      t = { s with mb := ackedMb s p s.mb.rdata, regs := t.regs, cyc := t.cyc, pins := t.pins } ∧ RegsKept s t [off] ∧
      ∀ i, i < 32 → (tileBits s off).getLsbD i = false → (reg t off).getLsbD i = (val &&& 0x80003FFF).getLsbD i := by
  refine answers_regWrite_alone _ hr (hasOwnWrite_table h4 (.inl ⟨hlo, hhi⟩)) (plainWrite_dir h4 hlo hhi hs) rfl rfl
    fun cyc pins => ⟨rfl, (hostChanges_hostReg _).kept, fun i hi ht => ?_⟩
  exact (getLsbD_hostReg s off _ hi).trans (by simp [ht])

/-- A word of the TD file, while the sequencer is stopped. -/
theorem answers_td (hr : Reached s p off) (h4 : off % 4 = 0) (hlo : 0x3400 ≤ off) (hhi : off < 0x3C00) (hs : seqTablesBusy s = false) :
    let k := (off - 0x3400) / 4
    Answers (.regWrite p off val) s fun t =>
      t = { s with mb := ackedMb s p s.mb.rdata, seq := { s.seq with badTd := s.seq.badTd.filter (· != k) }, regs := t.regs, cyc := t.cyc
                   pins := t.pins } ∧ RegsKept s t [off] ∧
      ∀ i, i < 32 → (tileBits s off).getLsbD i = false → (reg t off).getLsbD i = (val &&& tdMask (k % 8)).getLsbD i := by
  intro k
  refine answers_regWrite_alone _ hr (hasOwnWrite_table h4 (.inr ⟨hlo, hhi⟩)) (plainWrite_td h4 hlo hhi hs) rfl rfl
    fun cyc pins => ⟨rfl, (hostChanges_hostReg _).kept, fun i hi ht => ?_⟩
  exact (getLsbD_hostReg s off _ hi).trans (by simp [ht, k])

/-- START and LEN of a recipe entry. -/
theorem answers_rcpDir (hr : Reached s p 0x4818) (h27 : bitB val 27 = false) (h26 : bitB val 26 = false) :
    let n := regF s 0x4814 0 6
    let e := mget s.vec.dir {} n
    let busy := e.valid = true ∨ e.pend = true ∨ e.checking = true
    (busy → Answers (.regWrite p 0x4818 val) s fun t =>
      t = { s with mb := ackedMb s p s.mb.rdata, ev := t.ev, cyc := t.cyc, pins := t.pins } ∧ Caused t 0x0D) ∧
    (¬ busy → Answers (.regWrite p 0x4818 val) s fun t =>
      t = { s with mb := ackedMb s p s.mb.rdata, vec := { s.vec with dir := t.vec.dir }, cyc := t.cyc, pins := t.pins } ∧
      mget t.vec.dir {} n = { e with start := fieldN val 0 9, len := fieldN val 9 10 } ∧
      ∀ k, k ≠ n → mget t.vec.dir {} k = mget s.vec.dir {} k) := by
  intro n e busy
  have hown := hasOwnWrite_rcpDir h27 h26
  have hw : plainWrite s p 0x4818 val = rcpDirWrite s val := plainWrite_rcpDir h27 h26
  refine ⟨fun hb => ?_, fun hb => ?_⟩
  · have hbusy : plainWrite s p 0x4818 val = { s with ev := evWith s 0x0D 0 } := by
      rw [hw, ← tableBusy_eq]
      exact if_pos (by simpa [busy, e, n, dirEntry, or_assoc] using hb)
    exact answers_regWrite_alone _ hr hown hbusy rfl rfl fun _ _ => ⟨rfl, caused_of_evWith rfl⟩
  · have hidle := hw.trans (if_neg (by simpa [busy, e, n, dirEntry, and_assoc] using hb))
    refine answers_regWrite_alone _ hr hown hidle rfl rfl fun _ _ => ⟨rfl, ?_, fun k hk => ?_⟩
    · exact (mget_mset _ _ _ _ _).trans (if_pos rfl)
    · exact (mget_mset _ _ _ _ _).trans (if_neg hk)

/-- Settles O9: a plain register by the order of R436 bit by bit, and the registers with a rule of their own one by one. -/
theorem registerWriteStoresByAccessCode : Obligations.RegisterWriteStoresByAccessCode := by
  refine ⟨fun s p off val hp h4 hlt hown hmbox hdir htd hroute hrcp hdump => ?_,
    fun s p m off val hr => ⟨?_, ?_, ?_, ?_, ?_, ?_, ?_⟩⟩
  · have hrow : ownRow off = false := by simp_all [hasOwnWrite]
    exact answers_regWrite_plain ⟨h4, hlt, hrow, hmbox, hdir, htd, hroute, hrcp, hdump⟩ hp
  · exact fun hm ho => answers_mboxWord hr hm ho
  · rintro hm rfl hv
    exact answers_go hr hm hv
  · rintro rfl
    exact answers_regWrite_alone _ hr rfl (routeWrite_eq s val) rfl rfl fun _ _ => rfl
  · exact fun h4 hlo hhi hs => answers_dir hr h4 hlo hhi hs
  · exact fun h4 hlo hhi hs => answers_td hr h4 hlo hhi hs
  · rintro rfl h27 h26
    exact answers_rcpDir hr h27 h26
  · rintro rfl h31
    exact answers_regWrite_alone _ hr (hasOwnWrite_dump h31) (plainWrite_dump h31) rfl rfl
      fun _ _ => ⟨rfl, regsKept_putReg _, reg_putReg_self s _ _⟩

end Sys2Proof.Machine
end

section
/-! PROOFS. Commands that pass the checks of every command: their own checks, and RING_SET, BIND and ZERO, which wait (R32, R119, R259,
R447). -/
namespace Sys2Proof.Machine

variable {s : State} {o : Origin} {w : CmdWords} {m op : Nat} {c : Instr} {body : State → Cli → CmdWords → State}
  {l : List (Bool × Nat)} {f : State → State}

/-- A waiting command that passes the checks of every command is its body's. -/
theorem acceptIn_waits (hw : Waits s o m w op) (body : State → Cli → CmdWords → State) :
    acceptIn op body o w s = body (mboxTake s m) { o := o } w := by
  obtain ⟨ho, ht, hop, hboot, hclass⟩ := hw
  rw [acceptIn_taken body ho ht hop, judged_body (s := mboxTake s m) body _ hboot hclass]

/-- A command that one of its own checks refuses completes with the status of the first check that fails, and changes nothing else. -/
theorem answers_refused (hw : Waits s o m w op) (hx : exec c s = act s (acceptIn op body o w))
    (hb : body (mboxTake s m) { o := o } w = firstFail l (mboxTake s m) { o := o } f) (hl : l.any (·.1) = true)
    (hn : ∀ e ∈ l, e.2 < 256) : Answers c s fun t =>
      t = { s with mb := t.mb, regs := t.regs, cyc := t.cyc, pins := t.pins } ∧ RegsKept s t (mbRegs m) ∧
      ∀ n, (l.find? (·.1)).map (·.2) = some n → MbDone t m n := by
  obtain ⟨e, he⟩ : ∃ e, l.find? (·.1) = some e := by
    rw [← Option.isSome_iff_exists, List.find?_isSome]
    simpa using hl
  have hdone : acceptIn op body o w s = mboxDone (mboxTake s m) m e.2 0 := by
    rw [acceptIn_waits hw, hb, firstFail, he]
    exact complete_mbox _ _ m _ _ hw.1
  refine answers_mboxDone _ e.2 hx hdone rfl rfl (mboxOf_lt hw.1) (hn e (List.mem_of_find?_eq_some he)) rfl
    fun t hfr hd hk => ⟨hfr, hk, fun n hen => ?_⟩
  rw [he] at hen
  cases hen
  exact hd

/-- A command that waits leaves its mailbox busy. -/
theorem mbBusy_of_mboxTake {t : State} (hr : t.regs = s.regs) (hm : t.mb = (mboxTake s m).mb) : MbBusy s t m := by
  refine ⟨by rw [reg, hr]; rfl, fun hlen => ?_⟩
  rw [hm]
  exact (lget_lupd _ _ _ _ _).trans (if_pos ⟨rfl, hlen⟩)

/-- A command that none of its own checks refuses, and that leaves `u` with its mailbox taken, waits. -/
theorem answers_waiting {P : State → Prop} (u : State) (hw : Waits s o m w op) (hx : exec c s = act s (acceptIn op body o w))
    (hb : body (mboxTake s m) { o := o } w = firstFail l (mboxTake s m) { o := o } f) (hl : ∀ e ∈ l, e.1 = false)
    (hu : f (mboxTake s m) = u) (hq : u.pending = s.pending) (hv : u.variant = s.variant)
    (hP : ∀ pins, P { u with pins := pins }) : Answers c s P :=
  answers_of_effect u hx (by rw [acceptIn_waits hw, hb, firstFail_none _ _ _ _ hl, hu]) hq hv hP

/-- A seam whose BIND waits, its eviction asked for where it is resident (R32). -/
def bindAsked (s : State) (k : Nat) (p : SeamPend) : State :=
  let t := updSeam s k fun m => { m with pend := some p }
  if (seam s k).st = 4 then startEvict t k else if (seam s k).st = 5 then updSeam t k fun m => { m with st := 6 } else t

theorem bindAsked_frame (s : State) (k : Nat) (p : SeamPend) : bindAsked s k p =
    { s with seams := (bindAsked s k p).seams, acc := { s.acc with xfers := (bindAsked s k p).acc.xfers } } := by
  unfold bindAsked
  split
  · rfl
  · split <;> rfl

@[simp] theorem seam_xferQueue (s : State) (k d : Nat) (reload : Bool) : seam (xferQueue s k reload) d = seam s d := rfl

theorem seam_bindAsked (s : State) (k : Nat) (p : SeamPend) : seam (bindAsked s k p) k =
    { seam s k with pend := some p, st := if (seam s k).st = 4 then 7 else if (seam s k).st = 5 then 6 else (seam s k).st } := by
  unfold bindAsked
  split
  · simp [startEvict]
  · split <;> simp

theorem seam_bindAsked_of_ne {d k : Nat} (h : d ≠ k) (s : State) (p : SeamPend) : seam (bindAsked s k p) d = seam s d := by
  unfold bindAsked
  split
  · simp [startEvict, h]
  · split <;> simp [h]

theorem xfers_bindAsked (s : State) (k : Nat) (p : SeamPend) : (bindAsked s k p).acc.xfers =
    s.acc.xfers ++ (if (seam s k).st = 4 then [{ seam := k, reload := false }] else []) := by
  unfold bindAsked
  split
  · rfl
  · split <;> simp

/-- RING_SET by its checks (R259). -/
theorem ringSetBody_eq (s : State) (c : Cli) (w : CmdWords) : ringSetBody s c w =
    let n := fieldN w.w0 0 6
    let r := ringOfWords w
    firstFail [(ringArgBad s w, 2),
      (decide (ringBusy s n = true ∨ (ringOf s n).pend.isSome = true ∨ unitHeld s 7 = true), 1),
      (decide (r.en = true ∧ r.pooled = true ∧
        (if regF s 0x1C0 0 1 = 1 then 4095 else poolPages s) < otherReserve s n + ringReserve r), 4)] s c fun s =>
      setRing s n { ringOf s n with pend := some (w, c) } := by
  simp only [Bool.decide_or, Bool.decide_and, Bool.decide_eq_true, ← Bool.or_assoc, ← Bool.and_assoc]
  rfl

/-- BIND by its checks (R119). -/
theorem bindBody_eq (s : State) (c : Cli) (w : CmdWords) : bindBody s c w =
    let k := fieldN w.w0 0 8
    let x := bindSeam w
    let old := seam s k
    firstFail [(bindArgBad s k w, 2),
      (decide ((x.deep ≠ 0 ∧ hasDeep s = false) ∨ (x.nelig ≠ 0 ∧ hasAdapt s = false)), 3),
      (decide (old.pend.isSome = true ∨ old.closePend.isSome = true ∨ old.st = 2 ∨ old.st = 3 ∨ unitHeld s 1 = true), 1),
      (decide (256 < otherDeep s k + deepOf x), 4)] s c (bindAsked · k ⟨true, w, c⟩) := by
  simp only [Bool.decide_or, Bool.decide_and, decide_not, ne_eq, ← beq_eq_decide, beq_true, beq_false, ← Bool.or_assoc]
  rfl

/-- ZERO by its checks (R119). -/
theorem zeroBody_eq (s : State) (c : Cli) (w : CmdWords) : zeroBody s c w =
    let k := fieldN w.w0 0 8
    let old := seam s k
    firstFail [(seamArgBad s w, 2),
      (decide (old.st = 2 ∨ old.st = 3 ∨ old.st = 5 ∨ old.st = 6 ∨ old.st = 7 ∨ (old.st = 1 ∧ (rowHolder s k).isSome = true)
        ∨ old.pend.isSome = true ∨ unitHeld s 1 = true), 1)] s c fun s =>
      updSeam s k fun m => { m with pend := some ⟨false, w, c⟩ } := by
  simp only [Bool.decide_or, Bool.decide_and, ← beq_eq_decide, beq_true, ← Bool.or_assoc]
  rfl

/-- Settles O23: each body is a list of checks, and what it leaves where none fails. -/
theorem boundaryCommandsWait : Obligations.BoundaryCommandsWait := by
  intro s o m w
  refine ⟨?_, ?_, ?_⟩
  · intro hw n busy r excess
    have hx : exec (.ringSet o w) s = act s (acceptIn 0x04 ringSetBody o w) := rfl
    have hb : ringSetBody (mboxTake s m) { o := o } w =
        firstFail [(ringArgBad s w, 2), (decide busy, 1), (decide excess, 4)] (mboxTake s m) { o := o } _ := ringSetBody_eq _ _ _
    refine ⟨fun h => ?_, fun hbad hnb hne => ?_⟩
    · refine (answers_refused hw hx hb (by simpa using h) (by simp)).imp ?_
      rintro t ⟨he, hfr, hk, hd⟩
      exact ⟨he, hfr, hk, fun h => hd 2 (by simp [h]), fun h h' => hd 1 (by simp [h, h']),
        fun h h' h'' => hd 4 (by simp [h, h', h''])⟩
    · refine answers_waiting _ hw hx hb (by simp [hbad, hnb, hne]) rfl rfl rfl fun pins =>
        ⟨rfl, mbBusy_of_mboxTake rfl rfl, ?_, fun d hd => ?_⟩
      · exact (ringOf_setRing _ _ _ _).trans (if_pos rfl)
      · exact (ringOf_setRing _ _ _ _).trans (if_neg hd)
  · intro hw k x old lacks busy excess
    have hx : exec (.bind o w) s = act s (acceptIn 0x10 bindBody o w) := rfl
    have hb : bindBody (mboxTake s m) { o := o } w =
        firstFail [(bindArgBad s k w, 2), (decide lacks, 3), (decide busy, 1), (decide excess, 4)]
          (mboxTake s m) { o := o } _ := bindBody_eq _ _ _
    refine ⟨fun h => ?_, fun hbad hnl hnb hne => ?_⟩
    · refine (answers_refused hw hx hb (by simpa using h) (by simp)).imp ?_
      rintro t ⟨he, hfr, hk, hd⟩
      exact ⟨he, hfr, hk, fun h => hd 2 (by simp [h]), fun h h' => hd 3 (by simp [h, h']),
        fun h h' h'' => hd 1 (by simp [h, h', h'']), fun h h' h'' h3 => hd 4 (by simp [h, h', h'', h3])⟩
    · let u := bindAsked (mboxTake s m) k ⟨true, w, { o := o }⟩
      have hfr : u = { s with seams := u.seams, acc := { s.acc with xfers := u.acc.xfers }, mb := (mboxTake s m).mb } :=
        bindAsked_frame _ _ _
      have hmb : u.mb = (mboxTake s m).mb := by rw [hfr]
      refine answers_waiting u hw hx hb (by simp [hbad, hnl, hnb, hne]) rfl (by rw [hfr]) (by rw [hfr]) fun pins =>
        ⟨?_, mbBusy_of_mboxTake (t := { u with pins := pins }) (by rw [hfr]) hmb, seam_bindAsked (mboxTake s m) k _,
          fun d hd => seam_bindAsked_of_ne hd (mboxTake s m) _, xfers_bindAsked (mboxTake s m) k _⟩
      rw [← hmb] at hfr
      exact congrArg (fun x : State => { x with pins := pins }) hfr
  · intro hw k old busy
    have hx : exec (.zero o w) s = act s (acceptIn 0x13 zeroBody o w) := rfl
    have hb : zeroBody (mboxTake s m) { o := o } w =
        firstFail [(seamArgBad s w, 2), (decide busy, 1)] (mboxTake s m) { o := o } _ := zeroBody_eq _ _ _
    refine ⟨fun h => ?_, fun hbad hnb => ?_⟩
    · refine (answers_refused hw hx hb (by simpa using h) (by simp)).imp ?_
      rintro t ⟨he, hfr, hk, hd⟩
      refine ⟨he, hfr, hk, hd _ ?_⟩
      by_cases hbad : seamArgBad s w = true
      · simp [hbad]
      · simp [hbad, h.resolve_left hbad]
    · let u := updSeam (mboxTake s m) k fun m => { m with pend := some ⟨false, w, { o := o }⟩ }
      have hself : seam u k = { old with pend := some ⟨false, w, { o := o }⟩ } := (seam_updSeam _ k k _).trans (if_pos rfl)
      have hother (d : Nat) (hd : d ≠ k) : seam u d = seam s d := (seam_updSeam _ k d _).trans (if_neg hd)
      exact answers_waiting u hw hx hb (by simp [hbad, hnb]) rfl rfl rfl
        fun pins => ⟨rfl, mbBusy_of_mboxTake rfl rfl, hself, hother⟩

end Sys2Proof.Machine
end

section
/-! PROOFS. Benches and records in progress: what a change of one leaves of the others, and how the event of a record answers (R64, R97). -/
namespace Sys2Proof.Machine

variable {s t : State} {uid pos v ty : Nat} {b : Bench} {r : Rec}

-- Benches and records.

/-- Record `pos` of bench `uid`, while it is in progress. -/
def recIn (s : State) (uid pos : Nat) : Option Rec := (benchOf s uid).bind fun b => (recAt b pos).filter fun r => !r.fin

theorem recOf_eq_some : recOf s uid pos = some (b, r) ↔ benchOf s uid = some b ∧ recAt b pos = some r ∧ r.fin = false := by
  unfold recOf
  cases benchOf s uid with
  | none => simp
  | some c => simp [Option.filter_eq_some_iff]; grind

theorem recIn_eq_map : recIn s uid pos = (recOf s uid pos).map (·.2) := by
  unfold recIn recOf
  cases benchOf s uid <;> simp [Function.comp_def]

theorem exists_recOf (h : recIn t uid pos = some r) : ∃ b, recOf t uid pos = some (b, r) := by
  rw [recIn_eq_map, Option.map_eq_some_iff] at h
  obtain ⟨⟨b, r'⟩, hrec, rfl⟩ := h
  exact ⟨b, hrec⟩

/-- What is read of a record in progress. -/
theorem map_recOf {α : Type} (g : Rec → α) (h : recIn t uid pos = some r) : (recOf t uid pos).map (fun e => g e.2) = some (g r) := by
  obtain ⟨b, hrec⟩ := exists_recOf h
  rw [hrec]
  rfl

theorem uid_of_benchOf (h : benchOf s uid = some b) : b.uid = uid := by simpa using List.find?_some h

theorem pos_of_recAt (h : recAt b pos = some r) : r.pos = pos := by simpa using List.find?_some h

theorem benchOf_of_benches (h : t.seq.benches = s.seq.benches) : benchOf t uid = benchOf s uid := by rw [benchOf, h, benchOf]

theorem recIn_of_benches (h : t.seq.benches = s.seq.benches) : recIn t uid pos = recIn s uid pos := by
  rw [recIn, benchOf_of_benches h, recIn]

/-- A bench after a change of a bench. -/
theorem benchOf_updBench {f : Bench → Bench} (hf : ∀ b, (f b).uid = b.uid) :
    benchOf (updBench s v f) uid = (benchOf s uid).map fun b => if uid = v then f b else b := by
  have hp : ((fun b : Bench => b.uid == uid) ∘ fun b => if b.uid = v then f b else b) = fun b => b.uid == uid := by
    funext b
    simp only [Function.comp_apply]
    split <;> simp [hf]
  show List.find? _ (List.map _ _) = _
  rw [List.find?_map, hp]
  show (benchOf s uid).map _ = _
  cases h : benchOf s uid with
  | none => rfl
  | some b => simp [uid_of_benchOf h]

/-- A change of a bench that is none of its records leaves the records. -/
theorem recIn_updBench {f : Bench → Bench} (hf : ∀ b, (f b).uid = b.uid ∧ (f b).recs = b.recs) :
    recIn (updBench s v f) uid pos = recIn s uid pos := by
  rw [recIn, benchOf_updBench fun b => (hf b).1, recIn]
  cases benchOf s uid with
  | none => rfl
  | some b => by_cases h : uid = v <;> simp [h, recAt, hf]

@[simp] theorem benchOf_updSeam (k : Nat) (f : Seam → Seam) : benchOf (updSeam s k f) uid = benchOf s uid := rfl
@[simp] theorem recIn_updSeam (k : Nat) (f : Seam → Seam) : recIn (updSeam s k f) uid pos = recIn s uid pos := rfl
@[simp] theorem seam_updBench (k : Nat) (f : Bench → Bench) : seam (updBench s v f) k = seam s k := rfl

theorem setAhead_updRec (f : Rec → Rec) (n : Nat) : setAhead (updRec s uid pos f) n = updRec (setAhead s n) uid pos f := rfl

/-- A record after a change of that record. -/
theorem recIn_updRec {f : Rec → Rec} (hf : ∀ r, (f r).pos = r.pos ∧ (f r).fin = r.fin) :
    recIn (updRec s uid pos f) uid pos = (recIn s uid pos).map f := by
  have hp : ((fun r : Rec => r.pos == pos) ∘ fun r => if r.pos = pos then f r else r) = fun r => r.pos == pos := by
    funext r
    simp only [Function.comp_apply]
    split <;> simp [hf]
  rw [recIn, updRec, benchOf_updBench (by exact fun _ => rfl), recIn]
  cases benchOf s uid with
  | none => rfl
  | some b =>
    simp only [Option.map_some, if_true, Option.bind_some, recAt, List.find?_map, hp]
    cases h : b.recs.find? (·.pos == pos) with
    | none => rfl
    | some r =>
      have hr : r.pos = pos := pos_of_recAt h
      cases hfin : r.fin <;> simp [hr, hf, hfin, Option.filter]

-- The event of a record that is in progress.

theorem recIn_of_recNow (h : RecNow s uid pos ty b r) : recIn s uid pos = some r := by
  rw [recIn_eq_map, h.1]
  rfl

theorem uid_of_recNow (h : RecNow s uid pos ty b r) : b.uid = uid := uid_of_benchOf (recOf_eq_some.mp h.1).1

theorem pos_of_recNow (h : RecNow s uid pos ty b r) : r.pos = pos := pos_of_recAt (recOf_eq_some.mp h.1).2.1

theorem benchOf_of_recNow (h : RecNow s uid pos ty b r) : benchOf s b.uid = some b := by
  rw [uid_of_recNow h]
  exact (recOf_eq_some.mp h.1).1

/-- What a record does in its slot, which has come, answers; it finds the read ports that records before it still take (R97). -/
theorem answers_onRec {c : Instr} {due : State → Bench → Rec → Option Nat} {f : State → Bench → Rec → State} {P : State → Prop}
    {d : Nat} (u : State) (h : RecNow s uid pos ty b r) (hx : exec c s = act s (onRec ty uid pos due f))
    (hdue : due s b r = some d) (hd : d ≤ s.clk.slot) (hu : setAhead (f (inTurn s uid pos) b r) s.acc.ahead = u)
    (hq : u.pending = s.pending) (hv : u.variant = s.variant) (hP : ∀ pins, P { u with pins := pins }) : Answers c s P := by
  obtain ⟨hrec, hty, hact, hfrz⟩ := h
  refine answers_of_effect u hx ?_ hq hv hP
  rw [onRec, inSlot_now s _ _ d (by simp [hrec, hty, hact, hdue]) hd hfrz, ← hu]
  simp [hrec]

theorem dueIf_of_true {c : Bool} (h : c = true) (n : Nat) : dueIf c n = some n := if_pos h

end Sys2Proof.Machine
end

section
/-! PROOFS. Reads by row number of a record (R97, R98): its port, what the row holds, and the SLOT_SLIP and the halt that its metadata cause
(R231, R232); and the rows of a gate record's parameter block (R135, R458). -/
namespace Sys2Proof.Machine

variable {s t u : State} {uid pos : Nat} {b : Bench} {r : Rec}

-- SLOT_SLIP and halts (R231, R232).

/-- State `t` is `s` after SLOT_SLIPs and halts of records, if any. -/
structure Slips (s t : State) : Prop where
  frame : t = { s with seq := { s.seq with haltReq := t.seq.haltReq }, ev := t.ev, regs := t.regs, cyc := t.cyc }
  kept : RegsKept s t [0x3014, 0x3018]

theorem Slips.refl (s : State) : Slips s s := ⟨rfl, fun _ _ => rfl⟩

theorem Slips.trans (h : Slips s t) (k : Slips t u) : Slips s u where
  frame := k.frame.trans (by rw [h.frame])
  kept o ho := (k.kept o ho).trans (h.kept o ho)

theorem Slips.setAhead (h : Slips s t) (n : Nat) : Slips (setAhead s n) (setAhead t n) where
  frame := congrArg (Machine.setAhead · n) h.frame
  kept := h.kept

theorem Slips.benches (h : Slips s t) : t.seq.benches = s.seq.benches := by rw [h.frame]

theorem slips_setReg {o : Nat} (v : W32) (h : o ∈ [0x3014, 0x3018]) : Slips s (setReg s o v) where
  frame := by
    rw [setReg_ev, setReg_seq]
    exact setReg_frame s o v
  kept o' ho' := by
    rw [reg_setReg, if_neg]
    rintro rfl
    exact ho' h

theorem slips_raise (code arg : Nat) : Slips s (raise s code arg) := by
  unfold raise
  split
  · exact ⟨rfl, fun _ _ => rfl⟩
  · exact .refl s

theorem slips_reqHalt (cause : Nat) (b : Bench) (pos : Nat) : Slips s (reqHalt s cause b pos) := by
  unfold reqHalt
  split
  · exact .refl s
  · exact ⟨rfl, fun _ _ => rfl⟩

/-- SLOT_SLIP counts, logs and raises, and halts under its policy. -/
theorem slips_slip (s : State) (b : Bench) (r : Rec) (cause expect found : Nat) : Slips s (slip s b r cause expect found) := by
  unfold slip
  extract_lets s₁ s₂ s₃
  have h₁ : Slips s s₁ := slips_setReg _ (by decide)
  have h₂ : Slips s₁ s₂ := by
    unfold s₂
    split
    · exact .refl _
    · exact slips_setReg _ (by decide)
  have h₃ : Slips s s₃ := (h₁.trans h₂).trans (slips_raise _ _)
  split
  · exact h₃.trans (slips_reqHalt _ _ _)
  · exact h₃

@[simp] theorem reqHalt_ev (cause : Nat) : (reqHalt s cause b pos).ev = s.ev := by unfold reqHalt; split <;> rfl

/-- SLOT_SLIP is the cause of its event. -/
theorem slip_ev (s : State) (b : Bench) (r : Rec) (cause expect found : Nat) :
    (slip s b r cause expect found).ev = evWith s 0x05 (recArg b r.pos % 65536) := by
  unfold slip
  extract_lets s₁ s₂ s₃
  have h₂ : s₂.ev = s.ev := by
    unfold s₂
    split <;> simp [s₁]
  have h₃ : s₃.ev = evWith s 0x05 (recArg b r.pos % 65536) := by simp [s₃, raise_eq s₂ 0x05 _ (by decide), evWith, h₂]
  split <;> simp [h₃]

theorem caused_slip (s : State) (b : Bench) (r : Rec) (cause expect found : Nat) : Caused (slip s b r cause expect found) 0x05 :=
  caused_of_evWith (slip_ev s b r cause expect found)

/-- A halt that is asked for is there, while benches run. -/
theorem haltReq_reqHalt (cause : Nat) (h : seqActive s = true) : (reqHalt s cause b pos).seq.haltReq.isSome = true := by
  unfold reqHalt
  split
  next hs => simpa [h] using hs
  next => rfl

-- The check of a row's metadata (R98).

theorem slips_metaCheck (s : State) (b : Bench) (r : Rec) (m : Meta) (expect : Nat) : Slips s (metaCheck s b r m expect) := by
  unfold metaCheck
  extract_lets s₁
  have h₁ : Slips s s₁ := by
    unfold s₁
    split
    · exact slips_slip ..
    · exact .refl s
  split
  · exact h₁.trans (slips_reqHalt _ _ _)
  · exact h₁

/-- Metadata that R98 refuses cause SLOT_SLIP. -/
theorem caused_metaCheck {m : Meta} {expect : Nat} (h : m.stale = true ∨ m.fmt = 0 ∨ m.epoch ≠ expect) :
    Caused (metaCheck s b r m expect) 0x05 := by
  obtain ⟨c, hc⟩ : ∃ c, metaSlip m expect = some c := by
    unfold metaSlip
    split
    · exact ⟨_, rfl⟩
    next hn => exact ⟨_, if_pos (by simp_all)⟩
  have hs := caused_slip s b r c expect m.epoch
  simp only [metaCheck, hc]
  split <;> simpa [Caused] using hs

/-- A poisoned row halts its bench. -/
theorem haltReq_metaCheck {m : Meta} (expect : Nat) (hp : m.poison = true) (h : seqActive s = true) :
    (metaCheck s b r m expect).seq.haltReq.isSome = true := by
  unfold metaCheck
  extract_lets s₁
  have h₁ : Slips s s₁ := by
    unfold s₁
    split
    · exact slips_slip ..
    · exact .refl s
  rw [if_pos hp]
  refine haltReq_reqHalt _ ?_
  rw [h₁.frame]
  exact h

-- The port and the row (R97).

/-- The state that has one more read port of the slot taken. -/
def portTaken (s : State) : State :=
  { s with acc := { s.acc with portSlot := s.clk.slot, reads := (if s.acc.portSlot = s.clk.slot then s.acc.reads else 0) + 1 } }

theorem takeRead_inTurn_fst (s : State) (uid pos : Nat) :
    (takeRead (inTurn s uid pos) 1).1 = decide (portsTaken s uid pos < 4) := by
  have hsum : (portsNow (inTurn s uid pos)).reads + (portsNow (inTurn s uid pos)).ahead = portsTaken s uid pos := by
    by_cases h : s.acc.portSlot = s.clk.slot <;> simp [portsNow, portsTaken, inTurn, setAhead, h]
  by_cases h : portsTaken s uid pos < 4 <;> simp [takeRead, hsum, h]

/-- A record finds a read port where one is left for it. -/
theorem takeRead_of_portLeft (h : PortLeft s uid pos) : takeRead (inTurn s uid pos) 1 = (true, portTaken (inTurn s uid pos)) := by
  refine (takeRead_cases (inTurn s uid pos) 1).resolve_right fun ht => ?_
  have hfst := takeRead_inTurn_fst s uid pos
  rw [ht] at hfst
  exact of_decide_eq_false (p := portsTaken s uid pos < 4) hfst.symm h

/-- A record finds none where none is. -/
theorem takeRead_of_not_portLeft (h : ¬ PortLeft s uid pos) : takeRead (inTurn s uid pos) 1 = (false, inTurn s uid pos) := by
  refine (takeRead_cases (inTurn s uid pos) 1).resolve_left fun ht => h ?_
  have hfst := takeRead_inTurn_fst s uid pos
  rw [ht] at hfst
  exact of_decide_eq_true (p := portsTaken s uid pos < 4) hfst.symm

/-- A row of no seam, in a memory that stores no wrong bit, reads as its entries. -/
theorem rowRead_clean (hport : takeRead s 1 = (true, u)) (hflips : u.acc.flips = []) {row : Nat} (hrow : rowSeam u row = false)
    (expect : Nat) : rowRead s b r row expect =
      (some ((natsTo 128).map fun j => accEntry u row j, accMeta u row), metaCheck u b r (accMeta u row) expect) := by
  have hpick : pickCopy u row = (row, u) := by
    have : u.seams.find? (fun e => inRowSet e.2 row) = none := by simpa [rowSeam] using hrow
    simp [pickCopy, this]
  have hread : accRead u row = ((natsTo 128).map fun j => accEntry u row j, u) := by
    simp [accRead, hflips, eachS, accDeliver, mget, popcount]
  simp [rowRead, hport, hpick, hread]

theorem rowRead_lost (hport : takeRead s 1 = (false, s)) (row expect : Nat) : rowRead s b r row expect = (none, slip s b r 4 0 0) := by
  simp [rowRead, hport]

-- The parameter block of a gate record (R135, R458).

/-- The row of the parameter block that a gate record reads next. -/
def gateParamRow (b : Bench) (r : Rec) : Nat := tdAcc b (rf r 2 11 6) (gParRow r r.par.length)

/-- The epoch that it expects there. -/
def gateParamEp (b : Bench) (r : Rec) : Nat := effEp b (rf r 2 11 6) (rf r 2 7 4)

theorem gateParam_lost (hport : takeRead s 1 = (false, s)) :
    gateParam s b r = updRec (slip s b r 4 0 0) b.uid r.pos fun r => { r with par := r.par ++ [[]], lost := true } := by
  rw [gateParam, rowRead_lost hport]

theorem gateParam_clean (hport : takeRead s 1 = (true, u)) (hflips : u.acc.flips = []) (hrow : rowSeam u (gateParamRow b r) = false) :
    gateParam s b r = updRec (metaCheck u b r (accMeta u (gateParamRow b r)) (gateParamEp b r)) b.uid r.pos fun x =>
      { x with par := x.par ++ [(natsTo 128).map fun j => accEntry u (gateParamRow b r) j] } := by
  rw [gateParam, ← gateParamRow, rowRead_clean hport hflips hrow]
  rfl

/-- A gate record's read leaves `w` but for SLOT_SLIPs, halts and the record's next row. -/
theorem answers_gateParamRead {w z : State} {f : Rec → Rec} (h : RecNow s uid pos 4 b r) (hn : r.par.length < gParRows r)
    (hd : b.start + gIssue r - 13 + r.par.length ≤ s.clk.slot)
    (hg : setAhead (gateParam (inTurn s uid pos) b r) s.acc.ahead = updRec z uid pos f)
    (hf : ∀ r, (f r).pos = r.pos ∧ (f r).fin = r.fin) (hs : Slips w z)
    (hw : w.seq = s.seq ∧ w.pending = s.pending ∧ w.variant = s.variant) :
    Answers (.gateParamRead uid pos) s fun t =>
      t = { w with seq := t.seq, ev := t.ev, regs := t.regs, cyc := t.cyc, pins := t.pins } ∧ RegsKept w t [0x3014, 0x3018] ∧
      RecHolds t uid pos (f r).par ∧ t.ev = z.ev ∧ t.seq.haltReq = z.seq.haltReq := by
  obtain ⟨hseq, hq, hv⟩ := hw
  have hfr := hs.frame
  refine answers_onRec (updRec z uid pos f) h rfl (dueIf_of_true (decide_eq_true hn) _) hd hg ?_ ?_ fun pins =>
    ⟨?_, hs.kept, ?_, rfl, rfl⟩
  · rw [updRec_pending, hfr]
    exact hq
  · rw [updRec_variant, hfr]
    exact hv
  · rw [hfr]
    rfl
  · have hrec : recIn z uid pos = some r := by
      rw [recIn_of_benches (hs.benches.trans (congrArg Seq.benches hseq)), recIn_of_recNow h]
    have hz : recIn (updRec z uid pos f) uid pos = some (f r) := by rw [recIn_updRec hf, hrec]; rfl
    exact map_recOf (·.par) hz

/-- A gate record's read that finds no port leaves its row empty. -/
theorem gateParamRead_lost (h : RecNow s uid pos 4 b r) (hn : r.par.length < gParRows r)
    (hd : b.start + gIssue r - 13 + r.par.length ≤ s.clk.slot) (hport : ¬ PortLeft s uid pos) :
    Answers (.gateParamRead uid pos) s fun t =>
      t = { s with seq := t.seq, ev := t.ev, regs := t.regs, cyc := t.cyc, pins := t.pins } ∧ Caused t 0x05 ∧
      RegsKept s t [0x3014, 0x3018] ∧ RecHolds t uid pos (r.par ++ [[]]) := by
  have hg := gateParam_lost (b := b) (r := r) (takeRead_of_not_portLeft hport)
  rw [uid_of_recNow h, pos_of_recNow h] at hg
  refine (answers_gateParamRead h hn hd ((congrArg (setAhead · s.acc.ahead) hg).trans (setAhead_updRec ..)) (fun _ => ⟨rfl, rfl⟩)
    ((slips_slip (inTurn s uid pos) b r 4 0 0).setAhead s.acc.ahead) ⟨rfl, rfl, rfl⟩).imp ?_
  rintro t ⟨he, hfr, hk, hrec, hev, -⟩
  exact ⟨he, hfr, caused_of_evWith (hev.trans (slip_ev ..)), hk, hrec⟩

/-- A gate record's read of a row of no seam, in a memory that stores no wrong bit. -/
theorem gateParamRead_clean (h : RecNow s uid pos 4 b r) (hn : r.par.length < gParRows r)
    (hd : b.start + gIssue r - 13 + r.par.length ≤ s.clk.slot) (hport : PortLeft s uid pos) (hflips : s.acc.flips = [])
    (hrow : rowSeam s (gateParamRow b r) = false) :
    Answers (.gateParamRead uid pos) s fun t =>
      t = { portTaken s with seq := t.seq, ev := t.ev, regs := t.regs, cyc := t.cyc, pins := t.pins } ∧
      RegsKept s t [0x3014, 0x3018] ∧
      RecHolds t uid pos (r.par ++ [(natsTo 128).map fun j => accEntry s (gateParamRow b r) j]) ∧
      ((accMeta s (gateParamRow b r)).stale = true ∨ (accMeta s (gateParamRow b r)).fmt = 0 ∨
        (accMeta s (gateParamRow b r)).epoch ≠ gateParamEp b r → Caused t 0x05) ∧
      ((accMeta s (gateParamRow b r)).poison = true → seqActive t = true → t.seq.haltReq.isSome = true) := by
  have hg := gateParam_clean (b := b) (r := r) (takeRead_of_portLeft hport) hflips hrow
  rw [uid_of_recNow h, pos_of_recNow h] at hg
  refine (answers_gateParamRead h hn hd ((congrArg (setAhead · s.acc.ahead) hg).trans (setAhead_updRec ..)) (fun _ => ⟨rfl, rfl⟩)
    ((slips_metaCheck (portTaken (inTurn s uid pos)) b r _ _).setAhead s.acc.ahead) ⟨rfl, rfl, rfl⟩).imp ?_
  rintro t ⟨he, hfr, hk, hrec, hev, hhalt⟩
  refine ⟨he, hfr, hk, hrec, fun hm => ?_, fun hp _ => ?_⟩
  · rw [Caused, hev]
    exact caused_metaCheck (s := portTaken (inTurn s uid pos)) hm
  · rw [hhalt]
    exact haltReq_metaCheck (s := portTaken (inTurn s uid pos)) _ hp h.2.2.1

end Sys2Proof.Machine
end

section
/-! PROOFS. The chunks of a seam: how an access of a bench to it takes part (R115, R462), and what the end of a chunk leaves (R112). -/
namespace Sys2Proof.Machine

variable {s t u : State} {uid pos k d : Nat} {b : Bench} {r : Rec}

-- The access of a bench to a seam (R115).

/-- The committed copy of a seam, and the number of its steps, are what they were. -/
def SameCopy (m m' : Seam) : Prop := m'.step = m.step ∧ m'.cur = m.cur

theorem SameCopy.trans {a b c : Seam} (h : SameCopy a b) (k : SameCopy b c) : SameCopy a c := ⟨k.1.trans h.1, k.2.trans h.2⟩

/-- Seam k takes part in bench `b`: state `t` is `s` with the seam dispatched, unless it had been. -/
structure Joined (s t : State) (b : Bench) (k : Nat) : Prop where
  frame : t = { s with seams := t.seams, seq := { s.seq with benches := t.seq.benches } }
  recs : ∀ pos, recIn t b.uid pos = recIn s b.uid pos
  others : ∀ d, d ≠ k → seam t d = seam s d
  first : k ∉ b.disp → seam t k = { seam s k with st := 5, held := false, owner := b.uid + 1 } ∧
    ∃ x, benchOf t b.uid = some x ∧ k ∈ x.disp
  again : k ∈ b.disp → seam t k = seam s k

/-- A dispatch leaves the committed copies. -/
theorem Joined.sameCopy (h : Joined s t b k) (d : Nat) : SameCopy (seam s d) (seam t d) := by
  by_cases hd : d = k
  · subst hd
    by_cases hk : d ∈ b.disp
    · rw [h.again hk]
      exact ⟨rfl, rfl⟩
    · rw [(h.first hk).1]
      exact ⟨rfl, rfl⟩
  · rw [h.others d hd]
    exact ⟨rfl, rfl⟩

theorem Joined.setAhead (h : Joined s t b k) (n : Nat) : Joined (setAhead s n) (setAhead t n) b k where
  frame := congrArg (Machine.setAhead · n) h.frame
  recs := h.recs
  others := h.others
  first := h.first
  again := h.again

/-- Seam k dispatched by bench `b`. -/
def dispatched (s : State) (b : Bench) (k : Nat) : State :=
  updBench (updSeam s k fun m => { m with st := 5, held := false, owner := b.uid + 1 }) b.uid fun b => { b with disp := b.disp ++ [k] }

/-- The first access of a bench to a seam that is ready and fits dispatches it. -/
theorem dispatch_ready (hs : mget b.skips 0 k = 0) (hr : seamReady s k = true) (hm : seamMisfit s b k = false)
    (ho : oldBinding (seam s k) b = false) : dispatch s b r k = dispatched s b k := by
  simp [dispatch, dispatched, hs, hr, hm, ho]

theorem benchOf_dispatched (hb : benchOf s b.uid = some b) :
    benchOf (dispatched s b k) b.uid = some { b with disp := b.disp ++ [k] } := by
  rw [dispatched, benchOf_updBench (by exact fun _ => rfl), benchOf_updSeam, hb]
  simp

theorem joined_dispatched (hb : benchOf s b.uid = some b) (hk : k ∉ b.disp) : Joined s (dispatched s b k) b k where
  frame := rfl
  recs pos := by rw [dispatched, recIn_updBench (by exact fun _ => ⟨rfl, rfl⟩), recIn_updSeam]
  others d hd := by simp [dispatched, hd]
  first _ := ⟨by simp [dispatched], _, benchOf_dispatched hb, by simp⟩
  again h := absurd h hk

/-- An access to a seam that takes part. -/
theorem seamAccess_joins (hb : benchOf s b.uid = some b) (h : SeamJoins s b k) :
    ∃ t, seamAccess s b r k = (true, t) ∧ Joined s t b k := by
  rcases h with hk | ⟨hk, hheld, hskip, hready, hfit, hold⟩
  · exact ⟨s, by simp [seamAccess, hb, hk], rfl, fun _ => rfl, fun _ _ => rfl, fun hn => absurd hk hn, fun _ => rfl⟩
  · refine ⟨dispatched s b k, ?_, joined_dispatched hb hk⟩
    simp [seamAccess, hb, hk, hheld, dispatch_ready hskip hready hfit hold, benchOf_dispatched hb]

/-- An access to a seam that is held in the bench. -/
theorem seamAccess_held (hb : benchOf s b.uid = some b) (hheld : k ∈ b.held) (hdisp : k ∉ b.disp) :
    seamAccess s b r k = (false, s) := by
  simp [seamAccess, hb, hheld, hdisp]

-- The end of a chunk (R112, R115).

/-- The chunk of a bench goes on, or it ends, and the seam is given up where it is the bench's. -/
theorem chunkMayEnd_cases (s : State) (uid pos k : Nat) :
    let u := updBench s uid fun b => { b with disp := b.disp.filter (· != k) }
    chunkMayEnd s uid pos k = s ∨ chunkMayEnd s uid pos k = u ∨ chunkMayEnd s uid pos k = chunkEnd u k := by
  unfold chunkMayEnd benchChunkEnd
  split
  · exact .inl rfl
  · split
    · exact .inl rfl
    · dsimp only
      split
      · exact .inr (.inr rfl)
      · exact .inr (.inl rfl)

theorem chunkMayEnd_frame (s : State) (uid pos k : Nat) : chunkMayEnd s uid pos k =
    { s with seams := (chunkMayEnd s uid pos k).seams
             seq := { s.seq with benches := (chunkMayEnd s uid pos k).seq.benches } } := by
  rcases chunkMayEnd_cases s uid pos k with h | h | h <;> rw [h] <;> rfl

@[simp] theorem recIn_chunkMayEnd (s : State) (v pos' : Nat) : recIn (chunkMayEnd s uid pos k) v pos' = recIn s v pos' := by
  have hu : recIn (updBench s uid fun b => { b with disp := b.disp.filter (· != k) }) v pos' = recIn s v pos' :=
    recIn_updBench fun _ => ⟨rfl, rfl⟩
  rcases chunkMayEnd_cases s uid pos k with h | h | h <;> rw [h]
  · exact hu
  · exact (recIn_of_benches rfl).trans hu

theorem sameCopy_chunkEnd (d : Nat) : SameCopy (seam s d) (seam (chunkEnd s k) d) := by
  by_cases h : d = k
  · subst h
    simp [chunkEnd, SameCopy]
  · simp [chunkEnd, SameCopy, h]

theorem sameCopy_chunkMayEnd (s : State) (d : Nat) : SameCopy (seam s d) (seam (chunkMayEnd s uid pos k) d) := by
  rcases chunkMayEnd_cases s uid pos k with h | h | h <;> rw [h]
  · exact ⟨rfl, rfl⟩
  · exact ⟨rfl, rfl⟩
  · exact sameCopy_chunkEnd (s := updBench s uid _) d

/-- Where no write of a step is kept, none is after the chunk's end. -/
theorem shadow_chunkMayEnd (hs : (seam s k).shadow = []) : (seam (chunkMayEnd s uid pos k) k).shadow = [] := by
  rcases chunkMayEnd_cases s uid pos k with h | h | h <;> rw [h]
  · exact hs
  · exact hs
  · simp [chunkEnd]

end Sys2Proof.Machine
end

section
/-! PROOFS. The end of a step of the gate pipe: what it may change, and a step that becomes spoil (R26, R113, R458). -/
namespace Sys2Proof.Machine

variable {s t u : State} {uid pos k m : Nat} {b : Bench} {r : Rec}

/-- State `t` is `s` but for what the end of a step may change: the pipe's steps and feedback, the accumulator and the seams, the rings,
the rows that wait for the commit, the benches, and causes of events. -/
structure StepEnds (s t : State) : Prop where
  frame : t = { s with gate := { s.gate with steps := t.gate.steps, fb := t.gate.fb }, acc := t.acc, seams := t.seams, rings := t.rings
                       vec := { s.vec with vsts := t.vec.vsts }, seq := { s.seq with benches := t.seq.benches }, ev := t.ev }

theorem StepEnds.refl (s : State) : StepEnds s s := ⟨rfl⟩

theorem StepEnds.trans (h : StepEnds s t) (k : StepEnds t u) : StepEnds s u := ⟨k.frame.trans (by rw [h.frame])⟩

theorem fbUndo_frame (s : State) (uid pos k : Nat) :
    fbUndo s uid pos k = { s with gate := { s.gate with fb := (fbUndo s uid pos k).gate.fb } } := by
  unfold fbUndo
  split
  · dsimp only
    split <;> rfl
  · rfl

theorem stepEnds_fbUndo (s : State) (uid pos k : Nat) : StepEnds s (fbUndo s uid pos k) :=
  ⟨(fbUndo_frame s uid pos k).trans (by rw [fbUndo_frame])⟩

@[simp] theorem fbUndo_ev (s : State) (uid pos k : Nat) : (fbUndo s uid pos k).ev = s.ev := by rw [fbUndo_frame]
@[simp] theorem fbUndo_seq (s : State) (uid pos k : Nat) : (fbUndo s uid pos k).seq = s.seq := by rw [fbUndo_frame]
@[simp] theorem fbUndo_steps (s : State) (uid pos k : Nat) : (fbUndo s uid pos k).gate.steps = s.gate.steps := by rw [fbUndo_frame]
@[simp] theorem seam_fbUndo (s : State) (uid pos k d : Nat) : seam (fbUndo s uid pos k) d = seam s d := by rw [fbUndo_frame]; rfl

theorem stepEnds_chunkMayEnd (s : State) (uid pos k : Nat) : StepEnds s (chunkMayEnd s uid pos k) :=
  ⟨(chunkMayEnd_frame s uid pos k).trans (by rw [chunkMayEnd_frame])⟩

@[simp] theorem chunkMayEnd_ev (s : State) : (chunkMayEnd s uid pos k).ev = s.ev := by rw [chunkMayEnd_frame]
@[simp] theorem chunkMayEnd_gate (s : State) : (chunkMayEnd s uid pos k).gate = s.gate := by rw [chunkMayEnd_frame]

/-- The steps of the pipe without the one of stream k of record `pos` of bench `uid`. -/
def otherSteps (l : List GateStep) (uid pos k : Nat) : List GateStep := l.filter fun x => !(x.uid == uid && x.pos == pos && x.k == k)

/-- Stream k's step of seam m, of record `pos` of bench `uid`, is spoil: its traces are gone, and no copy of a seam changes. -/
structure Spoilt (s t : State) (uid pos k : Nat) : Prop where
  ends : StepEnds s t
  ev : t.ev = s.ev
  steps : t.gate.steps = otherSteps s.gate.steps uid pos k
  record : recIn t uid pos = (recIn s uid pos).map fun r => { r with dead := r.dead ++ [k] }
  copies : ∀ d, SameCopy (seam s d) (seam t d)

theorem Spoilt.setAhead (h : Spoilt s t uid pos k) (n : Nat) : Spoilt s (setAhead t n) uid pos k where
  ends := ⟨congrArg (Machine.setAhead · n) h.ends.frame⟩
  ev := h.ev
  steps := h.steps
  record := h.record
  copies := h.copies

/-- What a step writes to its seam is gone, the committed copy with it is not. -/
theorem sameCopy_seamSpoil (s : State) (d : Nat) : SameCopy (seam s d) (seam (seamSpoil s m) d) := by
  by_cases h : d = m
  · subst h
    simp [seamSpoil, SameCopy]
  · simp [seamSpoil, SameCopy, h]

theorem recIn_noteSpoil (v : Nat) (s : State) : recIn (noteSpoil s v) uid pos = recIn s uid pos := recIn_updBench fun _ => ⟨rfl, rfl⟩

theorem spoilt_gateSpoil (s : State) (uid pos k m : Nat) : Spoilt s (gateSpoil s uid pos k m) uid pos k := by
  unfold gateSpoil
  extract_lets s₁ _ s₂ s₃ s₄
  have e₁ : StepEnds s s₁ := stepEnds_fbUndo s uid pos k
  have e₂ : StepEnds s₁ s₂ := ⟨rfl⟩
  have e₃ : StepEnds s₂ s₃ := ⟨rfl⟩
  have e₄ : StepEnds s₃ s₄ := ⟨rfl⟩
  have v₂ : s₂.ev = s₁.ev := rfl
  have v₃ : s₃.ev = s₂.ev := rfl
  have v₄ : s₄.ev = s₃.ev := rfl
  have g₃ : s₃.gate = s₂.gate := rfl
  have g₄ : s₄.gate = s₃.gate := rfl
  have r₁ : recIn s₂ uid pos = recIn s uid pos := recIn_of_benches (congrArg Seq.benches (fbUndo_seq s uid pos k))
  have r₃ : recIn s₃ uid pos = (recIn s₂ uid pos).map fun r => { r with dead := r.dead ++ [k] } := by
    rw [← recIn_noteSpoil uid s₂]
    exact recIn_updRec fun _ => ⟨rfl, rfl⟩
  have r₄ : recIn s₄ uid pos = recIn s₃ uid pos := recIn_of_benches rfl
  have m₃ (d : Nat) : seam s₃ d = seam s d := seam_fbUndo s uid pos k d
  have m₄ (d : Nat) : SameCopy (seam s₃ d) (seam s₄ d) := sameCopy_seamSpoil (dropSeamWrites s₃ uid pos m) d
  refine ⟨((e₁.trans e₂).trans (e₃.trans e₄)).trans (stepEnds_chunkMayEnd ..), ?_, ?_, ?_, fun d => ?_⟩
  · rw [chunkMayEnd_ev, v₄, v₃, v₂]
    exact fbUndo_ev s uid pos k
  · rw [chunkMayEnd_gate, g₄, g₃]
    exact congrArg (otherSteps · uid pos k) (fbUndo_steps s uid pos k)
  · rw [recIn_chunkMayEnd, r₄, r₃, r₁]
  · rw [← m₃]
    exact (m₄ d).trans (sameCopy_chunkMayEnd s₄ d)

end Sys2Proof.Machine
end

section
/-! PROOFS. The starts of a gate record's streams (R115, R136, R137, R458, R462). -/
namespace Sys2Proof.Machine

variable {s t u v z : State} {uid pos k m : Nat} {b : Bench} {r : Rec}

/-- The step of the stream that starts. -/
def gateNewStep (s : State) (b : Bench) (r : Rec) : GateStep :=
  { uid := b.uid, pos := r.pos, k := r.n, seam := gSeam r r.n, g := s.clk.slot, bankS := s.gate.bankSig, bankT := s.gate.bankTnh
    audit := rf r 3 18 2 != 0 && rf r 3 12 6 == r.n }

/-- A record that has come past stream k. -/
def gatePast (k : Nat) (r : Rec) : Rec := { r with n := k + 1 }

theorem recIn_gatePast (k : Nat) : recIn (updRec s uid pos (gatePast k)) uid pos = (recIn s uid pos).map (gatePast k) :=
  recIn_updRec fun _ => ⟨rfl, rfl⟩

/-- The next stream of a record starts, its seam being dispatched. -/
def gateStarted (s : State) (b : Bench) (r : Rec) : State :=
  { updRec s b.uid r.pos (gatePast r.n) with
    gate := { s.gate with hasLast := true, lastStart := s.clk.slot, lastP := cellP (gCell r)
                          steps := s.gate.steps ++ [gateNewStep s b r] } }

/-- The pipe may take a step in the present slot (R137). -/
def PipeFree (s : State) : Prop := s.gate.hasLast = true → s.gate.lastStart + s.gate.lastP ≤ s.clk.slot

theorem Joined.pipeFree (h : Joined s t b k) : PipeFree t ↔ PipeFree s := by
  rw [h.frame]
  rfl

/-- A stream whose seam is held does nothing in the bench (R115). -/
theorem gateStart_held (hacc : seamAccess s b r (gSeam r r.n) = (false, s)) : gateStart s b r = gateDead s b r r.n := by
  simp [gateStart, hacc]

/-- A stream whose seam takes part starts where the pipe is free (R136). -/
theorem gateStart_free (hacc : seamAccess s b r (gSeam r r.n) = (true, v)) (hslot : v.clk = s.clk) (hfree : PipeFree v)
    (hlost : r.lost = false) : gateStart s b r = gateStarted v b r := by
  have hf : (v.gate.hasLast && decide (s.clk.slot < v.gate.lastStart + v.gate.lastP)) = false := by
    rw [← hslot]
    cases hl : v.gate.hasLast
    · rfl
    · simpa using hfree hl
  simp only [gateStart, hacc, hlost, updRec_gate, hf]
  rw [← hslot]
  rfl

/-- Where an earlier stream still takes the slot it becomes spoil (R137, R458). -/
theorem gateStart_taken (hacc : seamAccess s b r (gSeam r r.n) = (true, v)) (hslot : v.clk = s.clk) (hfree : ¬ PipeFree v) :
    gateStart s b r = gateSpoil (slip (updRec v b.uid r.pos (gatePast r.n)) b r 4 0 0) b.uid r.pos r.n (gSeam r r.n) := by
  have hf : (v.gate.hasLast && decide (s.clk.slot < v.gate.lastStart + v.gate.lastP)) = true := by
    rw [← hslot]
    simpa [PipeFree] using hfree
  simp only [gateStart, hacc, updRec_gate, hf]
  rfl

/-- The next stream of a gate record, in its slot. -/
theorem answers_gateStreamStart {P : State → Prop} (u : State) (h : RecNow s uid pos 4 b r) (hn : r.n < gN r)
    (hpar : r.par.length = gParRows r) (hd : gDue b r r.n ≤ s.clk.slot)
    (hu : setAhead (gateStart (inTurn s uid pos) b r) s.acc.ahead = u) (hq : u.pending = s.pending) (hv : u.variant = s.variant)
    (hP : ∀ pins, P { u with pins := pins }) : Answers (.gateStreamStart uid pos) s P :=
  answers_onRec u h rfl (dueIf_of_true (by simp [hn, hpar]) _) hd hu hq hv hP

/-- A stream of a held seam is left out. -/
theorem gateStreamStart_held (h : RecNow s uid pos 4 b r) (hn : r.n < gN r) (hpar : r.par.length = gParRows r)
    (hd : gDue b r r.n ≤ s.clk.slot) (hheld : gSeam r r.n ∈ b.held) (hdisp : gSeam r r.n ∉ b.disp) :
    Answers (.gateStreamStart uid pos) s fun t =>
      t = { s with seq := { s.seq with benches := t.seq.benches }, pins := t.pins } ∧ RecAtN t uid pos (r.n + 1) ∧
      ∃ q, recOf t uid pos = some q ∧ r.n ∈ q.2.dead := by
  let f (x : Rec) : Rec := { x with n := r.n + 1, dead := if x.dead.contains r.n then x.dead else x.dead ++ [r.n] }
  have hg : gateStart (inTurn s uid pos) b r = updRec (inTurn s uid pos) uid pos f := by
    rw [gateStart_held (seamAccess_held (s := inTurn s uid pos) (benchOf_of_recNow h) hheld hdisp), gateDead, uid_of_recNow h,
      pos_of_recNow h]
  have hrec : recIn (updRec s uid pos f) uid pos = some (f r) := by
    rw [recIn_updRec (f := f) fun _ => ⟨rfl, rfl⟩, recIn_of_recNow h]
    rfl
  obtain ⟨b', hb'⟩ := exists_recOf hrec
  refine answers_gateStreamStart (updRec s uid pos f) h hn hpar hd (congrArg (setAhead · s.acc.ahead) hg) rfl rfl
    fun pins => ⟨rfl, map_recOf (·.n) hrec, (b', f r), hb', ?_⟩
  by_cases hk : r.n ∈ r.dead <;> simp [f, hk]

/-- A stream starts where its seam takes part and the pipe is free. -/
theorem gateStreamStart_free (h : RecNow s uid pos 4 b r) (hn : r.n < gN r) (hpar : r.par.length = gParRows r)
    (hd : gDue b r r.n ≤ s.clk.slot) (hjoin : SeamJoins s b (gSeam r r.n)) (hfree : PipeFree s) (hlost : r.lost = false) :
    Answers (.gateStreamStart uid pos) s fun t =>
      RecAtN t uid pos (r.n + 1) ∧ ∃ z pins, Joined s z b (gSeam r r.n) ∧ t = { gateStarted z b r with pins := pins } := by
  obtain ⟨v, hacc, hv⟩ := seamAccess_joins (s := inTurn s uid pos) (r := r) (benchOf_of_recNow h) hjoin
  have hg := gateStart_free hacc (by rw [hv.frame]) (hv.pipeFree.mpr hfree) hlost
  obtain ⟨z, hz⟩ : ∃ z, z = setAhead v s.acc.ahead := ⟨_, rfl⟩
  have hj : Joined s z b (gSeam r r.n) := hz ▸ hv.setAhead s.acc.ahead
  have hu : setAhead (gateStart (inTurn s uid pos) b r) s.acc.ahead = gateStarted z b r := by rw [hg, hz]; rfl
  have hrec : recIn (gateStarted z b r) uid pos = some (gatePast r.n r) := by
    have hr := hj.recs pos
    rw [uid_of_recNow h, recIn_of_recNow h] at hr
    have hp : recIn (gateStarted z b r) uid pos = recIn (updRec z uid pos (gatePast r.n)) uid pos :=
      recIn_of_benches (by rw [gateStarted, uid_of_recNow h, pos_of_recNow h])
    rw [hp, recIn_gatePast, hr]
    rfl
  have hq : (gateStarted z b r).pending = s.pending ∧ (gateStarted z b r).variant = s.variant := by
    rw [gateStarted, hj.frame]
    exact ⟨rfl, rfl⟩
  exact answers_gateStreamStart _ h hn hpar hd hu hq.1 hq.2 fun pins => ⟨map_recOf (·.n) hrec, z, pins, hj, rfl⟩

/-- A stream whose slot an earlier one still takes becomes spoil. -/
theorem gateStreamStart_taken (h : RecNow s uid pos 4 b r) (hn : r.n < gN r) (hpar : r.par.length = gParRows r)
    (hd : gDue b r r.n ≤ s.clk.slot) (hjoin : SeamJoins s b (gSeam r r.n)) (hfree : ¬ PipeFree s) :
    Answers (.gateStreamStart uid pos) s fun t => Caused t 0x05 ∧ RecAtN t uid pos (r.n + 1) ∧
      (∀ x ∈ t.gate.steps, x ∈ s.gate.steps) ∧ (∃ q, recOf t uid pos = some q ∧ r.n ∈ q.2.dead) ∧
      t.gate.lastStart = s.gate.lastStart ∧ ∀ d, SameCopy (seam s d) (seam t d) := by
  obtain ⟨v, hacc, hv⟩ := seamAccess_joins (s := inTurn s uid pos) (r := r) (benchOf_of_recNow h) hjoin
  have hg := gateStart_taken hacc (by rw [hv.frame]) (fun hf => hfree (hv.pipeFree.mp hf))
  rw [uid_of_recNow h, pos_of_recNow h] at hg
  obtain ⟨y, hy⟩ : ∃ y, y = slip (updRec v uid pos (gatePast r.n)) b r 4 0 0 := ⟨_, rfl⟩
  have hslip : Slips (updRec v uid pos (gatePast r.n)) y := hy ▸ slips_slip ..
  have hcaused : Caused y 0x05 := hy ▸ caused_slip ..
  rw [← hy] at hg
  obtain ⟨t, ht⟩ : ∃ t, t = setAhead (gateSpoil y uid pos r.n (gSeam r r.n)) s.acc.ahead := ⟨_, rfl⟩
  have hsp : Spoilt y t uid pos r.n := ht ▸ (spoilt_gateSpoil y uid pos r.n (gSeam r r.n)).setAhead s.acc.ahead
  have hu : setAhead (gateStart (inTurn s uid pos) b r) s.acc.ahead = t := by rw [hg, ht]
  have hgate : y.gate = s.gate := by rw [hslip.frame, updRec_gate, hv.frame]; rfl
  have hrec : recIn t uid pos = some { gatePast r.n r with dead := r.dead ++ [r.n] } := by
    have hr := hv.recs pos
    rw [uid_of_recNow h] at hr
    rw [hsp.record, recIn_of_benches hslip.benches, recIn_gatePast, hr, show recIn (inTurn s uid pos) uid pos = _ from recIn_of_recNow h]
    rfl
  obtain ⟨b', hb'⟩ := exists_recOf hrec
  have hq : t.pending = s.pending ∧ t.variant = s.variant := by
    rw [hsp.ends.frame, hslip.frame, updRec_pending, updRec_variant, hv.frame]
    exact ⟨rfl, rfl⟩
  have hlast : t.gate.lastStart = s.gate.lastStart := by rw [hsp.ends.frame, ← hgate]
  have hcopies (d : Nat) : SameCopy (seam s d) (seam t d) := by
    have hseam : seam y d = seam v d := by rw [hslip.frame]; rfl
    have hd := hsp.copies d
    rw [hseam] at hd
    exact (hv.sameCopy d).trans hd
  refine answers_gateStreamStart t h hn hpar hd hu hq.1 hq.2 fun pins =>
    ⟨?_, map_recOf (·.n) hrec, fun x hx => ?_, ⟨(b', _), hb', by simp⟩, hlast, hcopies⟩
  · show Caused t 0x05
    rw [Caused, hsp.ev]
    exact hcaused
  · have hx' : x ∈ otherSteps y.gate.steps uid pos r.n := hsp.steps ▸ hx
    rw [hgate] at hx'
    exact List.mem_of_mem_filter hx'

end Sys2Proof.Machine
end

section
/-! PROOFS. The commit of a step of a seam (R112): every entry of the new copy, and what the commit leaves. -/
namespace Sys2Proof.Machine

variable {s t u : State} {k i : Nat}

-- Folds over numbers.

theorem natsFrom_eq_range' (lo n : Nat) : natsFrom lo n = List.range' lo n := by
  induction n generalizing lo with
  | zero => rfl
  | succ n ih => rw [natsFrom, ih, List.range'_succ]

theorem foldTo_succ {σ : Type} (n : Nat) (f : Nat → σ → σ) (x : σ) : foldTo (n + 1) f x = f n (foldTo n f x) := by
  simp [foldTo, natsTo, natsFrom_eq_range', List.range'_concat]

/-- What the changes of a fold establish step by step holds of the whole. -/
theorem foldTo_induction {σ : Type} {f : Nat → σ → σ} {x : σ} (P : Nat → σ → Prop) (n : Nat) (h0 : P 0 x)
    (hs : ∀ i y, i < n → P i y → P (i + 1) (f i y)) : P n (foldTo n f x) := by
  induction n with
  | zero => exact h0
  | succ n ih =>
    rw [foldTo_succ]
    exact hs n _ (Nat.lt_succ_self n) (ih fun i y hi => hs i y (Nat.lt_succ_of_lt hi))

-- The new copy (R112).

/-- State `t` is `s` but for the accumulator. -/
def AccOnly (s t : State) : Prop := t = { s with acc := t.acc }

theorem AccOnly.refl (s : State) : AccOnly s s := rfl

theorem AccOnly.trans (h : AccOnly s t) (k : AccOnly t u) : AccOnly s u := Eq.trans k (by rw [h])

theorem AccOnly.seam_eq (h : AccOnly s t) (d : Nat) : seam t d = seam s d := by rw [h]; rfl

@[simp] theorem accEntry_setMeta (row row' j : Nat) (m : Meta) : accEntry (setMeta s row m) row' j = accEntry s row' j := rfl

/-- Entry j of row i of the new copy of seam k: what the step wrote, and the committed value elsewhere. -/
def newEntry (s : State) (k i j : Nat) : W32 :=
  let m := seam s k
  (mget m.shadow none (i * 128 + j)).getD (accEntry s (seamRow m m.cur i) j)

/-- Row i of the copy that the commit of a step of seam k makes. -/
def newRow (s : State) (k i : Nat) : Nat := seamRow (seam s k) (!(seam s k).cur) i

theorem newRow_ne_curRow {i' : Nat} (hi : i < (seam s k).nrows) (hi' : i' < (seam s k).nrows) :
    seamRow (seam s k) (seam s k).cur i ≠ newRow s k i' := by
  unfold newRow seamRow
  cases (seam s k).cur <;> simp <;> omega

/-- Entry j of row i of the new copy made. -/
def commitLane (s : State) (k i j : Nat) (u : State) : State :=
  match mget (seam s k).shadow none (i * 128 + j) with
  | some v => setEntry u (newRow s k i) j v
  | none => copyEntry u (seamRow (seam s k) (seam s k).cur i) (newRow s k i) j

theorem accOnly_commitLane (n : Nat) (h : AccOnly s u) : AccOnly s (commitLane s k i n u) := by
  unfold commitLane
  split <;> exact h.trans rfl

theorem accEntry_commitLane {n row j : Nat} (hn : n < 128) (hj : j < 128)
    (hu : accEntry u (seamRow (seam s k) (seam s k).cur i) n = accEntry s (seamRow (seam s k) (seam s k).cur i) n) :
    accEntry (commitLane s k i n u) row j = if row = newRow s k i ∧ j = n then newEntry s k i n else accEntry u row j := by
  unfold commitLane newEntry
  split
  next v hv => simp [accEntry_setEntry _ _ _ _ _ _ hn hj, hv]
  next hv => simp [accEntry_copyEntry _ _ _ _ _ _ hn hj, hv, hu]

theorem commitRow_eq (s : State) (k i : Nat) : ∃ m, commitRow k i s = setMeta (foldTo 128 (commitLane s k i) s) (newRow s k i) m :=
  ⟨_, rfl⟩

/-- Row i of the new copy is made, and nothing else changes but metadata. -/
theorem commitRow_entries (hi : i < (seam s k).nrows) : AccOnly s (commitRow k i s) ∧ ∀ row j, j < 128 →
    accEntry (commitRow k i s) row j = if row = newRow s k i then newEntry s k i j else accEntry s row j := by
  have hlanes : AccOnly s (foldTo 128 (commitLane s k i) s) ∧ ∀ row j, j < 128 →
      accEntry (foldTo 128 (commitLane s k i) s) row j =
        if row = newRow s k i ∧ j < 128 then newEntry s k i j else accEntry s row j := by
    refine foldTo_induction (fun n u => AccOnly s u ∧ ∀ row j, j < 128 →
      accEntry u row j = if row = newRow s k i ∧ j < n then newEntry s k i j else accEntry s row j) 128 ⟨.refl s, by simp⟩ ?_
    intro n u hn ⟨hfr, hu⟩
    refine ⟨accOnly_commitLane n hfr, fun row j hj => ?_⟩
    rw [accEntry_commitLane hn hj ((hu _ n hn).trans (if_neg fun h => newRow_ne_curRow hi hi h.1)), hu row j hj]
    by_cases hj' : j = n
    · subst hj'
      simp
    · have hlt : j < n + 1 ↔ j < n := by omega
      simp [hj', hlt]
  obtain ⟨m, hm⟩ := commitRow_eq s k i
  rw [hm]
  refine ⟨hlanes.1.trans rfl, fun row j hj => ?_⟩
  rw [accEntry_setMeta, hlanes.2 row j hj]
  simp [hj]

/-- The first n rows of seam k's copy that is not committed in `s` hold in `t` what a commit makes of them, and no other entry has changed. -/
def NewRows (s t : State) (k n : Nat) : Prop := ∀ row j, j < 128 →
  (∀ i, i < n → row = newRow s k i → accEntry t row j = newEntry s k i j) ∧
  ((∀ i, i < n → row ≠ newRow s k i) → accEntry t row j = accEntry s row j)

/-- The rows of the new copy made, before the seam turns to it. -/
theorem commitRows_entries (s : State) (k : Nat) :
    AccOnly s (foldTo (seam s k).nrows (commitRow k) s) ∧ NewRows s (foldTo (seam s k).nrows (commitRow k) s) k (seam s k).nrows := by
  refine foldTo_induction (fun n u => AccOnly s u ∧ NewRows s u k n) _ ⟨.refl s, by simp [NewRows]⟩ ?_
  intro n u hn ⟨hfr, hu⟩
  have hseam : seam u k = seam s k := hfr.seam_eq k
  have hrow : newRow u k n = newRow s k n := by rw [newRow, hseam, newRow]
  have hentry (j : Nat) (hj : j < 128) : newEntry u k n j = newEntry s k n j := by
    have hold : accEntry u (seamRow (seam s k) (seam s k).cur n) j = accEntry s (seamRow (seam s k) (seam s k).cur n) j :=
      (hu _ j hj).2 fun i hi => newRow_ne_curRow hn (hi.trans hn)
    simp only [newEntry, hseam, hold]
  obtain ⟨hfr', hu'⟩ := commitRow_entries (s := u) (k := k) (i := n) (by rw [hseam]; exact hn)
  refine ⟨hfr.trans hfr', fun row j hj => ?_⟩
  rw [hu' row j hj, hrow, hentry j hj]
  by_cases hr : row = newRow s k n
  · refine ⟨fun i hi he => ?_, fun h => absurd hr (h n (Nat.lt_succ_self n))⟩
    have hin : i = n := by
      have := he.symm.trans hr
      unfold newRow seamRow at this
      omega
    rw [if_pos hr, hin]
  · rw [if_neg hr]
    refine ⟨fun i hi he => (hu row j hj).1 i ?_ he, fun h => (hu row j hj).2 fun i hi => h i (Nat.lt_succ_of_lt hi)⟩
    have hin : i ≠ n := by
      rintro rfl
      exact hr he
    omega

end Sys2Proof.Machine
end

section
/-! PROOFS. The commit of a step of the gate pipe (R27, R112, R113, R142): what the commit of its seam, the release of its rows and the end
of its chunk leave, and how GATE_COMMIT answers. -/
namespace Sys2Proof.Machine

variable {s t u : State} {uid pos k : Nat} {b : Bench} {r : Rec} {x : GateStep}

-- The commit of a seam (R112).

theorem accOnly_seams {v : State} (h : AccOnly s v) (f : Seam → Seam) :
    updSeam v k f = { s with acc := (updSeam v k f).acc, seams := (updSeam v k f).seams } := by
  rw [h]
  rfl

theorem seamCommit_frame (s : State) (k n : Nat) :
    seamCommit s k n = { s with acc := (seamCommit s k n).acc, seams := (seamCommit s k n).seams } :=
  accOnly_seams (commitRows_entries s k).1 _

theorem newRows_seamCommit (s : State) (k n : Nat) : NewRows s (seamCommit s k n) k (seam s k).nrows := (commitRows_entries s k).2

theorem seam_seamCommit (s : State) (k n : Nat) : (seam (seamCommit s k n) k).cur = !(seam s k).cur ∧
    (seam (seamCommit s k n) k).step = (seam s k).step + BitVec.ofNat 32 n ∧ (seam (seamCommit s k n) k).shadow = [] := by
  have h := (commitRows_entries s k).1.seam_eq k
  simp [seamCommit, h]

theorem seam_seamCommit_of_ne {d : Nat} (hd : d ≠ k) (s : State) (n : Nat) : seam (seamCommit s k n) d = seam s d := by
  have h := (commitRows_entries s k).1.seam_eq d
  simp [seamCommit, hd, h]

-- The release of a step's input (R258).

theorem eachS_keeps {α : Type} {P : State → Prop} {f : α → State → State} (hf : ∀ a s, P s → P (f a s)) (l : List α) (hs : P s) :
    P (eachS l f s) := by
  induction l generalizing s with
  | nil => exact hs
  | cons a l ih => exact ih (hf a s hs)

/-- State `t` is `s` but for the rings and causes of events. -/
def RingsOnly (s t : State) : Prop := t = { s with rings := t.rings, ev := t.ev }

theorem RingsOnly.trans (h : RingsOnly s t) (k : RingsOnly t u) : RingsOnly s u := Eq.trans k (by rw [h])

theorem raise_frame (s : State) (code arg : Nat) : raise s code arg = { s with ev := (raise s code arg).ev } := by
  unfold raise
  split <;> rfl

/-- Rows released change their ring, and raise an event where fewer are there. -/
theorem releaseRows_cases (s : State) (n k : Nat) :
    ∃ r, releaseRows s n k = setRing s n r ∨ releaseRows s n k = raise (setRing s n r) 0x23 n := by
  unfold releaseRows
  dsimp only
  split
  · exact ⟨_, .inr rfl⟩
  · exact ⟨_, .inl rfl⟩

theorem ringsOnly_releaseRows (s : State) (n k : Nat) : RingsOnly s (releaseRows s n k) := by
  obtain ⟨r, h | h⟩ := releaseRows_cases s n k <;> rw [h]
  · rfl
  · rw [raise_frame]
    rfl

theorem ringsOnly_releaseCommit (s : State) (k n : Nat) : RingsOnly s (releaseCommit s k n) := by
  unfold releaseCommit
  refine eachS_keeps (P := RingsOnly s) (fun i t ht => ?_) _ rfl
  dsimp only
  split
  · exact ht.trans (ringsOnly_releaseRows ..)
  · exact ht

-- The commit of a step (R27, R113, R142).

/-- Step x of the gate pipe commits: state `t` is what it leaves of `s`. -/
structure Committed (s t : State) (x : GateStep) : Prop where
  ends : StepEnds s t
  gate : t.gate = { s.gate with steps := otherSteps s.gate.steps x.uid x.pos x.k }
  records : ∀ uid pos, recIn t uid pos = recIn s uid pos
  own : (seam t x.seam).cur = !(seam s x.seam).cur ∧ (seam t x.seam).step = (seam s x.seam).step + 1 ∧ (seam t x.seam).shadow = []
  others : ∀ d, d ≠ x.seam → SameCopy (seam s d) (seam t d)
  entries : NewRows s t x.seam (seam s x.seam).nrows

theorem gateOutput_none (h : rf r 1 0 2 = 0) : gateOutput s b r x = s := if_pos h

/-- The state without step x. -/
def withoutStep (s : State) (x : GateStep) : State := { s with gate := { s.gate with steps := otherSteps s.gate.steps x.uid x.pos x.k } }

/-- The rows that wait for a step's commit go to the writer, and the commit is counted (R181, R233). -/
def stepCounted (s : State) (uid k : Nat) : State := vstRelease (countCommit s uid k) uid k

theorem recIn_stepCounted (s : State) (v k : Nat) : recIn (stepCounted s v k) uid pos = recIn s uid pos := by
  have h : recIn (countCommit s v k) uid pos = recIn s uid pos := by
    rw [countCommit, recIn_updBench (by exact fun _ => ⟨rfl, rfl⟩)]
  exact (recIn_of_benches rfl).trans h

/-- The commit of a step without an output. -/
theorem gateCommitStep_eq (hout : rf r 1 0 2 = 0) (s : State) (b : Bench) (x : GateStep) : gateCommitStep s b r x =
    chunkMayEnd (releaseCommit (stepCounted (seamCommit (withoutStep s x) x.seam 1) x.uid x.seam) x.seam 1) x.uid x.pos x.seam := by
  show chunkMayEnd (releaseCommit (stepCounted (seamCommit (gateOutput (withoutStep s x) b r x) x.seam 1) x.uid x.seam) x.seam 1)
    x.uid x.pos x.seam = _
  rw [gateOutput_none hout]

theorem committed_gateCommitStep (hout : rf r 1 0 2 = 0) (s : State) (b : Bench) (x : GateStep) :
    Committed s (gateCommitStep s b r x) x := by
  rw [gateCommitStep_eq hout]
  obtain ⟨c, hc⟩ : ∃ c, c = seamCommit (withoutStep s x) x.seam 1 := ⟨_, rfl⟩
  obtain ⟨e, he⟩ : ∃ e, e = releaseCommit (stepCounted c x.uid x.seam) x.seam 1 := ⟨_, rfl⟩
  have hcf : c = { withoutStep s x with acc := c.acc, seams := c.seams } := by rw [hc]; exact seamCommit_frame ..
  have hef : RingsOnly (stepCounted c x.uid x.seam) e := by rw [he]; exact ringsOnly_releaseCommit ..
  have hseam (d : Nat) : seam e d = seam c d := by rw [hef]; rfl
  rw [← hc, ← he]
  have k₁ : StepEnds s (withoutStep s x) := ⟨rfl⟩
  have k₂ : StepEnds (withoutStep s x) c := ⟨hcf.trans (by rw [hcf])⟩
  have k₃ : StepEnds c e := ⟨Eq.trans hef (by rw [hef]; rfl)⟩
  have hown : (seam e x.seam).cur = !(seam s x.seam).cur ∧ (seam e x.seam).step = (seam s x.seam).step + 1 ∧ (seam e x.seam).shadow = [] := by
    rw [hseam, hc]
    exact seam_seamCommit (withoutStep s x) x.seam 1
  refine ⟨(k₁.trans k₂).trans (k₃.trans (stepEnds_chunkMayEnd ..)), ?_, fun uid pos => ?_, ⟨?_, ?_, ?_⟩, fun d hd => ?_, ?_⟩
  · rw [chunkMayEnd_gate, hef]
    show c.gate = (withoutStep s x).gate
    rw [hcf]
  · rw [recIn_chunkMayEnd, recIn_of_benches (congrArg (fun s => s.seq.benches) hef)]
    exact (recIn_stepCounted c x.uid x.seam).trans (recIn_of_benches (congrArg (fun s => s.seq.benches) hcf))
  · exact (sameCopy_chunkMayEnd e x.seam).2.trans hown.1
  · exact (sameCopy_chunkMayEnd e x.seam).1.trans hown.2.1
  · exact shadow_chunkMayEnd hown.2.2
  · have hd' : seam e d = seam s d := by
      rw [hseam, hc]
      exact seam_seamCommit_of_ne hd (withoutStep s x) 1
    rw [← hd']
    exact sameCopy_chunkMayEnd e d
  · have hacc : (chunkMayEnd e x.uid x.pos x.seam).acc = c.acc := by rw [chunkMayEnd_frame, hef]; rfl
    have hnew := newRows_seamCommit (withoutStep s x) x.seam 1
    rw [← hc] at hnew
    intro row j hj
    rw [accEntry, hacc]
    exact hnew row j hj

/-- What a commit leaves as it was. -/
theorem Committed.frame (h : Committed s t x) : t =
    { s with gate := { s.gate with steps := t.gate.steps }, acc := t.acc, seams := t.seams, rings := t.rings
             vec := { s.vec with vsts := t.vec.vsts }, seq := { s.seq with benches := t.seq.benches }, ev := t.ev } := by
  have hfb : t.gate.fb = s.gate.fb := by rw [h.gate]
  have hfr := h.ends.frame
  rw [hfb] at hfr
  exact hfr

theorem mem_otherSteps {l : List GateStep} {y : GateStep} :
    y ∈ otherSteps l uid pos k ↔ y ∈ l ∧ (y.uid, y.pos, y.k) ≠ (uid, pos, k) := by
  simp only [otherSteps, List.mem_filter, Bool.not_eq_true', ne_eq]
  grind

theorem Committed.setAhead (h : Committed s t x) (n : Nat) : Committed (setAhead s n) (setAhead t n) x where
  ends := ⟨congrArg (Machine.setAhead · n) h.ends.frame⟩
  gate := h.gate
  records := h.records
  own := h.own
  others := h.others
  entries := h.entries

-- GATE_COMMIT (R113, R136, R257).

/-- The commit slot of a record's first step in flight. -/
theorem answers_gateCommit {P : State → Prop} (u : State) (h : RecNow s uid pos 4 b r) (hx : firstStep s b r = some x)
    (hd : x.g + 25 ≤ s.clk.slot) (hu : setAhead (gateCommitNext (inTurn s uid pos) b r x) s.acc.ahead = u)
    (hq : u.pending = s.pending) (hv : u.variant = s.variant) (hP : ∀ pins, P { u with pins := pins }) :
    Answers (.gateCommit uid pos) s P := by
  have hfirst : gateCommitFirst (inTurn s uid pos) b r = gateCommitNext (inTurn s uid pos) b r x := by
    have hx' : firstStep (inTurn s uid pos) b r = some x := hx
    simp [gateCommitFirst, hx']
  refine answers_onRec u h rfl (d := x.g + 25) (by simp [gateCommitDue, hx]) hd ?_ hq hv hP
  rw [hfirst, hu]

/-- A step whose output must wait for the writer makes it wait. -/
theorem gateCommit_blocked (h : RecNow s uid pos 4 b r) (hx : firstStep s b r = some x) (hd : x.g + 25 ≤ s.clk.slot)
    (hb : gateOutBlocked s b r = true) : Answers (.gateCommit uid pos) s fun t =>
      t = { s with seq := t.seq, pins := t.pins } ∧ t.seq.frzNext.drain = true ∧ t.gate.steps = s.gate.steps := by
  have hb' : gateOutBlocked (inTurn s uid pos) b r = true := hb
  refine answers_gateCommit (writerFreeze s b (rf r 3 20 6)) h hx hd ?_ rfl rfl fun pins => ⟨rfl, rfl, rfl⟩
  rw [gateCommitNext, if_pos hb']
  rfl

/-- A record of which stream k is over. -/
def streamOver (k : Nat) (r : Rec) : Rec := { r with dead := r.dead ++ [k] }

/-- A step without an output commits, and its stream is over. -/
theorem gateCommit_commits (h : RecNow s uid pos 4 b r) (hx : firstStep s b r = some x) (hd : x.g + 25 ≤ s.clk.slot)
    (hout : rf r 1 0 2 = 0) : Answers (.gateCommit uid pos) s fun t =>
      (∃ q, recOf t uid pos = some q ∧ x.k ∈ q.2.dead) ∧
      ∃ y pins, Committed (updRec s uid pos (streamOver x.k)) y x ∧ t = { y with pins := pins } := by
  obtain ⟨y, hy⟩ : ∃ y, y = setAhead (gateCommitStep (updRec (inTurn s uid pos) uid pos (streamOver x.k)) b r x) s.acc.ahead :=
    ⟨_, rfl⟩
  have hc : Committed (updRec s uid pos (streamOver x.k)) y x := by
    rw [hy]
    exact (committed_gateCommitStep hout (updRec (inTurn s uid pos) uid pos (streamOver x.k)) b x).setAhead s.acc.ahead
  have hu : setAhead (gateCommitNext (inTurn s uid pos) b r x) s.acc.ahead = y := by
    rw [gateCommitNext, if_neg (by simp [gateOutBlocked, hout]), uid_of_recNow h, pos_of_recNow h, hy]
    rfl
  have hrec : recIn y uid pos = some (streamOver x.k r) := by
    rw [hc.records, recIn_updRec (f := streamOver x.k) fun _ => ⟨rfl, rfl⟩, recIn_of_recNow h]
    rfl
  obtain ⟨b', hb'⟩ := exists_recOf hrec
  refine answers_gateCommit y h hx hd hu (by rw [hc.ends.frame]; rfl) (by rw [hc.ends.frame]; rfl) fun pins =>
    ⟨⟨(b', _), hb', by simp [streamOver]⟩, y, pins, hc, rfl⟩

/-- What the start of a stream leaves, where its seam takes part. -/
theorem gateStarted_frame {z : State} (hz : Joined s z b k) (pins : Pins) :
    let t := { gateStarted z b r with pins := pins }
    t = { s with gate := t.gate, seams := t.seams, seq := { s.seq with benches := t.seq.benches }, pins := t.pins } := by
  dsimp only
  rw [gateStarted, hz.frame]
  rfl

theorem gate_gateStarted {z : State} (hz : Joined s z b k) : (gateStarted z b r).gate =
    { s.gate with hasLast := true, lastStart := s.clk.slot, lastP := cellP (gCell r)
                  steps := s.gate.steps ++ [gateNewStep s b r] } := by
  rw [gateStarted, hz.frame]
  rfl

/-- The bench has dispatched the seam of the stream that starts. -/
theorem benchOf_gateStarted {z : State} (hz : Joined s z b k) (hk : k ∉ b.disp) :
    ∃ x, benchOf (gateStarted z b r) b.uid = some x ∧ k ∈ x.disp := by
  obtain ⟨x, hx, hkx⟩ := (hz.first hk).2
  have hb : benchOf (gateStarted z b r) b.uid = benchOf (updRec z b.uid r.pos (gatePast r.n)) b.uid := benchOf_of_benches rfl
  rw [hb, updRec, benchOf_updBench (by exact fun _ => rfl), hx]
  exact ⟨_, rfl, by simpa using hkx⟩

/-- Settles O48: each clause is a case of the event's answer, read off what it leaves of the state. -/
theorem gateStreamsStartAndCommit : Obligations.GateStreamsStartAndCommit := by
  intro s uid pos b r h
  refine ⟨fun hn hd => ?_, fun hn hpar hd => ?_, fun x hx hd => ?_⟩
  · exact ⟨gateParamRead_lost h hn hd, gateParamRead_clean h hn hd⟩
  · refine ⟨gateStreamStart_held h hn hpar hd, fun hj hf hl => ?_, fun hj hf => ?_⟩
    · refine (gateStreamStart_free h hn hpar hd hj hf hl).imp ?_
      rintro _ ⟨he, hat, z, pins, hz, rfl⟩
      have huid := uid_of_recNow h
      refine ⟨he, gateStarted_frame hz _, hat, hz.others, fun hk => ⟨?_, ?_⟩, hz.again, gateNewStep s b r, gate_gateStarted hz, huid,
        pos_of_recNow h, rfl, rfl, rfl, rfl, rfl, ?_⟩
      · rw [← huid]
        exact (hz.first hk).1
      · rw [← huid]
        exact benchOf_gateStarted hz hk
      · simp [gateNewStep]
    · refine (gateStreamStart_taken h hn hpar hd hj hf).imp ?_
      rintro t ⟨he, hc, hat, hsteps, hdead, hlast, hcopies⟩
      exact ⟨he, hc, hat, hsteps, hdead, hlast, hcopies _⟩
  · refine ⟨gateCommit_blocked h hx hd, fun hout => ?_⟩
    intro m
    refine (gateCommit_commits h hx hd hout).imp ?_
    rintro _ ⟨he, hrec, y, pins, hy, rfl⟩
    refine ⟨he, ?_, fun a => ?_, hrec, hy.own.1, hy.own.2.1, hy.own.2.2, hy.others, fun i j hi hj => ?_, fun row j hj hrow => ?_⟩
    · exact congrArg (fun u : State => { u with pins := pins }) hy.frame
    · show a ∈ y.gate.steps ↔ _
      rw [hy.gate]
      exact mem_otherSteps
    · exact (hy.entries _ j hj).1 i hi rfl
    · exact (hy.entries row j hj).2 hrow

end Sys2Proof.Machine
end

section
/-! PROOFS. What a source operand of the vector engine may change (R97, R115, R177 to R180), and what none of its instructions changes. -/
namespace Sys2Proof.Machine

variable {s t u : State} {b : Bench} {r : Rec} {w : W64}

/-- State `t` is `s` but for what the read of an operand may change: the memory's ports and errors, the seams, the benches, causes of events,
registers, and the free values used. -/
def SourceReads (s t : State) : Prop :=
  t = { s with acc := t.acc, seams := t.seams, seq := t.seq, ev := t.ev, regs := t.regs, cyc := t.cyc, free := t.free }

/-- State `t` is `s` but for what an instruction of the vector engine may change: the same, the engine itself, the generators, and the units
to which results of the special function unit go. -/
def EngineStep (s t : State) : Prop :=
  t = { s with acc := t.acc, seams := t.seams, seq := t.seq, ev := t.ev, regs := t.regs, cyc := t.cyc, free := t.free
               gen := t.gen, vec := t.vec, sfu := t.sfu, scan := t.scan }

-- Operands.

theorem SourceReads.refl (s : State) : SourceReads s s := rfl

theorem SourceReads.trans (h : SourceReads s t) (k : SourceReads t u) : SourceReads s u := Eq.trans k (by rw [h])

theorem SourceReads.ite {c : Prop} [Decidable c] (h : SourceReads s t) (k : SourceReads s u) : SourceReads s (if c then t else u) := by
  split <;> assumption

theorem SourceReads.vec_eq (h : SourceReads s t) : t.vec = s.vec := by rw [h]

theorem sourceReads_setReg (s : State) (o : Nat) (v : W32) : SourceReads s (setReg s o v) :=
  (setReg_frame s o v).trans (by rw [setReg_frame])

theorem sourceReads_raise (s : State) (code arg : Nat) : SourceReads s (raise s code arg) :=
  (raise_frame s code arg).trans (by rw [raise_frame])

theorem Slips.sourceReads (h : Slips s t) : SourceReads s t := h.frame.trans (by rw [h.frame])

theorem sourceReads_takeRead (s : State) (n : Nat) : SourceReads s (takeRead s n).2 := by
  rcases takeRead_cases s n with h | h <;> rw [h] <;> rfl

theorem sourceReads_pickCopy (s : State) (row : Nat) : SourceReads s (pickCopy s row).2 := by
  unfold pickCopy
  split <;> rfl

theorem sourceReads_accDecode (s : State) (row key : Nat) : SourceReads s (accDecode s row key) := by
  unfold accDecode accUncorr
  refine .ite (.refl s) (.ite (sourceReads_setReg ..) (.ite (.refl s) ?_))
  exact ((show SourceReads s (setMeta s row _) from rfl).trans (sourceReads_setReg ..)).trans (sourceReads_raise ..)

theorem sourceReads_accRead (s : State) (row : Nat) : SourceReads s (accRead s row).2 :=
  eachS_keeps (P := SourceReads s) (fun _ t ht => ht.trans (sourceReads_accDecode t ..)) _ (.refl s)

theorem sourceReads_rowRead (s : State) (b : Bench) (r : Rec) (row expect : Nat) : SourceReads s (rowRead s b r row expect).2 := by
  unfold rowRead
  dsimp only
  split
  · exact ((sourceReads_takeRead s 1).trans (sourceReads_pickCopy ..)).trans
      ((sourceReads_accRead ..).trans (slips_metaCheck ..).sourceReads)
  · exact (slips_slip ..).sourceReads

theorem sourceReads_triggerReload (s : State) (k : Nat) : SourceReads s (triggerReload s k) := by
  unfold triggerReload
  refine .ite rfl ?_
  split
  · dsimp only
    split
    · rfl
    · split <;> rfl
  · rfl

/-- A dispatch changes the seam and the bench, and may slip, halt or trigger a reload (R115, R116, R462). -/
theorem sourceReads_dispatch (s : State) (b : Bench) (r : Rec) (k : Nat) : SourceReads s (dispatch s b r k) := by
  unfold dispatch
  extract_lets m bad old s₁ s₂ s₃ s₄
  refine .ite rfl ?_
  have h₁ : SourceReads s s₁ := .ite ((sourceReads_raise ..).trans (slips_reqHalt ..).sourceReads) (.refl s)
  have h₂ : SourceReads s₁ s₂ := .ite (slips_slip ..).sourceReads (.refl _)
  have h₃ : SourceReads s₂ s₃ := rfl
  have h₄ : SourceReads s₃ s₄ := .ite (sourceReads_triggerReload ..) (.refl _)
  exact .ite (h₁.trans rfl) ((h₁.trans h₂).trans ((h₃.trans h₄).trans rfl))

theorem sourceReads_seamAccess (s : State) (b : Bench) (r : Rec) (k : Nat) : SourceReads s (seamAccess s b r k).2 := by
  unfold seamAccess
  split
  · exact .refl s
  · split
    · exact .refl s
    · split
      · exact .refl s
      · exact sourceReads_dispatch ..

theorem sourceReads_seamRead (s : State) (k : Nat) (c : Bool) (i : Nat) : SourceReads s (seamRead s k c i).2 := by
  unfold seamRead
  dsimp only
  split
  · exact (sourceReads_accRead s _).trans rfl
  · exact sourceReads_accRead s _

theorem sourceReads_vSeamRead (s : State) (b : Bench) (r : Rec) (op : Nat) : SourceReads s (vSeamRead s b r op).2 := by
  unfold vSeamRead
  extract_lets k i zeros a m t d c s'
  have ha : SourceReads s a.2 := sourceReads_seamAccess ..
  have ht : SourceReads s t.2 := ha.trans (sourceReads_takeRead ..)
  have hd : SourceReads s d.2 := by
    refine ht.trans ?_
    unfold d
    split
    · exact sourceReads_seamRead ..
    · exact sourceReads_seamRead ..
  have hs' : SourceReads s s' := hd.trans (.ite rfl (.refl _))
  split
  · exact ha
  · split
    · exact ha.trans (slips_slip ..).sourceReads
    · split <;> exact hs'

theorem sourceReads_vSrc (s : State) (b : Bench) (r : Rec) (w : W64) (op : Nat) : SourceReads s (vSrc s b r w op).2 := by
  unfold vSrc
  split
  · exact .refl s
  · exact sourceReads_rowRead ..
  · exact sourceReads_vSeamRead ..
  · exact .refl s

/-- The read of the source operands leaves the engine's own state, whether or not an access is lost. -/
theorem sourceReads_vSrcs (s : State) (b : Bench) (r : Rec) (w : W64) (n : Nat) : SourceReads s (vSrcs s b r w n).2 := by
  unfold vSrcs
  refine List.foldlRecOn (motive := fun a : Option (List (List W32)) × State => SourceReads s a.2) _ _ (.refl s) fun a ha i _ => ?_
  dsimp only
  split
  · exact ha
  · exact ha.trans (sourceReads_vSrc ..)

-- Instructions.

theorem EngineStep.refl (s : State) : EngineStep s s := rfl

theorem EngineStep.trans (h : EngineStep s t) (k : EngineStep t u) : EngineStep s u := Eq.trans k (by rw [h])

theorem EngineStep.ite {c : Prop} [Decidable c] (h : EngineStep s t) (k : EngineStep s u) : EngineStep s (if c then t else u) := by
  split <;> assumption

theorem SourceReads.engineStep (h : SourceReads s t) : EngineStep s t := Eq.trans h (by rw [h])

theorem EngineStep.clk_eq (h : EngineStep s t) : t.clk = s.clk := by rw [h]

theorem orReg_frame (s : State) (o : Nat) (m : W32) :
    orReg s o m = { s with regs := (orReg s o m).regs, cyc := (orReg s o m).cyc } := by
  rw [orReg, tileUpd_frame]
  rfl

theorem engineStep_orReg (s : State) (o : Nat) (m : W32) : EngineStep s (orReg s o m) :=
  (orReg_frame s o m).trans (by rw [orReg_frame])

theorem engineStep_stick (s : State) (o : Nat) (fl : Flg) (mask : Nat) : EngineStep s (stick s o fl mask) :=
  .ite (.refl s) (engineStep_orReg ..)

theorem engineStep_vFlags (s : State) (fls : List Flg) : EngineStep s (vFlags s fls) := by
  unfold vFlags
  refine List.foldlRecOn (motive := EngineStep s) _ _ (.refl s) fun a ha i _ => .ite ha (ha.trans ?_)
  exact EngineStep.trans (t := { a with vec := { a.vec with flags := _ } }) rfl (engineStep_stick ..)

theorem engineStep_runLane {α : Type} (s : State) (site l : Nat) (md : RMode) (oi : Bool) (f : LaneM α) :
    EngineStep s (runLane s site l md oi f).2.2 := .ite (.refl s) rfl

theorem engineStep_vMirror (s : State) (b : Bench) (m : Seam) (i : Nat) (lanes : List (Option W32)) :
    EngineStep s (vMirror s b m i lanes).2.2 := by
  unfold vMirror
  split
  · exact .refl s
  · refine List.foldlRecOn (motive := fun a : List (Option W32) × List Flg × State => EngineStep s a.2.2) _ _ (.refl s) fun a ha i _ => ?_
    split
    · split
      · exact ha.trans (engineStep_runLane ..)
      · exact ha
    · exact ha

theorem engineStep_vHalf (s : State) (b : Bench) (m : Seam) (hi : Bool) (lanes : List (Option W32)) :
    EngineStep s (vHalf s b m hi lanes).2.2 := by
  unfold vHalf
  refine List.foldlRecOn (motive := fun a : List (Option W32) × List Flg × State => EngineStep s a.2.2) _ _ (.refl s) fun a ha i _ => ?_
  split
  · split
    · exact ha
    · exact ha.trans (engineStep_runLane ..)
  · exact ha

theorem engineStep_vSeamWrite (s : State) (b : Bench) (r : Rec) (lam op ord : Nat) (lanes : List (Option W32)) :
    EngineStep s (vSeamWrite s b r lam op ord lanes) := by
  unfold vSeamWrite
  extract_lets k i a m w
  have ha : EngineStep s a.2 := (sourceReads_seamAccess ..).engineStep
  refine .ite ha (.ite (ha.trans rfl) ?_)
  split
  · exact (ha.trans (engineStep_vMirror ..)).trans ((engineStep_vFlags ..).trans rfl)
  · exact (ha.trans (engineStep_vHalf ..)).trans ((engineStep_vFlags ..).trans rfl)

theorem engineStep_vDstAt (s : State) (b : Bench) (r : Rec) (lam : Nat) (fmt : Option Nat) (op row ord : Nat)
    (lanes : List (Option W32)) (sat : Bool) : EngineStep s (vDstAt s b r lam fmt op row ord lanes sat) := by
  unfold vDstAt
  split
  · rfl
  · dsimp only
    split <;> rfl
  · exact engineStep_vSeamWrite ..
  · rfl

theorem engineStep_vDst (s : State) (b : Bench) (r : Rec) (lam : Nat) (fmt : Option Nat) (op : Nat) (lanes : List (Option W32))
    (sat : Bool) : EngineStep s (vDst s b r lam fmt op lanes sat) :=
  EngineStep.trans (t := if op / 256 = 0 then s else { s with vec := { s.vec with ord := s.vec.ord + 1 } }) (.ite (.refl s) rfl)
    (engineStep_vDstAt ..)

theorem engineStep_vResult (s : State) (b : Bench) (r : Rec) (lam : Nat) (fmt : Option Nat) (w : W64) (lanes : List (Option W32))
    (fls : List Flg) : EngineStep s (vResult s b r lam fmt w lanes fls) := (engineStep_vFlags ..).trans (engineStep_vDst ..)

-- The results that reach their registers before the next instruction (R174, R193).

theorem engineStep_applyRes (s : State) (x : VRes) : EngineStep s (applyRes s x) := by
  unfold applyRes
  split
  · refine List.foldlRecOn (motive := EngineStep s) _ _ (.refl s) fun a ha i _ => ?_
    split
    · exact ha.trans rfl
    · exact ha
  · rfl
  · split <;> rfl

theorem engineStep_applyDue (s : State) : EngineStep s (applyDue s) :=
  eachS_keeps (P := EngineStep s) (fun x t ht => ht.trans (engineStep_applyRes t x)) _ rfl

theorem engineStep_ramParity (s : State) (mem : Nat) : EngineStep s (ramParity s mem) := by
  have h : SourceReads s (incReg (raise s 0x11 mem) 0xE040 0 32) := (sourceReads_raise ..).trans (sourceReads_setReg ..)
  refine EngineStep.trans h.engineStep ?_
  unfold ramParity reqHaltSeq
  exact .ite (.refl _) rfl

theorem engineStep_sfuStatus (s : State) (q : SfuReq) (off : Nat) : EngineStep s (sfuStatus s q off) := by
  unfold sfuStatus lanePar
  extract_lets fl s₁ s₂ s₃ s₄
  have h₁ : EngineStep s s₁ := (engineStep_stick ..).trans (engineStep_stick ..)
  have h₂ : EngineStep s₁ s₂ := .ite (engineStep_orReg ..) (.refl _)
  have h₃ : EngineStep s₂ s₃ := .ite (sourceReads_setReg ..).engineStep (.refl _)
  have h₄ : EngineStep s₃ s₄ := .ite (.refl _) (engineStep_ramParity ..)
  exact ((h₁.trans h₂).trans (h₃.trans h₄)).trans (.ite (.refl _) (engineStep_ramParity ..))

theorem engineStep_scanDeliver (s : State) (q : SfuReq) : EngineStep s (scanDeliver s q) := by
  unfold scanDeliver
  split
  · rfl
  · split <;> rfl
  · split <;> rfl
  · rfl

theorem engineStep_sfuDeliver (s : State) (q : SfuReq) : EngineStep s (sfuDeliver s q) := by
  unfold sfuDeliver
  split
  · refine EngineStep.trans ((engineStep_sfuStatus ..).trans (engineStep_vFlags ..)) (.ite rfl ?_)
    split
    · exact engineStep_vDstAt ..
    · exact .refl _
  · exact (engineStep_sfuStatus ..).trans (engineStep_scanDeliver ..)

theorem engineStep_of_sfuTake {q : SfuReq} (h : sfuTake s = some (q, t)) : EngineStep s t := by
  unfold sfuTake at h
  split at h
  · cases h
  · cases h
    rfl

theorem engineStep_vecFlush (fuel : Nat) (s : State) : EngineStep s (vecFlush fuel s) := by
  induction fuel generalizing s with
  | zero => exact engineStep_applyDue s
  | succ n ih =>
    unfold vecFlush
    split
    next q t h => exact .ite ((engineStep_of_sfuTake h).trans ((engineStep_sfuDeliver ..).trans (ih _))) (engineStep_applyDue s)
    next => exact engineStep_applyDue s

/-- The tile as the next instruction finds it. -/
theorem engineStep_vTurn (s : State) (b : Bench) (r : Rec) : EngineStep s (vTurn s b r) := (engineStep_vecFlush 16 s).trans rfl

end Sys2Proof.Machine
end

section
/-! PROOFS. The lanes of the vector engine: what each of them computes and draws, and where its flags go (R51, R53, R57, R170, R187). -/
namespace Sys2Proof.Machine

variable {s t u : State} {b : Bench} {r : Rec} {w : W64}

theorem natsTo_succ (n : Nat) : natsTo (n + 1) = natsTo n ++ [n] := by
  simp [natsTo, natsFrom_eq_range', List.range'_concat]

-- Values (R170).

/-- What a computation gives in lane l of the vector engine under ARND: the value, and its flags. -/
def laneGives (s : State) (b : Bench) (l : Nat) (f : LaneM W32) : W32 × Flg :=
  let x := f ⟨genOf s siteVec l, 0, benchRnd b b.arnd, b.ovfInf⟩
  (x.1, x.2.fl)

/-- A result as a word with its flags. -/
def NumR.word (x : NumR) : W32 × Flg := (BitVec.ofNat 32 x.bits, x.fl)

@[simp] theorem laneGives_pure (s : State) (b : Bench) (l : Nat) (x : W32) : laneGives s b l (pure x) = (x, 0) := rfl

@[simp] theorem laneGives_flag (s : State) (b : Bench) (l : Nat) (fl : Flg) (x : W32) :
    laneGives s b l (laneFlag fl >>= fun _ => pure x) = (x, fl) := by
  simp [laneGives, laneFlag, bind, pure, StateT.bind, StateT.pure]

/-- One rounding draws the lane's number. -/
@[simp] theorem laneGives_round (s : State) (b : Bench) (l : Nat) (f : RMode → Bool → Nat → NumR) :
    laneGives s b l (laneRound f) = (f (benchRnd b b.arnd) b.ovfInf (vDraw s l)).word := by
  simp [laneGives, laneRound, NumR.word, vDraw]

/-- A rounding whose result goes through a map. -/
theorem laneGives_map (s : State) (b : Bench) (l : Nat) (f : LaneM W32) (g : W32 → W32) :
    laneGives s b l (f >>= fun c => pure (g c)) = (g (laneGives s b l f).1, (laneGives s b l f).2) := rfl

@[simp] theorem laneGives_lSat (s : State) (b : Bench) (l : Nat) (i : Int) : laneGives s b l (lSat i) = sat32 i :=
  laneGives_flag s b l (sat32 i).2 (sat32 i).1

/-- The values of the lanes that act. -/
def actValues (s : State) (w : W64) (val : Nat → W32 × Flg) : List (Option W32) :=
  (natsTo 128).map fun l => if vActs s w l then some (val l).1 else none

/-- The flags of the lanes that act. -/
def actFlags (s : State) (w : W64) (val : Nat → W32 × Flg) : List Flg :=
  (natsTo 128).map fun l => if vActs s w l then (val l).2 else 0

/-- What lane l adds to the values, the flags and the state of the lanes before it. -/
def laneStep (s : State) (b : Bench) (w : W64) (f : Nat → LaneM W32) (l : Nat) (a : List (Option W32) × List Flg × State) :
    List (Option W32) × List Flg × State :=
  if vActs s w l then
    let x := runLane a.2.2 siteVec l (benchRnd b b.arnd) b.ovfInf (f l)
    (some x.1 :: a.1, x.2.1 :: a.2.1, x.2.2)
  else (none :: a.1, 0 :: a.2.1, a.2.2)

/-- A lane computes with its own generator, and leaves those of the lanes that follow. -/
theorem runLane_gen {g : SMap W32} {l : Nat} (hg : ∀ k, l ≤ k → mget g 0 (siteVec * 128 + k) = mget s.gen 0 (siteVec * 128 + k))
    (f : LaneM W32) : ∃ g', runLane { s with gen := g } siteVec l (benchRnd b b.arnd) b.ovfInf f =
      ((laneGives s b l f).1, (laneGives s b l f).2, { s with gen := g' }) ∧
      ∀ k, l + 1 ≤ k → mget g' 0 (siteVec * 128 + k) = mget s.gen 0 (siteVec * 128 + k) := by
  have hgen : genOf { s with gen := g } siteVec l = genOf s siteVec l := by
    show (if _ then _ else _) = if _ then _ else _
    rw [hg l (Nat.le_refl l)]
    rfl
  simp only [runLane, hgen, laneGives]
  split
  · exact ⟨g, rfl, fun k hk => hg k (by omega)⟩
  · refine ⟨_, rfl, fun k hk => ?_⟩
    rw [mget_mset, if_neg (by omega), hg k (by omega)]

theorem foldTo_laneStep (s : State) (b : Bench) (w : W64) (f : Nat → LaneM W32) (n : Nat) :
    ∃ g, foldTo n (laneStep s b w f) ([], [], s) =
      (((natsTo n).map fun l => if vActs s w l then some (laneGives s b l (f l)).1 else none).reverse,
        ((natsTo n).map fun l => if vActs s w l then (laneGives s b l (f l)).2 else 0).reverse, { s with gen := g }) ∧
      ∀ l, n ≤ l → mget g 0 (siteVec * 128 + l) = mget s.gen 0 (siteVec * 128 + l) := by
  induction n with
  | zero => exact ⟨s.gen, rfl, fun _ _ => rfl⟩
  | succ n ih =>
    obtain ⟨g, heq, hg⟩ := ih
    rw [foldTo_succ, heq, natsTo_succ]
    by_cases ha : vActs s w n = true
    · obtain ⟨g', hx, hg'⟩ := runLane_gen (b := b) hg (f n)
      exact ⟨g', by simp [laneStep, ha, hx], hg'⟩
    · exact ⟨g, by simp [laneStep, ha], fun l hl => hg l (by omega)⟩

/-- Every lane that acts computes by itself; nothing but the generators changes. -/
theorem vLanes_eq (s : State) (b : Bench) (w : W64) (f : Nat → LaneM W32) : ∃ g, vLanes s b w f =
    (actValues s w fun l => laneGives s b l (f l), actFlags s w fun l => laneGives s b l (f l), { s with gen := g }) := by
  obtain ⟨g, hg, -⟩ := foldTo_laneStep s b w f 128
  have hv : vLanes s b w f = ((foldTo 128 (laneStep s b w f) ([], [], s)).1.reverse,
      (foldTo 128 (laneStep s b w f) ([], [], s)).2.1.reverse, (foldTo 128 (laneStep s b w f) ([], [], s)).2.2) := by
    simp only [vLanes, foldTo, laneStep]
  exact ⟨g, by rw [hv, hg, List.reverse_reverse, List.reverse_reverse, actValues, actFlags]⟩

-- Flags (R57, R187).

/-- State `t` is `s` after the lanes' flags `fl` have gone to the lanes' own copies and VEC_STICKY. -/
structure FlagsSet (s t : State) (fl : Nat → Flg) : Prop where
  frame : t = { s with vec := { s.vec with flags := t.vec.flags }, regs := t.regs, cyc := t.cyc }
  kept : RegsKept s t [0x4804]
  copies : ∀ l, BitVec.ofNat 8 (mget t.vec.flags 0 l) = BitVec.ofNat 8 (mget s.vec.flags 0 l) ||| (fl l &&& 0x3F)

theorem reg_stick (s : State) (o o' : Nat) (fl : Flg) (mask : Nat) (h : o' ≠ o) : reg (stick s o fl mask) o' = reg s o' := by
  unfold stick
  split
  · rfl
  · simp [h]

theorem stick_frame (s : State) (o : Nat) (fl : Flg) (mask : Nat) :
    stick s o fl mask = { s with regs := (stick s o fl mask).regs, cyc := (stick s o fl mask).cyc } := by
  unfold stick
  split
  · rfl
  · exact orReg_frame ..

/-- The flags of lane l go to its copy and to VEC_STICKY. -/
def flagStep (fls : List Flg) (l : Nat) (s : State) : State :=
  let f := lget fls 0 l &&& 0x3F
  if f = 0 then s
  else stick { s with vec := { s.vec with flags := mset s.vec.flags 0 l ((BitVec.ofNat 8 (mget s.vec.flags 0 l) ||| f).toNat) } } 0x4804 f 0x3F

theorem flagStep_flags (fls : List Flg) (l k : Nat) (s : State) : BitVec.ofNat 8 (mget (flagStep fls l s).vec.flags 0 k) =
    BitVec.ofNat 8 (mget s.vec.flags 0 k) ||| (if k = l then lget fls 0 l &&& 0x3F else 0) := by
  unfold flagStep
  dsimp only
  by_cases hf : lget fls 0 l &&& 0x3F = 0
  · rw [if_pos hf, hf, ite_self]
    exact BitVec.or_zero.symm
  · rw [if_neg hf, stick_frame, mget_mset]
    by_cases hk : k = l
    · rw [if_pos hk, if_pos hk, BitVec.ofNat_toNat, BitVec.setWidth_eq, hk]
    · rw [if_neg hk, if_neg hk]
      exact BitVec.or_zero.symm

theorem flagStep_kept (fls : List Flg) (l : Nat) (s : State) : RegsKept s (flagStep fls l s) [0x4804] := by
  intro o ho
  unfold flagStep
  dsimp only
  split
  · rfl
  · exact reg_stick _ _ _ _ _ (by simpa using ho)

theorem flagStep_frame (fls : List Flg) (l : Nat) (s : State) : flagStep fls l s =
    { s with vec := { s.vec with flags := (flagStep fls l s).vec.flags }, regs := (flagStep fls l s).regs, cyc := (flagStep fls l s).cyc } := by
  unfold flagStep
  dsimp only
  split
  · rfl
  · rw [stick_frame]

theorem flagsSet_vFlags (s : State) (fls : List Flg) : FlagsSet s (vFlags s fls) (lget fls 0) := by
  have hv : vFlags s fls = foldTo fls.length (flagStep fls) s := rfl
  have hfold : FlagsSet s (foldTo fls.length (flagStep fls) s) fun l => if l < fls.length then lget fls 0 l else 0 := by
    refine foldTo_induction (fun n t => FlagsSet s t fun l => if l < n then lget fls 0 l else 0) _ ⟨rfl, fun _ _ => rfl, by simp⟩ ?_
    intro n t _ ht
    refine ⟨?_, fun o ho => (flagStep_kept fls n t o ho).trans (ht.kept o ho), fun l => ?_⟩
    · rw [flagStep_frame, ht.frame]
    · rw [flagStep_flags, ht.copies]
      by_cases hl : l = n
      · simp [hl]
      · have hlt : l < n + 1 ↔ l < n := by omega
        simp [hl, hlt]
  rw [hv]
  refine ⟨hfold.frame, hfold.kept, fun l => ?_⟩
  rw [hfold.copies]
  by_cases hl : l < fls.length
  · rw [if_pos hl]
  · rw [if_neg hl, lget_past _ _ _ (by omega)]

end Sys2Proof.Machine
end

section
/-! PROOFS. The destination of an instruction of the vector engine: a register, a row of the accumulator, a row of a seam (R174, R175, R178,
R179), and the tile when a lane-wise instruction is done. -/
namespace Sys2Proof.Machine

variable {s t u v : State} {run : Running} {b : Bench} {r : Rec} {w : W64} {lam d : Nat} {fmt : Option Nat} {sat : Bool}

/-- The engine with its next issue order, which a write takes (R174). -/
def nextOrd (s : State) : State := { s with vec := { s.vec with ord := s.vec.ord + 1 } }

theorem vDst_register (h : d / 256 = 0) (s : State) (lanes : List (Option W32)) :
    vDst s b r lam fmt d lanes sat = pushRes s b r lam (.v (d % 32)) lanes := by
  simp [vDst, vDstAt, h]

theorem vDst_row (h : d / 256 = 1) (s : State) (lanes : List (Option W32)) : ∃ n, vDst s b r lam fmt d lanes sat =
    pushWrite { nextOrd s with free := n }
      { due := s.clk.slot + lam, row := vRow s b r d, ord := s.vec.ord + 1, void := lanes.all Option.isNone, kind := .row, uid := b.uid
        pos := r.pos, lanes := lanes, md := { fmt := vFmt s fmt, epoch := vEp b r (d / 64 % 4), stale := false, sat := sat } } := by
  simp only [vDst, vDstAt, h]
  cases fmt <;> exact ⟨_, rfl⟩

theorem vDst_seam (h : d / 256 = 2) (s : State) (lanes : List (Option W32)) : vDst s b r lam fmt d lanes sat =
    vSeamWrite (nextOrd s) b r lam d (s.vec.ord + 1) lanes := by
  simp [vDst, vDstAt, h, nextOrd]

-- A seam that the bench has dispatched (R115, R179).

theorem seamAccess_dispatched {k : Nat} (h : ∃ y, benchOf s b.uid = some y ∧ k ∈ y.disp) : seamAccess s b r k = (true, s) := by
  obtain ⟨y, hy, hk⟩ := h
  simp [seamAccess, hy, hk]

theorem vMirror_of_deep_zero {m : Seam} (h : m.deep = 0) (s : State) (b : Bench) (i : Nat) (lanes : List (Option W32)) :
    vMirror s b m i lanes = ([], [], s) := by
  simp [vMirror, h]

theorem vWhole_of_deep_zero {m : Seam} (h : m.deep = 0) (i j : Nat) : vWhole m i j = true := by
  unfold vWhole seamBits
  split
  · simp [isDeep, h]
  · simp [h]

/-- A whole row of a seam without deep groups. -/
theorem vSeamWrite_whole (hp : d / 16 % 4 = 0) (hdisp : ∃ y, benchOf s b.uid = some y ∧ vSeam r (d / 128 % 2) ∈ y.disp)
    (hrow : d % 16 < (seam s (vSeam r (d / 128 % 2))).nrows) (hdeep : (seam s (vSeam r (d / 128 % 2))).deep = 0) (ord : Nat)
    (lanes : List (Option W32)) : vSeamWrite s b r lam d ord lanes = pushWrite s
      { due := s.clk.slot + lam, row := d % 16, kind := .seam (vSeam r (d / 128 % 2)), uid := b.uid, pos := r.pos, lanes := lanes, md := {}
        ord := ord, void := lanes.all Option.isNone
        mask := let m := seam s (vSeam r (d / 128 % 2))
          if d % 16 < nStd m.nvec then seamBits m (d % 16) 0 else 0xFFFFFFFF } := by
  have hlanes : (lanes.mapIdx fun j v => if vWhole (seam s (vSeam r (d / 128 % 2))) (d % 16) j then v else none) = lanes :=
    List.ext_getElem (by simp) (by simp [vWhole_of_deep_zero hdeep])
  simp only [vSeamWrite, seamAccess_dispatched hdisp, Bool.not_true, Bool.false_eq_true, if_false, Nat.not_le.mpr hrow, hp,
    vMirror_of_deep_zero hdeep, hlanes]
  rfl

/-- A row past the copy. -/
theorem vSeamWrite_past (hdisp : ∃ y, benchOf s b.uid = some y ∧ vSeam r (d / 128 % 2) ∈ y.disp)
    (hrow : (seam s (vSeam r (d / 128 % 2))).nrows ≤ d % 16) (ord : Nat) (lanes : List (Option W32)) :
    ∃ mask, vSeamWrite s b r lam d ord lanes = pushWrite s
      { due := s.clk.slot + lam, row := d % 16, kind := .seam (vSeam r (d / 128 % 2)), uid := b.uid, pos := r.pos, lanes := lanes, md := {}
        ord := ord, void := true, mask := mask } := by
  simp only [vSeamWrite, seamAccess_dispatched hdisp, Bool.not_true, Bool.false_eq_true, if_false, hrow, if_true]
  exact ⟨_, rfl⟩

-- What a result does at its destination.

theorem all_isNone_map (g : Nat → Option W32) : ((natsTo 128).map g).all Option.isNone = true ↔ ∀ l, l < 128 → g l = none := by
  simp

/-- A result reaches its destination. -/
theorem vWrites_vDst (s : State) (b : Bench) (r : Rec) (w : W64) (lam : Nat) (fmt : Option Nat) (g : Nat → Option W32) (sat : Bool) :
    VWrites (vDst s b r lam fmt (vF w 44 10) ((natsTo 128).map g) sat) s b r w lam fmt g := by
  have hlane : ∀ l, l < 128 → lget ((natsTo 128).map g) none l = g l := fun l hl => lget_map_natsTo g none 128 l hl
  refine ⟨fun h => ?_, fun h => ?_, fun h hp hdisp hrow hdeep => ?_, fun h hdisp hrow => ?_⟩
  · rw [vDst_register h]
    exact ⟨rfl, _, rfl, rfl, rfl, rfl, rfl, hlane⟩
  · obtain ⟨n, hx⟩ := vDst_row (b := b) (r := r) (lam := lam) (fmt := fmt) (sat := sat) h s ((natsTo 128).map g)
    rw [hx]
    refine ⟨rfl, _, rfl, rfl, rfl, rfl, rfl, rfl, rfl, rfl, all_isNone_map g, fun f hf => ?_, hlane⟩
    rw [hf]
    rfl
  · rw [vDst_seam h, vSeamWrite_whole (s := nextOrd s) hp hdisp hrow hdeep]
    exact ⟨rfl, _, rfl, rfl, rfl, rfl, rfl, rfl, all_isNone_map g, rfl, hlane⟩
  · obtain ⟨mask, hx⟩ := vSeamWrite_past (s := nextOrd s) (lam := lam) hdisp hrow (s.vec.ord + 1) ((natsTo 128).map g)
    rw [vDst_seam h, hx]
    exact ⟨rfl, _, rfl, rfl, rfl, rfl, rfl, rfl⟩

/-- A result that goes to a register or a row changes the results, the writes on their way and the free values used. -/
theorem vDst_frame (h : d / 256 < 2) (s : State) (lanes : List (Option W32)) : vDst s b r lam fmt d lanes sat =
    { s with vec := { s.vec with res := (vDst s b r lam fmt d lanes sat).vec.res, ord := (vDst s b r lam fmt d lanes sat).vec.ord }
             acc := { s.acc with wq := (vDst s b r lam fmt d lanes sat).acc.wq }, free := (vDst s b r lam fmt d lanes sat).free } := by
  rcases (by omega : d / 256 = 0 ∨ d / 256 = 1) with h | h
  · rw [vDst_register h]
    rfl
  · obtain ⟨n, hx⟩ := vDst_row (b := b) (r := r) (lam := lam) (fmt := fmt) (sat := sat) h s lanes
    rw [hx]
    rfl

-- The tile when an instruction is done.

theorem vGo_run (h : EngineStep v u) (run : Running) : (vGo u run).vec.run = (vGo v run).vec.run := by
  simp [vGo, vAdvance, h.clk_eq]

/-- The frame of an instruction whose result goes to a register or a row. -/
theorem vFrame_of_frame (hu : u = { v with vec := { v.vec with res := u.vec.res, ord := u.vec.ord, flags := u.vec.flags }
                                           acc := { v.acc with wq := u.acc.wq }, gen := u.gen, regs := u.regs, cyc := u.cyc, free := u.free })
    (hk : RegsKept v u [0x4804]) (pins : Pins) : VFrame { vGo u run with pins := pins } v run := by
  refine ⟨?_, ?_, hk⟩
  · rw [hu]
    rfl
  · rw [hu]
    rfl

/-- A result computed from a state that differs from `v` by its generators: every lane that acts has its value and its flags. -/
theorem vDone_vResult (v : State) (run : Running) (b : Bench) (r : Rec) (w : W64) (lam : Nat) (fmt : Option Nat) (val : Nat → W32 × Flg)
    (g : SMap W32) (pins : Pins) :
    VDone { vGo (vResult { v with gen := g } b r lam fmt w (actValues v w val) (actFlags v w val)) run with pins := pins } v run b r w lam
      fmt val := by
  obtain ⟨c, hc⟩ : ∃ c, c = vFlags { v with gen := g } (actFlags v w val) := ⟨_, rfl⟩
  obtain ⟨hfr, hkept, hcopies⟩ := hc ▸ flagsSet_vFlags { v with gen := g } (actFlags v w val)
  have hres : vResult { v with gen := g } b r lam fmt w (actValues v w val) (actFlags v w val) =
      vDst c b r lam fmt (vF w 44 10) (actValues v w val) (anySat (actFlags v w val)) := by rw [hc]; rfl
  have hwr := vWrites_vDst c b r w lam fmt (fun l => if vActs v w l then some (val l).1 else none) (anySat (actFlags v w val))
  rw [hres]
  refine ⟨vGo_run ?_ run, ?_, fun hd => ?_⟩
  · rw [← hres]
    exact EngineStep.trans (t := { v with gen := g }) rfl (engineStep_vResult ..)
  · rw [hfr] at hwr ⊢
    exact hwr
  · obtain ⟨u, hu⟩ : ∃ u, u = vDst c b r lam fmt (vF w 44 10) (actValues v w val) (anySat (actFlags v w val)) := ⟨_, rfl⟩
    have hdst := vDst_frame (b := b) (r := r) (lam := lam) (fmt := fmt) (sat := anySat (actFlags v w val)) hd c (actValues v w val)
    rw [← hu] at hdst ⊢
    refine ⟨vFrame_of_frame (hdst.trans ?_) (fun o ho => ?_) pins, fun l hl => ?_⟩
    · rw [hdst, hfr]
    · refine Eq.trans ?_ (hkept o ho)
      rw [hdst]
      rfl
    · have hflags : u.vec.flags = c.vec.flags := by rw [hdst]
      have hl' : lget (actFlags v w val) 0 l = if vActs v w l then (val l).2 else 0 := lget_map_natsTo _ 0 128 l hl
      show BitVec.ofNat 8 (mget u.vec.flags 0 l) = _
      rw [hflags, hcopies, hl']
      split <;> rfl

end Sys2Proof.Machine
end

section
/-! PROOFS. The issue of an instruction of the vector engine (R173, R183): how its command answers, and that lane-wise instructions and
reductions do in every acting lane what their operation says (R170, R182, R186). -/
namespace Sys2Proof.Machine

variable {s t u v : State} {run : Running} {b : Bench} {r : Rec} {w : W64} {c : Instr} {op n lam : Nat} {fmt : Option Nat}

/-- An instruction that always issues answers with what it leaves, and the recipe goes on. -/
theorem answers_vIssue {f : VFn} {P : State → Prop} (u : State) (h : VNow s op run b r) (hx : exec c s = act s (vIssue op f))
    (hu : f (vTurn s b r) b r (vWord s run) = u) (he : EngineStep (vTurn s b r) u) (hP : ∀ pins, P { vGo u run with pins := pins }) :
    Answers c s P := by
  obtain ⟨hrun, hop, hbad, hnext, hact, hfrz, hrec⟩ := h
  have hs : EngineStep s (vGo u run) := ((engineStep_vTurn s b r).trans he).trans rfl
  refine answers_of_effect (vGo u run) hx ?_ (by rw [hs]) (by rw [hs]) hP
  rw [vIssue, onInstr, inSlot_now s _ _ run.next (by simp [instrDue, hrun, hact, hop, dueIf]) hnext hfrz]
  simp [hrun, vIssueWith, hbad, hrec, hu, vGo]

/-- A source whose access was lost leaves the destination. -/
theorem vOp_lost {f : Bench → W64 → W32 → W32 → W32 → LaneM W32} (h : (vSrcs s b r w n).1 = none) :
    vOp lam fmt n f s b r w = (vSrcs s b r w n).2 := by
  simp [vOp, h]

/-- A lane-wise instruction with its sources sends what its lanes give. -/
theorem vOp_sends {f : Bench → W64 → W32 → W32 → W32 → LaneM W32} {l : List (List W32)} {val : Nat → W32 × Flg}
    (h : (vSrcs s b r w n).1 = some l)
    (hval : ∀ k, laneGives (vSrcs s b r w n).2 b k (f b w (vIn l 0 k) (vIn l 1 k) (vIn l 2 k)) = val k) :
    ∃ g, vOp lam fmt n f s b r w = vResult { (vSrcs s b r w n).2 with gen := g } b r lam fmt w
      (actValues (vSrcs s b r w n).2 w val) (actFlags (vSrcs s b r w n).2 w val) := by
  obtain ⟨g, hg⟩ := vLanes_eq (vSrcs s b r w n).2 b w fun k => f b w (vIn l 0 k) (vIn l 1 k) (vIn l 2 k)
  simp only [hval] at hg
  simp only [vIn] at hg
  exact ⟨g, by simp only [vOp, h, hg]⟩

theorem vReduce_lost {f : Bool → List (Option W32) → W32 × Flg} {fmt : Nat} (h : (vSrcs s b r w 1).1 = none) :
    vReduce fmt f s b r w = (vSrcs s b r w 1).2 := by
  simp [vReduce, h]

/-- A reduction sends its result to every acting lane. -/
theorem vReduce_sends {f : Bool → List (Option W32) → W32 × Flg} {fmt : Nat} {l : List (List W32)} (h : (vSrcs s b r w 1).1 = some l) :
    vReduce fmt f s b r w = vResult (vSrcs s b r w 1).2 b r 8 (some fmt) w
      (actValues (vSrcs s b r w 1).2 w fun _ => f b.ovfInf (vTaking (vSrcs s b r w 1).2 w l))
      (actFlags (vSrcs s b r w 1).2 w fun _ => f b.ovfInf (vTaking (vSrcs s b r w 1).2 w l)) := by
  obtain ⟨v, hv⟩ : ∃ v, v = (vSrcs s b r w 1).2 := ⟨_, rfl⟩
  have hvec : v.vec = s.vec := by rw [hv]; exact (sourceReads_vSrcs s b r w 1).vec_eq
  have hacts (k : Nat) : vActs s w k = vActs v w k := by rw [vActs, vActs, vMaskReg, vMaskReg, hvec]
  have htake : ((natsTo 128).map fun k => if vActs s w k then some (lget (lget l [] 0) 0 k) else none) = vTaking v w l :=
    List.map_congr_left fun k _ => by rw [hacts]; rfl
  simp only [vReduce, h, htake, ← hv]
  congr 1
  · simp [vTaking, actValues, apply_ite]
  · refine (List.map_map).trans (List.map_congr_left fun k _ => ?_)
    by_cases hk : vActs v w k = true <;> simp [hk]

/-- A lane-wise instruction does in every acting lane what its operation gives there. -/
theorem vIssues_vOp {f : Bench → W64 → W32 → W32 → W32 → LaneM W32} {val : State → Bench → W64 → List (List W32) → Nat → W32 × Flg}
    (hx : ∀ s, exec c s = act s (vIssue op (vOp lam fmt n f)))
    (hval : ∀ v b w l k, laneGives v b k (f b w (vIn l 0 k) (vIn l 1 k) (vIn l 2 k)) = val v b w l k) : VIssues c op n lam fmt val := by
  intro s run b r h
  have hsrc := (sourceReads_vSrcs (vTurn s b r) b r (vWord s run) n).engineStep
  refine ⟨fun hl => ?_, fun l hl => ?_⟩
  · exact answers_vIssue _ h (hx s) (vOp_lost hl) hsrc fun _ => rfl
  · obtain ⟨g, hg⟩ := vOp_sends (lam := lam) (fmt := fmt) (f := f) hl fun k => hval _ b (vWord s run) l k
    exact answers_vIssue _ h (hx s) hg (hsrc.trans (EngineStep.trans (t := { (vSrcs _ b r _ n).2 with gen := g }) rfl
      (engineStep_vResult ..))) fun pins => vDone_vResult ..

/-- A reduction does so with its one result. -/
theorem vIssues_vReduce {f : Bool → List (Option W32) → W32 × Flg} {fmt : Nat}
    (hx : ∀ s, exec c s = act s (vIssue op (vReduce fmt f))) :
    VIssues c op 1 8 (some fmt) fun v b w l _ => f b.ovfInf (vTaking v w l) := by
  intro s run b r h
  have hsrc := (sourceReads_vSrcs (vTurn s b r) b r (vWord s run) 1).engineStep
  refine ⟨fun hl => ?_, fun l hl => ?_⟩
  · exact answers_vIssue _ h (hx s) (vReduce_lost hl) hsrc fun _ => rfl
  · exact answers_vIssue _ h (hx s) (vReduce_sends hl) (hsrc.trans (engineStep_vResult ..)) fun pins =>
      vDone_vResult _ run b r _ 8 _ _ (vSrcs (vTurn s b r) b r (vWord s run) 1).2.gen pins

end Sys2Proof.Machine
end

section
/-! PROOFS. The integer and the logic instructions (R57, R101, R182): saturation to int32, and the right shift rounded at bit 0. -/
namespace Sys2Proof.Machine

-- Saturation (R57, R101).

/-- An integer as int32: the nearest one, with SAT where it is another. -/
theorem sat32_eq (i : Int) : sat32 i =
    (BitVec.ofInt 32 (max (-2147483648) (min 2147483647 i)), if i < -2147483648 ∨ 2147483647 < i then fSAT else 0) := by
  have htop : ((2 : Int) ^ (32 - 1) - 1) = 2147483647 := by norm_num
  have hbot : -((2 : Int) ^ (32 - 1)) = -2147483648 := by norm_num
  simp only [sat32, satInt, htop, hbot]
  by_cases hhi : 2147483647 < i
  · simp [hhi, flagIf, show min 2147483647 i = 2147483647 by omega]
  · by_cases hlo : i < -2147483648
    · simp [hhi, hlo, flagIf, show max (-2147483648) (min 2147483647 i) = -2147483648 by omega]
    · simp [hhi, hlo, flagIf, show max (-2147483648) (min 2147483647 i) = i by omega]

-- The right shift (R50, R51, R182).

/-- Whether a magnitude shifted right by n bits is rounded up. -/
def shiftRoundsUp (md : RMode) (q n m : Nat) : Bool :=
  match md with
  | .rz => false
  | .rne => decide (2 ^ n < 2 * (m % 2 ^ n)) || (decide (2 * (m % 2 ^ n) = 2 ^ n) && decide (m / 2 ^ n % 2 = 1) && decide (m % 2 ^ n ≠ 0))
  | .sr => decide (m % 2 ^ n ≠ 0) &&
    decide (65536 ≤ (if 16 < n then m % 2 ^ n / 2 ^ (n - 16) else m % 2 ^ n * 2 ^ (16 - n)) + q)

/-- A magnitude shifted right and rounded. -/
def shiftRounded (md : RMode) (q n m : Nat) : Nat := m / 2 ^ n + b2n (shiftRoundsUp md q n m)

/-- Only a rest is rounded up. -/
theorem rest_of_shiftRoundsUp {md : RMode} {q n m : Nat} (h : shiftRoundsUp md q n m = true) : m % 2 ^ n ≠ 0 := by
  intro h0
  cases md <;> simp [shiftRoundsUp, h0] at h

/-- The rounding of R50 and R51 at bit 0 is that of a shift. -/
theorem roundAt_shift (md : RMode) (q m n : Nat) : (roundAt md q m (-(n : Int)) 0).1 = shiftRounded md q n m := by
  by_cases hr : m % 2 ^ n = 0
  · have hup : shiftRoundsUp md q n m = false := Bool.eq_false_iff.mpr fun h => rest_of_shiftRoundsUp h hr
    rw [shiftRounded, hup]
    rcases Nat.eq_zero_or_pos n with rfl | hn
    · simp [roundAt, b2n]
    · have hn' : ¬ (0 : Int) ≤ -(n : Int) := by omega
      simp [roundAt, hr, b2n, Nat.shiftRight_eq_div_pow, hn.ne']
  · have hn : ¬ (0 : Int) ≤ -(n : Int) := by
      rcases Nat.eq_zero_or_pos n with rfl | hn
      · exact absurd (Nat.mod_one m) hr
      · omega
    have hadd (up : Bool) (h : Nat) : (if up = true then h + 1 else h) = h + b2n up := by cases up <;> rfl
    simp only [roundAt, if_neg hn, Int.zero_sub, Int.neg_neg, Int.toNat_natCast, if_neg hr, Nat.shiftRight_eq_div_pow, Nat.shiftLeft_eq,
      shiftRounded, hadd]
    congr 2
    cases md with
    | rne => simp [shiftRoundsUp, hr, beq_eq_decide]
    | rz => rfl
    | sr => simp [shiftRoundsUp, hr]

/-- A rounded shift does not leave the range of what is shifted. -/
theorem shiftRounded_le (md : RMode) (q n m : Nat) : shiftRounded md q n m ≤ m := by
  unfold shiftRounded
  cases h : shiftRoundsUp md q n m with
  | false => simpa [b2n] using Nat.div_le_self m (2 ^ n)
  | true =>
    have hrest := rest_of_shiftRoundsUp h
    have hdiv := Nat.div_add_mod m (2 ^ n)
    have hle : m / 2 ^ n ≤ 2 ^ n * (m / 2 ^ n) := Nat.le_mul_of_pos_left _ (by positivity)
    simp only [b2n, if_true]
    omega

theorem ofNat_wrapN (i : Int) : BitVec.ofNat 32 (wrapN 32 i) = BitVec.ofInt 32 i := by
  apply BitVec.eq_of_toNat_eq
  simpa [wrapN] using Int.emod_lt_of_pos i (by norm_num : (0 : Int) < 4294967296)

/-- A shifted int32 needs no saturation: it is the rounded magnitude with the sign. -/
theorem intEncode_shift (md : RMode) (q n : Nat) (x : W32) :
    BitVec.ofNat 32 (intEncode 32 md q (.fin (decide (x.toInt < 0)) x.toInt.natAbs (-(n : Int)))).bits =
      BitVec.ofInt 32 (if x.toInt < 0 then -(shiftRounded md q n x.toInt.natAbs : Int) else shiftRounded md q n x.toInt.natAbs) := by
  have hle := shiftRounded_le md q n x.toInt.natAbs
  have hlo := BitVec.le_toInt x
  have hhi := BitVec.toInt_lt (x := x)
  simp only [intEncode, roundAt_shift]
  by_cases hx : x.toInt < 0
  · simp only [hx, decide_true, if_true]
    rw [if_neg (by omega)]
    exact ofNat_wrapN _
  · simp only [hx, decide_false, Bool.false_eq_true, if_false]
    rw [if_neg (by omega)]
    exact (BitVec.ofInt_natCast ..).symm

/-- Settles O53: each instruction is lane-wise, and its lane saturates, rounds the shift, or acts on bits. -/
theorem integerAndLogicInstructions : Obligations.IntegerAndLogicInstructions := by
  have hexact {c : Instr} {op lam : Nat} {f : Int → Int → Int} (hx : ∀ s, exec c s = act s (vIssue op (vInt lam f))) :
      VIssues c op 2 lam (some 1) fun _ _ _ l k =>
        let x := f (vIn l 0 k).toInt (vIn l 1 k).toInt
        (BitVec.ofInt 32 (max (-2147483648) (min 2147483647 x)), if x < -2147483648 ∨ 2147483647 < x then fSAT else 0) :=
    vIssues_vOp hx fun v b w l k => (laneGives_lSat v b k _).trans (sat32_eq _)
  have hbits {c : Instr} {op : Nat} {f : W32 → W32 → W32} (hx : ∀ s, exec c s = act s (vIssue op (vBits f))) :
      VIssues c op 2 2 none fun _ _ _ l k => (f (vIn l 0 k) (vIn l 1 k), 0) :=
    vIssues_vOp hx fun v b w l k => laneGives_pure v b k _
  refine ⟨hexact fun _ => rfl, hexact fun _ => rfl, hexact fun _ => rfl, hexact fun _ => rfl, hexact fun _ => rfl, ?_, ?_,
    hbits fun _ => rfl, hbits fun _ => rfl, hbits fun _ => rfl⟩
  · exact vIssues_vOp (fun _ => rfl) fun v b w l k => (laneGives_lSat v b k _).trans (sat32_eq _)
  · refine vIssues_vOp (fun _ => rfl) fun v b w l k => (laneGives_round v b k _).trans ?_
    exact Prod.ext (intEncode_shift (benchRnd b b.crnd) (vDraw v k) (vF w 0 5) (vIn l 0 k)) rfl

end Sys2Proof.Machine
end

section
/-! PROOFS. The binary32 instructions (R42, R55, R56, R107, R182, R186). -/
namespace Sys2Proof.Machine

/-- Settles O54: each instruction is lane-wise, or a reduction, and its lane makes one rounding, or none. -/
theorem floatInstructions : Obligations.FloatInstructions := by
  have honce {c : Instr} {op : Nat} (f : RMode → Bool → Nat → W32 → W32 → NumR) (hx : ∀ s, exec c s = act s (vIssue op
      (vOp 3 (some 4) 2 fun _ _ x y _ => laneRound fun md oi q => f md oi q x y))) :
      VIssues c op 2 3 (some 4) fun v b _ l k =>
        (f (benchRnd b b.arnd) b.ovfInf (vDraw v k) (vIn l 0 k) (vIn l 1 k)).word :=
    vIssues_vOp hx fun v b _ l k => laneGives_round v b k _
  have hminMax {c : Instr} {op : Nat} {mx : Bool} (hx : ∀ s, exec c s = act s (vIssue op (vMinMax mx))) :
      VIssues c op 2 2 (some 4) fun _ _ _ l k => (minMax32 mx (vIn l 0 k) (vIn l 1 k),
        flagIf ((f32 (vIn l 0 k)).isNan || (f32 (vIn l 1 k)).isNan) fNAN) :=
    vIssues_vOp hx fun v b w l k => laneGives_flag v b k _ _
  have hsign {c : Instr} {op : Nat} (f : W32 → W32) (hx : ∀ s, exec c s = act s (vIssue op (vSign f))) :
      VIssues c op 1 2 (some 4) fun _ _ _ l k =>
        if (f32 (vIn l 0 k)).isNan then (0x7FC00000#32, fNAN) else (f (vIn l 0 k), 0) := by
    refine vIssues_vOp hx fun v b w l k => ?_
    split
    · exact laneGives_flag v b k _ _
    · exact laneGives_pure v b k _
  refine ⟨honce f32Add fun _ => rfl, honce f32Sub fun _ => rfl, honce f32Mul fun _ => rfl,
    vIssues_vOp (fun _ => rfl) fun v b _ _ k => laneGives_round v b k _, hminMax fun _ => rfl, hminMax fun _ => rfl,
    hsign (· &&& 0x7FFFFFFF#32) fun _ => rfl, hsign (· ^^^ 0x80000000#32) fun _ => rfl,
    vIssues_vOp (fun _ => rfl) fun v b _ _ k => laneGives_round v b k _, vIssues_vOp (fun _ => rfl) fun v b _ _ k => laneGives_round v b k _,
    vIssues_vOp (fun _ => rfl) fun v b w _ k => ?_, vIssues_vReduce (f := redMaxF) fun _ => rfl⟩
  refine (laneGives_map v b k _ fun c => widen (vF w 0 4) c.toNat).trans ?_
  rw [laneGives_round, NumR.word, BitVec.toNat_ofNat]

end Sys2Proof.Machine
end

section
/-! PROOFS. Split reads (R121, R429, R432, R433): how the read of a half answers, and what each of them captures. -/
namespace Sys2Proof.Machine

variable {s : State} {p : Port} {off : Nat} {c : Instr}

/-- A performed read whose operation leaves `u` and returns `v`. -/
theorem answers_read {f : State → State} {P : State → Prop} (u : State) (v : W32) (hx : exec c s = act s (access p off f))
    (hp : Performed s p off) (hf : f s = setRdata u p v) (hmb : u.mb = s.mb) (hq : u.pending = s.pending)
    (hv : u.variant = s.variant)
    (hP : ∀ mb pins, mb = ackedMb u p mb.rdata → Reads s { u with mb := mb, pins := pins } p v →
      P { u with mb := mb, pins := pins }) : Answers c s P := by
  have hread : access p off f s = portAck p (setRdata u p v) := (access_performed s p off f hp).trans (congrArg (portAck p) hf)
  refine answers_of_effect _ hx hread hq hv fun pins => hP (portAck p (setRdata u p v)).mb pins rfl fun hlen => ?_
  have hlt : portArg p < u.mb.rdata.length := by
    rw [hmb, hlen]
    cases p <;> decide
  exact (lget_lupd _ _ _ _ _).trans (if_pos ⟨rfl, hlt⟩)

/-- The lower half of a row's metadata, which stores no wrong bit. -/
theorem metaRead_sound (h : mget s.acc.flips 0 (131072 + regF s 0x4414 0 10) = 0) : metaRead s p =
    setRdata { s with acc := { s.acc with hiCap := metaHi (accMeta s (regF s 0x4414 0 10)) } } p (metaLo s) := by
  exact congrArg (fun u : State => setRdata { u with acc := { u.acc with hiCap := metaHi (accMeta u (regF s 0x4414 0 10)) } } p (metaLo u))
    (show accDecode s (regF s 0x4414 0 10) (131072 + regF s 0x4414 0 10) = s from if_pos h)

/-- The entry of the log that was captured is read, where its capture stands. -/
theorem logHiRead_eq : logHiRead s p = setRdata { s with ev := { s.ev with
    log := mupd s.ev.log {} s.ev.hiSel fun e => if s.ev.hiOk = true then { e with unread := false } else e } } p s.ev.hiCap := by
  unfold logHiRead
  cases s.ev.hiOk <;> simp

/-- Settles O15: each read is performed, returns the half it names, and leaves its capture. -/
theorem splitReadsCaptureTheUpperHalf : Obligations.SplitReadsCaptureTheUpperHalf := by
  intro s p c
  refine ⟨fun hp hflips => ?_, fun hp => ?_, fun hp => ?_, fun hc hp hlen => ?_⟩
  · refine answers_read _ (metaLo s) rfl hp (metaRead_sound hflips) rfl rfl rfl fun mb pins hmb hr => ⟨?_, rfl, rfl, hr⟩
    rw [hmb]
    rfl
  · refine answers_read _ _ rfl hp rfl rfl rfl rfl fun mb pins hmb hr => ⟨?_, hr⟩
    rw [hmb]
    rfl
  · refine answers_read _ _ rfl hp logHiRead_eq rfl rfl rfl fun mb pins hmb hr => ⟨?_, hr, ?_, fun n hn => ?_⟩
    · rw [hmb]
      rfl
    · exact (mget_mupd _ _ _ _ _).trans (if_pos rfl)
    · exact (mget_mupd _ _ _ _ _).trans (if_neg hn)
  · have hx : exec (.perfLoRead p c) s = act s (access p (0xE000 + 8 * c) fun s => perfRead s p c) := by
      show act s (guardS (decide (c < 7)) _) = _
      rw [decide_eq_true hc]
      rfl
    refine answers_read _ _ hx hp rfl rfl rfl rfl fun mb pins hmb hr => ⟨?_, hr, ?_, fun d hd => ?_⟩
    · rw [hmb]
      rfl
    · exact (lget_lupd _ _ _ _ _).trans ((if_pos ⟨rfl, by omega⟩).trans (Nat.shiftRight_eq_div_pow _ 32))
    · exact (lget_lupd _ _ _ _ _).trans (if_neg fun h => hd h.1)

end Sys2Proof.Machine
end

section
/-! PROOFS. Chunks that are discarded (R26, R160, R458): what the spoil of a step of the gate pipe, of a scan chunk, and of all that a seam
has in flight, leaves as it was. -/
namespace Sys2Proof.Machine

variable {s t u : State} {uid pos k m : Nat}

/-- State `t` is `s` but for what a discarded chunk may change: the steps and chunks in flight, the writes and rows on their way, the seams,
the benches, and registers. -/
def Discards (s t : State) : Prop :=
  t = { s with gate := t.gate, scan := t.scan, vec := t.vec, seq := t.seq, seams := t.seams, regs := t.regs, cyc := t.cyc
               acc := { s.acc with wq := t.acc.wq } }

theorem Discards.refl (s : State) : Discards s s := rfl

theorem Discards.trans (h : Discards s t) (k : Discards t u) : Discards s u := Eq.trans k (by rw [h])

theorem discards_incReg (s : State) (o lo len : Nat) : Discards s (incReg s o lo len) :=
  (setReg_frame s o _).trans (by rw [incReg, addReg, setRegF, setReg_frame])

theorem discards_chunkMayEnd (s : State) (uid pos k : Nat) : Discards s (chunkMayEnd s uid pos k) :=
  (chunkMayEnd_frame s uid pos k).trans (by rw [chunkMayEnd_frame])

theorem discards_fbUndo (s : State) (uid pos k : Nat) : Discards s (fbUndo s uid pos k) :=
  (fbUndo_frame s uid pos k).trans (by rw [fbUndo_frame])

theorem discards_gateSpoil (s : State) (uid pos k m : Nat) : Discards s (gateSpoil s uid pos k m) := by
  unfold gateSpoil
  extract_lets s₁ _ s₂ s₃ s₄
  have h₁ : Discards s s₁ := discards_fbUndo s uid pos k
  have h₂ : Discards s₁ s₂ := rfl
  have h₃ : Discards s₂ s₃ := rfl
  have h₄ : Discards s₃ s₄ := rfl
  exact ((h₁.trans h₂).trans (h₃.trans h₄)).trans (discards_chunkMayEnd ..)

/-- The chunks in flight without the one of stream k of record `pos` of bench `uid`. -/
def otherChunks (l : List ScanChunk) (uid pos k : Nat) : List ScanChunk := l.filter fun c => !isChunk uid pos k c

/-- The state without the chunk of stream k of record `pos` of bench `uid`, and without its writes. -/
def withoutChunk (s : State) (uid pos k : Nat) : State :=
  { s with scan := { s.scan with chunks := otherChunks s.scan.chunks uid pos k }
           acc := { s.acc with wq := s.acc.wq.filter fun w => !(w.uid == uid && w.pos == pos && w.k == k) } }

/-- A scan chunk discarded: it is gone with its writes, counted, noted in its record, and its seam's writes of the step are gone. -/
theorem scanSpoil_eq (s : State) (uid pos k m : Nat) : scanSpoil s uid pos k m =
    chunkMayEnd (vstDrop (seamSpoil (updRec (incReg (noteSpoil (withoutChunk s uid pos k) uid) 0x4F0C 0 32) uid pos
      fun r => { r with dead := r.dead ++ [k] }) m) uid m) uid pos m := rfl

theorem discards_scanSpoil (s : State) (uid pos k m : Nat) : Discards s (scanSpoil s uid pos k m) := by
  rw [scanSpoil_eq]
  have h₁ : Discards s (noteSpoil (withoutChunk s uid pos k) uid) := rfl
  have h₂ := h₁.trans (discards_incReg _ 0x4F0C 0 32)
  have h₃ (v : State) : Discards v (vstDrop (seamSpoil (updRec v uid pos fun r => { r with dead := r.dead ++ [k] }) m) uid m) := rfl
  exact (h₂.trans (h₃ _)).trans (discards_chunkMayEnd ..)

/-- What a seam has in flight beside its steps and chunks is dropped, and the benches that had dispatched it hold it. -/
def seamDropped (s : State) (k : Nat) : State :=
  let u : State := { s with
    vec := { s.vec with commits := s.vec.commits.filter (·.seam != k), vsts := s.vec.vsts.filter fun v => !v.seams.contains k }
    acc := { s.acc with wq := s.acc.wq.filter fun w => w.kind != .seam k } }
  eachS u.seq.benches (fun b s => updBench s b.uid fun b =>
    if b.disp.contains k then { b with disp := b.disp.filter (· != k), held := b.held ++ [k] } else b) u

/-- The steps of a seam in the gate pipe become spoil. -/
def stepsSpoilt (s : State) (k : Nat) : State :=
  eachS (s.gate.steps.filter (·.seam == k)) (fun t s => gateSpoil s t.uid t.pos t.k t.seam) s

/-- The scan chunks of a seam become spoil. -/
def chunksSpoilt (s : State) (k : Nat) : State :=
  eachS (s.scan.chunks.filter (·.seam == k)) (fun t s => scanSpoil s t.uid t.pos t.k t.seam) s

theorem closeSpoil_eq (s : State) (k : Nat) : closeSpoil s k = seamDropped (chunksSpoilt (stepsSpoilt s k) k) k := rfl

theorem seamDropped_frame (s : State) (k : Nat) : seamDropped s k = { s with
    vec := (seamDropped s k).vec, seq := (seamDropped s k).seq, acc := { s.acc with wq := (seamDropped s k).acc.wq } } := by
  refine eachS_keeps (P := fun t : State => t = { s with vec := t.vec, seq := t.seq, acc := { s.acc with wq := t.acc.wq } })
    (fun b t ht => ?_) _ rfl
  rw [ht]
  rfl

theorem discards_closeSpoil (s : State) (k : Nat) : Discards s (closeSpoil s k) := by
  rw [closeSpoil_eq]
  have h₁ : Discards s (stepsSpoilt s k) :=
    eachS_keeps (P := Discards s) (fun t u hu => hu.trans (discards_gateSpoil u t.uid t.pos t.k t.seam)) _ (.refl s)
  have h₂ : Discards (stepsSpoilt s k) (chunksSpoilt (stepsSpoilt s k) k) :=
    eachS_keeps (P := Discards _) (fun t u hu => hu.trans (discards_scanSpoil u t.uid t.pos t.k t.seam)) _ (.refl _)
  exact (h₁.trans h₂).trans ((seamDropped_frame _ k).trans (by rw [seamDropped_frame]))

/-- Where a seam has no step and no chunk in flight, nothing of it is spoil. -/
theorem closeSpoil_idle (hg : ∀ e ∈ s.gate.steps, e.seam ≠ k) (hs : ∀ e ∈ s.scan.chunks, e.seam ≠ k) :
    closeSpoil s k = seamDropped s k := by
  have h₁ : s.gate.steps.filter (·.seam == k) = [] := by simpa using hg
  have h₂ : s.scan.chunks.filter (·.seam == k) = [] := by simpa using hs
  have hsteps : stepsSpoilt s k = s := by rw [stepsSpoilt, h₁]; rfl
  have hchunks : chunksSpoilt s k = s := by rw [chunksSpoilt, h₂]; rfl
  rw [closeSpoil_eq, hsteps, hchunks]

end Sys2Proof.Machine
end

section
/-! PROOFS. The commands of a seam (R114, R116, R119): EVICT, RELOAD and ACCEPT by their checks and what they leave, and CLOSE with what it
discards, whom it answers, and whom it passes the rows to. -/
namespace Sys2Proof.Machine

variable {s t u : State} {o : Origin} {w : CmdWords} {m op k d : Nat} {c : Instr} {body : State → Cli → CmdWords → State}
  {l : List (Bool × Nat)} {f : State → State}

-- Commands that complete at once.

/-- A command that none of its own checks refuses, and that completes with OK once it has left `v`. -/
theorem answers_completes {P : State → Prop} (v : State) (hw : Waits s o m w op) (hx : exec c s = act s (acceptIn op body o w))
    (hb : body (mboxTake s m) { o := o } w = firstFail l (mboxTake s m) { o := o } f) (hl : ∀ e ∈ l, e.1 = false)
    (hf : f (mboxTake s m) = complete v { o := o } 0 0) (hq : v.pending = s.pending) (hv : v.variant = s.variant)
    (hregs : v.regs = s.regs)
    (hP : ∀ mb regs cyc pins, let t : State := { v with mb := mb, regs := regs, cyc := cyc, pins := pins }
      RegsKept s t (mbRegs m) → MbDone t m 0 → P t) : Answers c s P := by
  have hdone : acceptIn op body o w s = mboxDone v m 0 0 := by
    rw [acceptIn_waits hw, hb, firstFail_none _ _ _ _ hl, hf]
    exact complete_mbox _ _ m _ _ hw.1
  refine answers_mboxDone v 0 hx hdone hq hv (mboxOf_lt hw.1) (by decide) hregs fun t hfr hd hk => ?_
  have ht := hP t.mb t.regs t.cyc t.pins
  rw [← hfr] at ht
  exact ht hk hd

/-- The same refusals end each of these commands: BAD_ARG for its words or an unbound seam, else BUSY. -/
theorem answers_seamRefused {busy : Prop} [Decidable busy] {n : Nat} (hw : Waits s o m w op)
    (hx : exec c s = act s (acceptIn op body o w))
    (hb : body (mboxTake s m) { o := o } w = firstFail [(seamArgBad s w, 2), (decide busy, 1)] (mboxTake s m) { o := o } f)
    (h : seamArgBad s w = true ∧ n = 2 ∨ seamArgBad s w = false ∧ busy ∧ n = 1) :
    Answers c s fun t => t = { s with mb := t.mb, regs := t.regs, cyc := t.cyc, pins := t.pins } ∧ RegsKept s t (mbRegs m) ∧
      MbDone t m n := by
  refine (answers_refused hw hx hb ?_ (by simp)).imp ?_
  · rcases h with ⟨h, -⟩ | ⟨-, h, -⟩ <;> simp [h]
  · rintro t ⟨he, hfr, hk, hd⟩
    refine ⟨he, hfr, hk, hd n ?_⟩
    rcases h with ⟨h, rfl⟩ | ⟨h, hbusy, rfl⟩ <;> simp [*]

/-- What a command does where no check fails is looked at in the state that it finds. -/
theorem firstFail_congr {c : Cli} {f g : State → State} (h : f s = g s) : firstFail l s c f = firstFail l s c g := by
  unfold firstFail
  rw [h]

-- EVICT.

/-- A seam whose eviction is asked for (R116). -/
def evictAsked (s : State) (k : Nat) : State :=
  if (seam s k).st = 4 then startEvict s k else if (seam s k).st = 5 then updSeam s k fun m => { m with st := 6 } else s

theorem evictAsked_frame (s : State) (k : Nat) :
    evictAsked s k = { s with seams := (evictAsked s k).seams, acc := { s.acc with xfers := (evictAsked s k).acc.xfers } } := by
  unfold evictAsked
  split
  · rfl
  · split <;> rfl

theorem seam_evictAsked (s : State) (k : Nat) : seam (evictAsked s k) k =
    { seam s k with st := if (seam s k).st = 4 then 7 else if (seam s k).st = 5 then 6 else (seam s k).st } := by
  unfold evictAsked
  split
  · simp [startEvict]
  · split <;> simp

theorem seam_evictAsked_of_ne (h : d ≠ k) (s : State) : seam (evictAsked s k) d = seam s d := by
  unfold evictAsked
  split
  · simp [startEvict, h]
  · split <;> simp [h]

theorem xfers_evictAsked (s : State) (k : Nat) : (evictAsked s k).acc.xfers =
    s.acc.xfers ++ (if (seam s k).st = 4 then [{ seam := k, reload := false }] else []) := by
  unfold evictAsked
  split
  · rfl
  · split <;> simp

theorem evictBody_eq (s : State) (c : Cli) (w : CmdWords) : evictBody s c w =
    let k := fieldN w.w0 0 8
    firstFail [(seamArgBad s w, 2), (decide ((seam s k).st = 2 ∨ (seam s k).st = 3 ∨ unitHeld s 1 = true), 1)] s c fun s =>
      complete (evictAsked s k) c 0 0 := by
  simp only [Bool.decide_or, ← beq_eq_decide, beq_true, ← Bool.or_assoc]
  unfold evictBody
  exact firstFail_congr rfl

-- RELOAD.

/-- A seam whose reload is asked for from HOME, or that is reloaded in place because it is poisoned or stale (R116). -/
def reloadAsked (s : State) (k : Nat) : State :=
  if (seam s k).st = 1 then triggerReload s k
  else if (seam s k).st = 4 && (seamPoisoned s k || (seam s k).stale) then startReload s k else s

theorem triggerReload_frame (s : State) (k : Nat) : triggerReload s k = { s with seams := (triggerReload s k).seams, acc := { s.acc with
    xfers := (triggerReload s k).acc.xfers, trigCount := (triggerReload s k).acc.trigCount } } := by
  unfold triggerReload
  split
  · rfl
  · split
    · dsimp only
      split
      · rfl
      · split <;> rfl
    · rfl

theorem reloadAsked_frame (s : State) (k : Nat) : reloadAsked s k = { s with seams := (reloadAsked s k).seams, acc := { s.acc with
    xfers := (reloadAsked s k).acc.xfers, trigCount := (reloadAsked s k).acc.trigCount } } := by
  unfold reloadAsked
  split
  · exact triggerReload_frame s k
  · split <;> rfl

theorem reloadBody_eq (s : State) (c : Cli) (w : CmdWords) : reloadBody s c w =
    let k := fieldN w.w0 0 8
    firstFail [(seamArgBad s w, 2),
      (decide ((seam s k).st = 2 ∨ (seam s k).st = 3 ∨ (seam s k).st = 7 ∨ unitHeld s 1 = true), 1)] s c fun s =>
      complete (reloadAsked s k) c 0 0 := by
  simp only [Bool.decide_or, ← beq_eq_decide, beq_true, ← Bool.or_assoc]
  unfold reloadBody
  exact firstFail_congr rfl

theorem seam_startReload (s : State) (k d : Nat) :
    seam (startReload s k) d = if d = k then { seam s k with st := 3, flip := 0 } else seam s d :=
  seam_updSeam s k d fun m => { m with st := 3, flip := 0 }

theorem xfers_startReload (s : State) (k : Nat) : (startReload s k).acc.xfers = s.acc.xfers ++ [{ seam := k, reload := true }] := rfl

/-- From HOME a seam whose rows no other holds is RELOADING. -/
theorem reloadAsked_home (h : (seam s k).st = 1) (hr : rowHolder s k = none) : reloadAsked s k = startReload s k := by
  simp [reloadAsked, triggerReload, h, hr]

/-- A seam that keeps its rows, poisoned or stale, is RELOADING in place. -/
theorem reloadAsked_inPlace (h : (seam s k).st = 4) (hb : seamPoisoned s k = true ∨ (seam s k).stale = true) :
    reloadAsked s k = startReload s k := by
  have hb' : (seamPoisoned s k || (seam s k).stale) = true := by simpa using hb
  simp [reloadAsked, h, hb']

theorem reloadAsked_same (h : (seam s k).st = 5 ∨ (seam s k).st = 6 ∨
    (seam s k).st = 4 ∧ seamPoisoned s k = false ∧ (seam s k).stale = false) : reloadAsked s k = s := by
  rcases h with h | h | ⟨h, hp, hst⟩ <;> simp [reloadAsked, *]

theorem ne_of_rowHolder {h : Nat} {y : Seam} (hr : rowHolder s k = some (h, y)) : h ≠ k := by
  have := List.find?_some hr
  simp only [Bool.and_eq_true, bne_iff_ne] at this
  exact this.1.1

/-- From HOME a seam whose rows another holds waits, and the other's eviction is asked for. -/
theorem reloadAsked_held {h : Nat} {y : Seam} (hst : (seam s k).st = 1) (hr : rowHolder s k = some (h, y)) (hy : y = seam s h) :
    reloadAsked s k = waitReload (evictAsked s h) k := by
  simp only [reloadAsked, triggerReload, hst, hr, hy, evictAsked]
  rfl

theorem seam_waitReload (s : State) (k d : Nat) : seam (waitReload s k) d =
    if d = k then { seam s k with st := 2, trig := s.acc.trigCount + 1 } else seam s d :=
  seam_updSeam { s with acc := { s.acc with trigCount := s.acc.trigCount + 1 } } k d
    fun m => { m with st := 2, trig := s.acc.trigCount + 1 }

/-- What a RELOAD leaves, by the state that it finds the seam in. -/
theorem reloadAsked_leaves (s : State) (k : Nat) :
    let t := reloadAsked s k
    ((seam s k).st = 1 → rowHolder s k = none → (seam t k).st = 3 ∧ t.acc.xfers = s.acc.xfers ++ [{ seam := k, reload := true }] ∧
      ∀ d, d ≠ k → seam t d = seam s d) ∧
    (∀ h y, (seam s k).st = 1 → rowHolder s k = some (h, y) → y = seam s h → (seam t k).st = 2 ∧
      (y.st = 4 → (seam t h).st = 7 ∧ t.acc.xfers = s.acc.xfers ++ [{ seam := h, reload := false }]) ∧
      (y.st = 5 → (seam t h).st = 6) ∧ ∀ d, d ≠ k → d ≠ h → seam t d = seam s d) ∧
    ((seam s k).st = 4 → (seamPoisoned s k = true ∨ (seam s k).stale = true) → seam t k = { seam s k with st := 3, flip := 0 } ∧
      t.acc.xfers = s.acc.xfers ++ [{ seam := k, reload := true }] ∧ ∀ d, d ≠ k → seam t d = seam s d) ∧
    ((seam s k).st = 5 ∨ (seam s k).st = 6 ∨ ((seam s k).st = 4 ∧ seamPoisoned s k = false ∧ (seam s k).stale = false) →
      t.acc = s.acc ∧ ∀ d, seam t d = seam s d) := by
  refine ⟨fun hst hr => ?_, fun h y hst hr hy => ?_, fun hst hb => ?_, fun hst => ?_⟩
  · rw [reloadAsked_home hst hr]
    exact ⟨by simp [seam_startReload], xfers_startReload s k, fun d hd => by simp [seam_startReload, hd]⟩
  · have hne := ne_of_rowHolder hr
    rw [reloadAsked_held hst hr hy]
    refine ⟨by simp [seam_waitReload], fun h4 => ⟨?_, ?_⟩, fun h5 => ?_, fun d hd hdh => ?_⟩
    · simp [seam_waitReload, hne, seam_evictAsked, ← hy, h4]
    · exact (xfers_evictAsked s h).trans (by rw [← hy, if_pos h4])
    · simp [seam_waitReload, hne, seam_evictAsked, ← hy, h5]
    · simp [seam_waitReload, hd, seam_evictAsked_of_ne hdh]
  · rw [reloadAsked_inPlace hst hb]
    exact ⟨by simp [seam_startReload], xfers_startReload s k, fun d hd => by simp [seam_startReload, hd]⟩
  · rw [reloadAsked_same hst]
    exact ⟨rfl, fun _ => rfl⟩

-- ACCEPT.

theorem acceptBody_eq (s : State) (c : Cli) (w : CmdWords) : acceptBody s c w =
    firstFail [(seamArgBad s w, 2), (decide (unitHeld s 1 = true), 1)] s c fun s =>
      complete (updSeam s (fieldN w.w0 0 8) fun m => { m with stale := false }) c 0 0 := by
  simp only [Bool.decide_eq_true]
  rfl

-- CLOSE.

/-- A CLOSE that no commit window holds up takes effect; in one it waits. -/
def closeAsked (s : State) (k : Nat) (c : Cli) : State :=
  match seamWindow s k with
  | some x => updSeam s k fun m => { m with closePend := some c, closeAt := x + 1 }
  | none => closeNow s k c

theorem closeBody_eq (s : State) (c : Cli) (w : CmdWords) : closeBody s c w =
    let k := fieldN w.w0 0 8
    firstFail [(seamArgBad s w, 2), (decide (unitHeld s 1 = true ∨ (seam s k).closePend.isSome = true), 1)] s c
      (closeAsked · k c) := by
  simp only [Bool.decide_or, Bool.decide_eq_true, Bool.or_comm]
  rfl

-- What a CLOSE changes.

/-- State `t` is `s` but for what a CLOSE of a seam may change: what its discarded chunks do, the transfers that are queued, and who is
answered. -/
def Closes (s t : State) : Prop :=
  t = { s with gate := t.gate, scan := t.scan, vec := t.vec, seq := t.seq, seams := t.seams, regs := t.regs, cyc := t.cyc, mb := t.mb
               boot := t.boot, fab := t.fab, acc := { s.acc with wq := t.acc.wq, xfers := t.acc.xfers } }

theorem Closes.trans (h : Closes s t) (k : Closes t u) : Closes s u := Eq.trans k (by rw [h])

theorem Discards.closes (h : Discards s t) : Closes s t := Eq.trans h (by rw [h])

theorem fabOnly_oweCredit (s : State) (n vc k : Nat) : oweCredit s n vc k = { s with fab := (oweCredit s n vc k).fab } := by
  unfold oweCredit
  split <;> rfl

/-- A response leaves the tile by the fabric, and changes nothing else. -/
theorem fabOnly_respond (s : State) (h : Head) (b : List Sector) : respond s h b = { s with fab := (respond s h b).fab } := by
  unfold respond forward
  dsimp only
  split
  · rw [fabOnly_oweCredit]
  · split
    · rfl
    · rw [fabOnly_oweCredit]

/-- A completion that no mailbox awaits leaves registers and mailboxes' states. -/
theorem complete_noMbox {c : Cli} (h : mboxOf c.o = none) (st res : Nat) : complete s c st res =
    { s with mb := { s.mb with peerBusy := (complete s c st res).mb.peerBusy }, fab := (complete s c st res).fab
             boot := (complete s c st res).boot } := by
  unfold complete
  rw [h]
  dsimp only
  split
  · split
    · rfl
    · rw [fabOnly_respond]
  · split <;> rfl

/-- A completion changes registers, mailboxes, and whom else it answers. -/
theorem complete_frame (s : State) (c : Cli) (st res : Nat) : complete s c st res =
    { s with regs := (complete s c st res).regs, mb := (complete s c st res).mb, cyc := (complete s c st res).cyc
             fab := (complete s c st res).fab, boot := (complete s c st res).boot } := by
  cases h : mboxOf c.o with
  | none => exact (complete_noMbox h st res).trans (by rw [complete_noMbox h])
  | some n =>
    rw [complete_mbox _ _ n _ _ h]
    exact (mboxDone_frame s n st res).trans (by rw [mboxDone_frame])

@[simp] theorem complete_acc (s : State) (c : Cli) (st res : Nat) : (complete s c st res).acc = s.acc := by rw [complete_frame]

@[simp] theorem seam_complete (s : State) (c : Cli) (st res d : Nat) : seam (complete s c st res) d = seam s d := by
  rw [complete_frame]
  rfl

theorem closes_complete (s : State) (c : Cli) (st res : Nat) : Closes s (complete s c st res) :=
  (complete_frame s c st res).trans (by rw [complete_frame])

/-- A completion that another mailbox awaits, or none, leaves this one as it was. -/
theorem complete_otherMbox {c : Cli} (h : mboxOf c.o ≠ some m) (st res : Nat) :
    reg (complete s c st res) (mboxBase m + 0x14) = reg s (mboxBase m + 0x14) ∧
    lget (complete s c st res).mb.st 0 m = lget s.mb.st 0 m := by
  cases hc : mboxOf c.o with
  | none =>
    rw [complete_noMbox hc]
    exact ⟨rfl, rfl⟩
  | some n =>
    have hne : m ≠ n := by
      rintro rfl
      exact h hc
    have hst : (mboxDone s n st res).mb.st = lupd s.mb.st n fun _ => 0 := by simp [mboxDone]
    have hreg : mboxBase m + 0x14 ∉ mbRegs n := by
      simp [mbRegs, mboxBase]
      omega
    rw [complete_mbox _ _ n _ _ hc, hst, lget_lupd, if_neg fun e => hne e.1]
    exact ⟨mboxDone_regs s n st res _ hreg, rfl⟩

/-- What of seam k waits for a boundary is answered with BUSY (R119). -/
def pendAnswered (s : State) (k : Nat) : State :=
  match (seam s k).pend with
  | some p => complete (updSeam s k fun m => { m with pend := none }) p.cli 1 0
  | none => s

theorem closes_pendAnswered (s : State) (k : Nat) : Closes s (pendAnswered s k) := by
  unfold pendAnswered
  split
  · exact (show Closes s (updSeam s k _) from rfl).trans (closes_complete ..)
  · rfl

theorem seam_pendAnswered (s : State) (k d : Nat) :
    seam (pendAnswered s k) d = if d = k then { seam s k with pend := none } else seam s d := by
  unfold pendAnswered
  split
  · simp
  next h =>
    have hself : seam s k = { seam s k with pend := none } := by rw [← h]
    rw [← hself]
    split
    next hd => rw [hd]
    next => rfl

@[simp] theorem pendAnswered_acc (s : State) (k : Nat) : (pendAnswered s k).acc = s.acc := by
  unfold pendAnswered
  split <;> simp

/-- Where another mailbox awaits that answer, or none, this one stays as it was. -/
theorem pendAnswered_otherMbox (h : ∀ p, (seam s k).pend = some p → mboxOf p.cli.o ≠ some m) :
    reg (pendAnswered s k) (mboxBase m + 0x14) = reg s (mboxBase m + 0x14) ∧
    lget (pendAnswered s k).mb.st 0 m = lget s.mb.st 0 m := by
  unfold pendAnswered
  split
  next p hp => exact complete_otherMbox (h p hp) 1 0
  next => exact ⟨rfl, rfl⟩

/-- The mailbox that awaits that answer shows BUSY. -/
theorem pendAnswered_mbDone {p : SeamPend} (hp : (seam s k).pend = some p) (hm : mboxOf p.cli.o = some m) {t : State}
    (hr : t.regs = (pendAnswered s k).regs) (hb : t.mb = (pendAnswered s k).mb) : MbDone t m 1 := by
  have he : pendAnswered s k = mboxDone (updSeam s k fun m => { m with pend := none }) m 1 0 := by
    rw [pendAnswered, hp]
    exact complete_mbox _ _ m _ _ hm
  rw [he] at hr hb
  exact mbDone_mboxDone (mboxOf_lt hm) 1 0 (by decide) hr hb

-- Whom the rows go to.

/-- A key that is written holds what was written there alone. -/
theorem mem_mset {α : Type} [DecidableEq α] {m : SMap α} {dflt v : α} {e : Nat × α} (he : e ∈ mset m dflt k v) (hk : e.1 = k) :
    e.2 = v := by
  have hdel : ∀ x ∈ mdel m k, x.1 ≠ k := mdel_ne m k
  unfold mset at he
  split at he
  · exact absurd hk (hdel e he)
  · generalize mdel m k = n at he hdel
    induction n with
    | nil =>
      rw [mins, List.mem_singleton] at he
      rw [he]
    | cons x r ih =>
      unfold mins at he
      grind

theorem mem_updSeam {f : Seam → Seam} {e : Nat × Seam} (he : e ∈ (updSeam s k f).seams) (hk : e.1 = k) : e.2 = f (seam s k) :=
  mem_mset (m := s.seams) (dflt := {}) he hk

/-- State `t` is `s` but for seams other than k, and transfers queued for them. -/
structure PassesRows (s t : State) (k : Nat) : Prop where
  frame : t = { s with seams := t.seams, acc := { s.acc with xfers := t.acc.xfers } }
  queued : ∀ e ∈ t.acc.xfers, e ∈ s.acc.xfers ∨ e.seam ≠ k

theorem PassesRows.trans (h : PassesRows s t k) (h' : PassesRows t u k) : PassesRows s u k where
  frame := h'.frame.trans (by rw [h.frame])
  queued e he := (h'.queued e he).elim (h.queued e) .inr

theorem passesRows_each (g : Nat) (l : List (Nat × Seam)) (hl : ∀ e ∈ l, e.1 ≠ k) : PassesRows s
    (eachS l (fun e s => if e.1 = g then startReload s e.1 else updSeam s e.1 fun m => { m with st := 1 }) s) k := by
  induction l generalizing s with
  | nil => exact ⟨rfl, fun _ => .inl⟩
  | cons e l ih =>
    have hone : PassesRows s (if e.1 = g then startReload s e.1 else updSeam s e.1 fun m => { m with st := 1 }) k := by
      split
      · refine ⟨rfl, fun y hy => (List.mem_append.mp hy).imp_right fun h => ?_⟩
        rw [List.mem_singleton.mp h]
        exact hl e (by simp)
      · exact ⟨rfl, fun _ => .inl⟩
    exact hone.trans (ih fun y hy => hl y (by simp [hy]))

/-- A seam that has left RELOAD_WAIT gets nothing of its rows. -/
theorem passesRows_passRows (hk : ∀ e ∈ s.seams, e.1 = k → e.2.st ≠ 2) : PassesRows s (passRows s k) k := by
  unfold passRows
  extract_lets x w
  have hw : ∀ e ∈ w, e.1 ≠ k := by
    intro e he hek
    have hst := (List.mem_filter.mp he).2
    simp only [Bool.and_eq_true, beq_iff_eq] at hst
    exact hk e (List.mem_filter.mp he).1 hek hst.1.1
  clear_value w
  split
  · exact ⟨rfl, fun _ => .inl⟩
  · exact passesRows_each _ _ hw

/-- The transfers queued for seam k are dropped, and its rows go to the seams that wait for them. -/
def rowsPassed (s : State) (k : Nat) : State :=
  let u : State := { s with acc := { s.acc with xfers := s.acc.xfers.filter (·.seam != k) } }
  if holdsRows (seam s k) || s.acc.xfers.any (·.seam == k) then passRows (updSeam u k fun m => { m with st := 1 }) k else u

theorem passesRows_rowsPassed (s : State) (k : Nat) :
    PassesRows { s with acc := { s.acc with xfers := s.acc.xfers.filter (·.seam != k) } } (rowsPassed s k) k := by
  unfold rowsPassed
  dsimp only
  split
  · have hu (u : State) : PassesRows u (updSeam u k fun m => { m with st := 1 }) k := ⟨rfl, fun _ => .inl⟩
    refine (hu _).trans (passesRows_passRows fun e he hek => ?_)
    rw [mem_updSeam he hek]
    exact (by decide : (1 : Nat) ≠ 2)
  · exact ⟨rfl, fun _ => .inl⟩

theorem closeNow_eq (s : State) (k : Nat) (c : Cli) : closeNow s k c =
    let u := pendAnswered (closeSpoil s k) k
    if u.acc.xfers.any fun x => x.seam == k && x.started then
      updSeam u k fun m => { m with closing := true, closePend := some c }
    else complete (seamUnbind (rowsPassed u k) k) c 0 0 := rfl

/-- A CLOSE with a started transfer, of a seam with nothing else in flight, waits for the transfer's last response. -/
theorem closeNow_waits (hx : ∃ e ∈ s.acc.xfers, e.seam = k ∧ e.started = true) (hg : ∀ e ∈ s.gate.steps, e.seam ≠ k)
    (hs : ∀ e ∈ s.scan.chunks, e.seam ≠ k) (c : Cli) : closeNow s k c =
      updSeam (pendAnswered (seamDropped s k) k) k fun m => { m with closing := true, closePend := some c } := by
  have hacc : (seamDropped s k).acc.xfers = s.acc.xfers := by rw [seamDropped_frame]
  rw [closeNow_eq, closeSpoil_idle hg hs]
  dsimp only
  rw [if_pos]
  simpa [hacc] using hx

/-- A CLOSE without one unbinds the seam. -/
theorem closeNow_unbinds (hx : ∀ e ∈ s.acc.xfers, ¬ (e.seam = k ∧ e.started = true)) (c : Cli) :
    ∃ v, closeNow s k c = complete v c 0 0 ∧ Closes s v ∧ seam v k = {} ∧ ∀ e ∈ v.acc.xfers, e.seam ≠ k := by
  obtain ⟨u, hu⟩ : ∃ u, u = pendAnswered (closeSpoil s k) k := ⟨_, rfl⟩
  have hcl : Closes s u := hu ▸ (discards_closeSpoil s k).closes.trans (closes_pendAnswered ..)
  have hacc : u.acc.xfers = s.acc.xfers := by
    rw [hu, pendAnswered_acc, discards_closeSpoil s k]
  have hp := passesRows_rowsPassed u k
  have hrows : Closes u (rowsPassed u k) := hp.frame.trans (by rw [hp.frame])
  refine ⟨seamUnbind (rowsPassed u k) k, ?_, (hcl.trans hrows).trans rfl, ?_, fun e he => ?_⟩
  · rw [closeNow_eq, ← hu]
    dsimp only
    rw [if_neg]
    simpa [hacc] using hx
  · simp [seam, seamUnbind]
  · refine (hp.queued e he).elim (fun h => ?_) id
    simpa using (List.mem_filter.mp h).2

-- The statement.


/-- A CLOSE that none of its checks refuses, and that leaves `u` with its mailbox taken. -/
theorem answers_closeAsked {P : State → Prop} (u : State) (hw : Waits s o m w 0x15) (hbad : seamArgBad s w = false)
    (hu : unitHeld s 1 = false) (hp : (seam s (fieldN w.w0 0 8)).closePend = none)
    (hf : closeAsked (mboxTake s m) (fieldN w.w0 0 8) { o := o } = u) (hq : u.pending = s.pending) (hv : u.variant = s.variant)
    (hP : ∀ pins, P { u with pins := pins }) : Answers (.seamClose o w) s P := by
  have hb : closeBody (mboxTake s m) { o := o } w = firstFail [(seamArgBad s w, 2),
      (decide (unitHeld s 1 = true ∨ (seam s (fieldN w.w0 0 8)).closePend.isSome = true), 1)] (mboxTake s m) { o := o } _ :=
    closeBody_eq _ _ _
  exact answers_waiting u hw rfl hb (by simp [hbad, hu, hp]) hf hq hv hP

/-- A CLOSE in the commit window of a step waits until the commit is made (R113). -/
theorem seamClose_inWindow {n : Nat} (hw : Waits s o m w 0x15) (hbad : seamArgBad s w = false) (hu : unitHeld s 1 = false)
    (hp : (seam s (fieldN w.w0 0 8)).closePend = none) (hn : seamWindow s (fieldN w.w0 0 8) = some n) :
    let k := fieldN w.w0 0 8
    Answers (.seamClose o w) s fun t => t = { s with seams := t.seams, mb := t.mb, pins := t.pins } ∧ MbBusy s t m ∧
      seam t k = { seam s k with closePend := some { o := o }, closeAt := n + 1 } ∧ ∀ d, d ≠ k → seam t d = seam s d := by
  intro k
  let u := updSeam (mboxTake s m) k fun m => { m with closePend := some { o := o }, closeAt := n + 1 }
  have hself : seam u k = { seam s k with closePend := some { o := o }, closeAt := n + 1 } :=
    (seam_updSeam _ k k _).trans (if_pos rfl)
  have hother (d : Nat) (hd : d ≠ k) : seam u d = seam s d := (seam_updSeam _ k d _).trans (if_neg hd)
  have hf : closeAsked (mboxTake s m) k { o := o } = u := by rw [closeAsked, show seamWindow (mboxTake s m) k = some n from hn]
  exact answers_closeAsked u hw hbad hu hp hf rfl rfl fun pins => ⟨rfl, mbBusy_of_mboxTake rfl rfl, hself, hother⟩

/-- A CLOSE with a started transfer, of a seam with no step and no chunk in flight, waits for the transfer's last response. -/
theorem seamClose_transfer (hw : Waits s o m w 0x15) (hbad : seamArgBad s w = false) (hu : unitHeld s 1 = false)
    (hp : (seam s (fieldN w.w0 0 8)).closePend = none) (hwin : seamWindow s (fieldN w.w0 0 8) = none)
    (hx : ∃ e ∈ s.acc.xfers, e.seam = fieldN w.w0 0 8 ∧ e.started = true) (hg : ∀ e ∈ s.gate.steps, e.seam ≠ fieldN w.w0 0 8)
    (hs : ∀ e ∈ s.scan.chunks, e.seam ≠ fieldN w.w0 0 8)
    (hn : ∀ p, (seam s (fieldN w.w0 0 8)).pend = some p → mboxOf p.cli.o ≠ some m) :
    let k := fieldN w.w0 0 8
    Answers (.seamClose o w) s fun t => MbBusy s t m ∧
      seam t k = { seam s k with pend := none, closing := true, closePend := some { o := o } } ∧
      (∀ d, d ≠ k → seam t d = seam s d) ∧ t.acc.xfers = s.acc.xfers ∧ t.acc.data = s.acc.data ∧ t.acc.md = s.acc.md ∧
      ∀ p n, (seam s k).pend = some p → mboxOf p.cli.o = some n → MbDone t n 1 := by
  intro k
  obtain ⟨v, hv⟩ : ∃ v, v = seamDropped (mboxTake s m) k := ⟨_, rfl⟩
  have hfr : v = { mboxTake s m with vec := v.vec, seq := v.seq, acc := { s.acc with wq := v.acc.wq } } :=
    hv ▸ seamDropped_frame (mboxTake s m) k
  have hseam (d : Nat) : seam v d = seam s d := by rw [hfr]; rfl
  have hpa := closes_pendAnswered v k
  have hacc := pendAnswered_acc v k
  let g (m : Seam) : Seam := { m with closing := true, closePend := some { o := o } }
  have hf : closeAsked (mboxTake s m) k { o := o } = updSeam (pendAnswered v k) k g := by
    rw [closeAsked, show seamWindow (mboxTake s m) k = none from hwin, hv]
    exact closeNow_waits (s := mboxTake s m) hx hg hs _
  obtain ⟨hreg, hst⟩ := pendAnswered_otherMbox (s := v) (k := k) (m := m) (by rw [hseam]; exact hn)
  refine answers_closeAsked _ hw hbad hu hp hf (by rw [updSeam_pending, hpa, hfr]; rfl) (by rw [updSeam_variant, hpa, hfr]; rfl)
    fun pins => ⟨⟨?_, fun hlen => ?_⟩, ?_, fun d hd => ?_, ?_, ?_, ?_, fun p n hp' hn' => ?_⟩
  · exact hreg.trans (by rw [hfr]; rfl)
  · refine hst.trans ?_
    rw [hfr]
    exact (lget_lupd _ _ _ _ _).trans (if_pos ⟨rfl, hlen⟩)
  · refine (seam_updSeam (pendAnswered v k) k k g).trans ?_
    rw [if_pos rfl, seam_pendAnswered, if_pos rfl, hseam]
  · refine (seam_updSeam (pendAnswered v k) k d g).trans ?_
    rw [if_neg hd, seam_pendAnswered, if_neg hd, hseam]
  · exact (congrArg Acc.xfers hacc).trans (by rw [hfr])
  · exact (congrArg Acc.data hacc).trans (by rw [hfr])
  · exact (congrArg Acc.md hacc).trans (by rw [hfr])
  · exact pendAnswered_mbDone (s := v) (k := k) (by rw [hseam]; exact hp') hn' rfl rfl

/-- A CLOSE without a started transfer unbinds the seam at once. -/
theorem seamClose_unbinds (hw : Waits s o m w 0x15) (hbad : seamArgBad s w = false) (hu : unitHeld s 1 = false)
    (hp : (seam s (fieldN w.w0 0 8)).closePend = none) (hwin : seamWindow s (fieldN w.w0 0 8) = none)
    (hx : ∀ e ∈ s.acc.xfers, ¬ (e.seam = fieldN w.w0 0 8 ∧ e.started = true)) :
    let k := fieldN w.w0 0 8
    Answers (.seamClose o w) s fun t => MbDone t m 0 ∧ seam t k = {} ∧ (∀ e ∈ t.acc.xfers, e.seam ≠ k) ∧
      t.acc.data = s.acc.data ∧ t.acc.md = s.acc.md ∧ t.spad = s.spad ∧ t.rings = s.rings ∧ t.arr = s.arr ∧ t.chans = s.chans := by
  intro k
  obtain ⟨v, hv, hcl, hself, hxs⟩ := closeNow_unbinds (s := mboxTake s m) (k := k) hx { o := o }
  have hf : closeAsked (mboxTake s m) k { o := o } = mboxDone v m 0 0 := by
    rw [closeAsked, show seamWindow (mboxTake s m) k = none from hwin, ← complete_mbox v { o := o } m 0 0 hw.1]
    exact hv
  have hend := hcl.trans (closes_complete v { o := o } 0 0)
  have hseam := (seam_complete v { o := o } 0 0 k).trans hself
  have hacc := complete_acc v { o := o } 0 0
  rw [complete_mbox _ _ m _ _ hw.1] at hend hseam hacc
  refine answers_closeAsked _ hw hbad hu hp hf (by rw [hend]; rfl) (by rw [hend]; rfl) fun pins =>
    ⟨mbDone_mboxDone (mboxOf_lt hw.1) 0 0 (by decide) rfl rfl, hseam, ?_, ?_, ?_, ?_, ?_, ?_, ?_⟩
  · exact hacc ▸ hxs
  all_goals rw [hend]
  all_goals rfl

/-- Settles O24: each command is its checks and what it leaves where none fails, and a CLOSE discards, answers, and passes rows on. -/
theorem seamCommandsChangeTheState : Obligations.SeamCommandsChangeTheState := by
  intro s o m w k x
  have hxEvict : exec (.evict o w) s = act s (acceptIn 0x11 evictBody o w) := rfl
  have hxReload : exec (.reload o w) s = act s (acceptIn 0x12 reloadBody o w) := rfl
  have hxAccept : exec (.accept o w) s = act s (acceptIn 0x14 acceptBody o w) := rfl
  have hxClose : exec (.seamClose o w) s = act s (acceptIn 0x15 closeBody o w) := rfl
  let evictBusy := x.st = 2 ∨ x.st = 3 ∨ unitHeld s 1 = true
  let reloadBusy := x.st = 2 ∨ x.st = 3 ∨ x.st = 7 ∨ unitHeld s 1 = true
  let closeBusy := unitHeld s 1 = true ∨ x.closePend.isSome = true
  have hbEvict : evictBody (mboxTake s m) { o := o } w = firstFail [(seamArgBad s w, 2), (decide evictBusy, 1)]
      (mboxTake s m) { o := o } _ := evictBody_eq _ _ _
  have hbReload : reloadBody (mboxTake s m) { o := o } w = firstFail [(seamArgBad s w, 2), (decide reloadBusy, 1)]
      (mboxTake s m) { o := o } _ := reloadBody_eq _ _ _
  have hbAccept : acceptBody (mboxTake s m) { o := o } w = firstFail [(seamArgBad s w, 2), (decide (unitHeld s 1 = true), 1)]
      (mboxTake s m) { o := o } _ := acceptBody_eq _ _ _
  have hbClose : closeBody (mboxTake s m) { o := o } w = firstFail [(seamArgBad s w, 2), (decide closeBusy, 1)]
      (mboxTake s m) { o := o } _ := closeBody_eq _ _ _
  refine ⟨?_, fun hw hbad => ⟨fun h => ?_, fun h2 h3 hu => ?_⟩, fun hw hbad => ⟨fun h => ?_, fun h2 h3 h7 hu => ?_⟩, fun hw hbad hu => ?_,
    fun hw hbad h => ?_, fun hw hbad hu hp => ⟨fun c hc => ?_, fun hwin hx hg hs hn => ?_, fun hwin hx => ?_⟩⟩
  · rintro i op (⟨rfl, rfl⟩ | ⟨rfl, rfl⟩ | ⟨rfl, rfl⟩ | ⟨rfl, rfl⟩) hw hbad
    · exact answers_seamRefused hw hxEvict hbEvict (.inl ⟨hbad, rfl⟩)
    · exact answers_seamRefused hw hxReload hbReload (.inl ⟨hbad, rfl⟩)
    · exact answers_seamRefused hw hxAccept hbAccept (.inl ⟨hbad, rfl⟩)
    · exact answers_seamRefused hw hxClose hbClose (.inl ⟨hbad, rfl⟩)
  · exact answers_seamRefused hw hxEvict hbEvict (.inr ⟨hbad, h, rfl⟩)
  · have hfr := evictAsked_frame (mboxTake s m) k
    refine answers_completes _ hw hxEvict hbEvict (by simp [hbad, evictBusy, h2, h3, hu]) rfl (by rw [hfr]; rfl) (by rw [hfr]; rfl)
      (by rw [hfr]; rfl) fun mb regs cyc pins hk hd => ⟨?_, hk, hd, fun d hdk => seam_evictAsked_of_ne hdk (mboxTake s m),
        seam_evictAsked (mboxTake s m) k, xfers_evictAsked (mboxTake s m) k⟩
    exact congrArg (fun u : State => { u with mb := mb, regs := regs, cyc := cyc, pins := pins }) hfr
  · exact answers_seamRefused hw hxReload hbReload (.inr ⟨hbad, h, rfl⟩)
  · have hfr := reloadAsked_frame (mboxTake s m) k
    refine answers_completes _ hw hxReload hbReload (by simp [hbad, reloadBusy, h2, h3, h7, hu]) rfl (by rw [hfr]; rfl)
      (by rw [hfr]; rfl) (by rw [hfr]; rfl) fun mb regs cyc pins hk hd => ⟨?_, hk, hd, reloadAsked_leaves (mboxTake s m) k⟩
    exact congrArg (fun u : State => { u with mb := mb, regs := regs, cyc := cyc, pins := pins }) hfr
  · let u := updSeam (mboxTake s m) k fun m => { m with stale := false }
    have hself : seam u k = { x with stale := false } := (seam_updSeam _ k k _).trans (if_pos rfl)
    have hother (d : Nat) (hd : d ≠ k) : seam u d = seam s d := (seam_updSeam _ k d _).trans (if_neg hd)
    exact answers_completes u hw hxAccept hbAccept (by simp [hbad, hu]) rfl rfl rfl rfl fun mb regs cyc pins hk hd =>
      ⟨rfl, hk, hd, hself, hother⟩
  · exact answers_seamRefused hw hxClose hbClose (.inr ⟨hbad, h, rfl⟩)
  · exact seamClose_inWindow hw hbad hu hp hc
  · exact seamClose_transfer hw hbad hu hp hwin hx hg hs hn
  · exact seamClose_unbinds hw hbad hu hp hwin hx

end Sys2Proof.Machine
end

section
/-! PROOFS. Counts that fill a register, and a scan chunk that becomes spoil (R26, R160): what of it is gone, and what stays. -/
namespace Sys2Proof.Machine

variable {s t u : State} {uid pos k m : Nat}

/-- A count that fills its register advances by one, and holds at its top. -/
theorem regF_incReg_word (s : State) (o : Nat) :
    regF (incReg s o 0 32) o 0 32 = min 0xFFFFFFFF (regF s o 0 32 + 1) := by
  have hlt : min 0xFFFFFFFF (regF s o 0 32 + 1) < 4294967296 := by omega
  have hreg : reg (incReg s o 0 32) o = putN (reg s o) 0 32 (min 0xFFFFFFFF (regF s o 0 32 + 1)) := by
    simp [incReg, addReg, setRegF, satAdd]
  rw [regF, hreg]
  generalize min 0xFFFFFFFF (regF s o 0 32 + 1) = v at hlt
  simp [fieldN, putN]
  omega

/-- A count of which the register is read alike before and after. -/
theorem regF_of_reg {o lo len : Nat} (h : reg t o = reg s o) : regF t o lo len = regF s o lo len := by rw [regF, h, regF]

theorem reg_of_regs {o : Nat} (h : t.regs = s.regs) : reg t o = reg s o := by rw [reg, h, reg]

/-- A seam read from the seams alone. -/
theorem seam_of_seams {d : Nat} (h : t.seams = s.seams) : seam t d = seam s d := by rw [seam, h, seam]

theorem mem_otherChunks {l : List ScanChunk} {c : ScanChunk} :
    c ∈ otherChunks l uid pos k ↔ c ∈ l ∧ (c.uid, c.pos, c.k) ≠ (uid, pos, k) := by
  simp only [otherChunks, isChunk, List.mem_filter, Bool.not_eq_true', ne_eq]
  grind

/-- The chunk of stream k of record `pos` of bench `uid` is spoil: it is gone and counted, and no copy of a seam changes. -/
structure ChunkSpoilt (s t : State) (uid pos k : Nat) : Prop where
  ends : Discards s t
  chunks : t.scan.chunks = otherChunks s.scan.chunks uid pos k
  counted : regF t 0x4F0C 0 32 = min 0xFFFFFFFF (regF s 0x4F0C 0 32 + 1)
  record : recIn t uid pos = (recIn s uid pos).map (streamOver k)
  copies : ∀ d, SameCopy (seam s d) (seam t d)

theorem chunkSpoilt_scanSpoil (s : State) (uid pos k m : Nat) : ChunkSpoilt s (scanSpoil s uid pos k m) uid pos k := by
  refine ⟨discards_scanSpoil s uid pos k m, ?_, ?_, ?_, fun d => ?_⟩
  all_goals rw [scanSpoil_eq]
  · rw [chunkMayEnd_frame]
    simp [vstDrop, seamSpoil, withoutChunk]
  · refine (regF_of_reg (reg_of_regs ?_)).trans ((regF_incReg_word (noteSpoil (withoutChunk s uid pos k) uid) 0x4F0C).trans ?_)
    · rw [chunkMayEnd_frame]
      rfl
    · rfl
  · rw [recIn_chunkMayEnd]
    refine (recIn_updRec (s := incReg (noteSpoil (withoutChunk s uid pos k) uid) 0x4F0C 0 32) (f := streamOver k) fun _ => ⟨rfl, rfl⟩).trans ?_
    rw [recIn_of_benches (congrArg Seq.benches (incReg_seq ..)), recIn_noteSpoil]
    rfl
  · refine SameCopy.trans ?_ (sameCopy_chunkMayEnd _ d)
    have h := sameCopy_seamSpoil (m := m) (incReg (noteSpoil (withoutChunk s uid pos k) uid) 0x4F0C 0 32) d
    rw [seam_of_seams (incReg_seams ..)] at h
    exact h

theorem ChunkSpoilt.setAhead (h : ChunkSpoilt s t uid pos k) (n : Nat) : ChunkSpoilt (setAhead s n) (setAhead t n) uid pos k where
  ends := congrArg (Machine.setAhead · n) h.ends
  chunks := h.chunks
  counted := h.counted
  record := h.record
  copies := h.copies

end Sys2Proof.Machine
end

section
/-! PROOFS. The parameter rows of a scan record (R97, R153), and the dispatch of its streams' chunks (R115, R157, R462). -/
namespace Sys2Proof.Machine

variable {s t u v w z : State} {uid pos k : Nat} {b : Bench} {r : Rec}

-- The parameter block (R153).

/-- The row of the parameter block that a scan record reads next. -/
def scanParamRow (b : Bench) (r : Rec) : Nat := tdAcc b (rf r 2 12 6) r.par.length

/-- The epoch that it expects there. -/
def scanParamEp (b : Bench) (r : Rec) : Nat := effEp b (rf r 2 12 6) (rf r 2 8 4)

/-- A record with the row that its read delivered, or without the one that it lost. -/
def withParam (x : Option (List W32 × Meta)) (r : Rec) : Rec :=
  match x with
  | some (d, _) => { r with par := r.par ++ [d] }
  | none => { r with par := r.par ++ [[]], lost := true }

theorem withParam_keeps (x : Option (List W32 × Meta)) (r : Rec) : (withParam x r).pos = r.pos ∧ (withParam x r).fin = r.fin := by
  unfold withParam
  split <;> exact ⟨rfl, rfl⟩

/-- The set-ups once a record has read its next row: its fifth schedules its own. -/
def nextSetups (s : State) (b : Bench) (r : Rec) : List ScanSetup :=
  if r.par.length = 4 then s.scan.setups ++ [{ uid := b.uid, pos := r.pos, req := s.clk.slot + 4 }] else s.scan.setups

/-- The tile with the set-ups of the scan stage replaced. -/
def withSetups (s : State) (l : List ScanSetup) : State := { s with scan := { s.scan with setups := l } }

theorem scanParam_eq {x : Option (List W32 × Meta)} (h : rowRead s b r (scanParamRow b r) (scanParamEp b r) = (x, z)) :
    scanParam s b r = withSetups (updRec z b.uid r.pos (withParam x)) (nextSetups z b r) := by
  unfold scanParamRow scanParamEp at h
  unfold scanParam nextSetups
  dsimp only
  rw [h]
  cases x <;> split <;> rfl

/-- A scan record's read leaves `w` but for SLOT_SLIPs, halts, the set-ups and the record's next row. -/
theorem answers_scanParamRead {x : Option (List W32 × Meta)} (h : RecNow s uid pos 5 b r) (hn : r.par.length < sParRows r)
    (hd : b.start + sIssue r - 24 + r.par.length ≤ s.clk.slot)
    (hx : rowRead (inTurn s uid pos) b r (scanParamRow b r) (scanParamEp b r) = (x, z)) (hz : setAhead z s.acc.ahead = v)
    (hs : Slips w v) (hw : w.seq = s.seq ∧ w.pending = s.pending ∧ w.variant = s.variant ∧ w.scan = s.scan ∧ w.clk = s.clk) :
    Answers (.scanParamRead uid pos) s fun t =>
      t = { w with seq := t.seq, ev := t.ev, regs := t.regs, cyc := t.cyc, scan := { s.scan with setups := nextSetups s b r }, pins := t.pins } ∧
      RegsKept w t [0x3014, 0x3018] ∧ RecHolds t uid pos (withParam x r).par ∧ t.ev = v.ev := by
  obtain ⟨hseq, hq, hv, hscan, hclk⟩ := hw
  have hfr := hs.frame
  have hset : nextSetups z b r = nextSetups s b r := by
    have hsz : z.scan = s.scan ∧ z.clk = s.clk := by
      have h₁ : z.scan = v.scan := by rw [← hz]; rfl
      have h₂ : z.clk = v.clk := by rw [← hz]; rfl
      rw [h₁, h₂, hfr]
      exact ⟨hscan, hclk⟩
    rw [nextSetups, hsz.1, hsz.2, nextSetups]
  have hg : setAhead (scanParam (inTurn s uid pos) b r) s.acc.ahead =
      withSetups (updRec v uid pos (withParam x)) (nextSetups s b r) := by
    rw [scanParam_eq hx, uid_of_recNow h, pos_of_recNow h, hset, ← hz]
    rfl
  refine answers_onRec _ h rfl (dueIf_of_true (decide_eq_true hn) _) hd hg ?_ ?_ fun pins => ⟨?_, hs.kept, ?_, rfl⟩
  · show v.pending = _
    rw [hfr]
    exact hq
  · show v.variant = _
    rw [hfr]
    exact hv
  · rw [← hscan, hfr]
    rfl
  · have hrec : recIn v uid pos = some r := by
      rw [recIn_of_benches (hs.benches.trans (congrArg Seq.benches hseq)), recIn_of_recNow h]
    have hz : recIn (updRec v uid pos (withParam x)) uid pos = some (withParam x r) := by
      rw [recIn_updRec (withParam_keeps x), hrec]
      rfl
    exact map_recOf (·.par) hz

/-- A scan record's read that finds no port leaves its row empty. -/
theorem scanParamRead_lost (h : RecNow s uid pos 5 b r) (hn : r.par.length < sParRows r)
    (hd : b.start + sIssue r - 24 + r.par.length ≤ s.clk.slot) (hport : ¬ PortLeft s uid pos) :
    Answers (.scanParamRead uid pos) s fun t =>
      t = { s with seq := t.seq, ev := t.ev, regs := t.regs, cyc := t.cyc, scan := { s.scan with setups := nextSetups s b r }, pins := t.pins } ∧
      Caused t 0x05 ∧ RegsKept s t [0x3014, 0x3018] ∧ RecHolds t uid pos (r.par ++ [[]]) := by
  refine (answers_scanParamRead h hn hd (rowRead_lost (takeRead_of_not_portLeft hport) _ _) rfl
    ((slips_slip (inTurn s uid pos) b r 4 0 0).setAhead s.acc.ahead) ⟨rfl, rfl, rfl, rfl, rfl⟩).imp ?_
  rintro t ⟨he, hfr, hk, hrec, hev⟩
  exact ⟨he, hfr, caused_of_evWith (hev.trans (slip_ev ..)), hk, hrec⟩

/-- A scan record's read of a row of no seam, in a memory that stores no wrong bit. -/
theorem scanParamRead_clean (h : RecNow s uid pos 5 b r) (hn : r.par.length < sParRows r)
    (hd : b.start + sIssue r - 24 + r.par.length ≤ s.clk.slot) (hport : PortLeft s uid pos) (hflips : s.acc.flips = [])
    (hrow : rowSeam s (scanParamRow b r) = false) :
    Answers (.scanParamRead uid pos) s fun t =>
      t = { portTaken s with
        seq := t.seq, ev := t.ev, regs := t.regs, cyc := t.cyc, scan := { s.scan with setups := nextSetups s b r }, pins := t.pins } ∧
      RegsKept s t [0x3014, 0x3018] ∧
      RecHolds t uid pos (r.par ++ [(natsTo 128).map fun j => accEntry s (scanParamRow b r) j]) := by
  refine (answers_scanParamRead h hn hd (rowRead_clean (takeRead_of_portLeft hport) hflips hrow _) rfl
    ((slips_metaCheck (portTaken (inTurn s uid pos)) b r _ _).setAhead s.acc.ahead) ⟨rfl, rfl, rfl, rfl, rfl⟩).imp ?_
  rintro t ⟨he, hfr, hk, hrec, -⟩
  exact ⟨he, hfr, hk, hrec⟩

-- The dispatch of a stream's chunk (R115, R157).

/-- The chunk of the next stream of a record. -/
def scanNewChunk (s : State) (b : Bench) (r : Rec) : ScanChunk :=
  { uid := b.uid, pos := r.pos, k := r.n, seam := sSeam r r.n, s := s.clk.slot, e := (seam s (sSeam r r.n)).nelig }

/-- The next chunk of a record in flight, its seam being dispatched. -/
def chunkStarted (s : State) (b : Bench) (r : Rec) : State :=
  { updRec s b.uid r.pos (gatePast r.n) with
    scan := { s.scan with chunks := s.scan.chunks ++ [scanNewChunk s b r], lastSeam := sSeam r r.n, lastUid := b.uid
                          lastPos := r.pos, lastK := r.n, lastNext := 0 } }

/-- A stream whose seam is held does nothing in the bench (R115). -/
theorem scanDispatch_held (hacc : seamAccess s b r (sSeam r r.n) = (false, s)) : scanDispatch s b r = gateDead s b r r.n := by
  simp [scanDispatch, hacc]

/-- A stream whose seam takes part has its chunk, which is spoil at once where the record has lost a parameter (R160). -/
theorem scanDispatch_joins (hacc : seamAccess s b r (sSeam r r.n) = (true, v)) : scanDispatch s b r =
    if r.lost then scanSpoil (chunkStarted v b r) b.uid r.pos r.n (sSeam r r.n) else chunkStarted v b r := by
  simp only [scanDispatch, hacc]
  rfl

/-- The next stream of a scan record, in its slot. -/
theorem answers_scanChunkDispatch {P : State → Prop} (u : State) (h : RecNow s uid pos 5 b r) (hn : r.n < sN r)
    (hpar : r.par.length = sParRows r) (hd : sDue b r r.n ≤ s.clk.slot)
    (hu : setAhead (scanDispatch (inTurn s uid pos) b r) s.acc.ahead = u) (hq : u.pending = s.pending) (hv : u.variant = s.variant)
    (hP : ∀ pins, P { u with pins := pins }) : Answers (.scanChunkDispatch uid pos) s P :=
  answers_onRec u h rfl (dueIf_of_true (by simp [hn, hpar]) _) hd hu hq hv hP

/-- A record of which stream k has been left out. -/
def streamLeft (k : Nat) (r : Rec) : Rec := { r with n := k + 1, dead := if r.dead.contains k then r.dead else r.dead ++ [k] }

/-- A stream of a held seam is left out. -/
theorem scanChunkDispatch_held (h : RecNow s uid pos 5 b r) (hn : r.n < sN r) (hpar : r.par.length = sParRows r)
    (hd : sDue b r r.n ≤ s.clk.slot) (hheld : sSeam r r.n ∈ b.held) (hdisp : sSeam r r.n ∉ b.disp) :
    Answers (.scanChunkDispatch uid pos) s fun t =>
      t = { s with seq := { s.seq with benches := t.seq.benches }, pins := t.pins } ∧ RecAtN t uid pos (r.n + 1) ∧
      ∃ q, recOf t uid pos = some q ∧ r.n ∈ q.2.dead := by
  have hg : scanDispatch (inTurn s uid pos) b r = updRec (inTurn s uid pos) uid pos (streamLeft r.n) := by
    rw [scanDispatch_held (seamAccess_held (s := inTurn s uid pos) (benchOf_of_recNow h) hheld hdisp), gateDead, uid_of_recNow h,
      pos_of_recNow h]
    rfl
  have hrec : recIn (updRec s uid pos (streamLeft r.n)) uid pos = some (streamLeft r.n r) := by
    rw [recIn_updRec (f := streamLeft r.n) fun _ => ⟨rfl, rfl⟩, recIn_of_recNow h]
    rfl
  obtain ⟨b', hb'⟩ := exists_recOf hrec
  refine answers_scanChunkDispatch (updRec s uid pos (streamLeft r.n)) h hn hpar hd (congrArg (setAhead · s.acc.ahead) hg) rfl rfl
    fun pins => ⟨rfl, map_recOf (·.n) hrec, (b', streamLeft r.n r), hb', ?_⟩
  by_cases hk : r.n ∈ r.dead <;> simp [streamLeft, hk]

/-- A record whose next chunk has started has come past its stream. -/
theorem recIn_chunkStarted (h : RecNow s uid pos 5 b r) (hz : Joined s z b k) :
    recIn (chunkStarted z b r) uid pos = some (gatePast r.n r) := by
  have hr := hz.recs pos
  rw [uid_of_recNow h, recIn_of_recNow h] at hr
  have hp : recIn (chunkStarted z b r) uid pos = recIn (updRec z uid pos (gatePast r.n)) uid pos :=
    recIn_of_benches (by rw [chunkStarted, uid_of_recNow h, pos_of_recNow h])
  rw [hp, recIn_gatePast, hr]
  rfl

/-- The next chunk of a record is dispatched where its seam takes part. -/
theorem scanChunkDispatch_joins (h : RecNow s uid pos 5 b r) (hn : r.n < sN r) (hpar : r.par.length = sParRows r)
    (hd : sDue b r r.n ≤ s.clk.slot) (hjoin : SeamJoins s b (sSeam r r.n)) :
    ∃ z, Joined s z b (sSeam r r.n) ∧
      (r.lost = false → Answers (.scanChunkDispatch uid pos) s fun t => RecAtN t uid pos (r.n + 1) ∧
        ∃ pins, t = { chunkStarted z b r with pins := pins }) ∧
      (r.lost = true → Answers (.scanChunkDispatch uid pos) s fun t => RecAtN t uid pos (r.n + 1) ∧
        ∃ u pins, ChunkSpoilt (chunkStarted z b r) u uid pos r.n ∧ t = { u with pins := pins }) := by
  obtain ⟨v, hacc, hv⟩ := seamAccess_joins (s := inTurn s uid pos) (r := r) (benchOf_of_recNow h) hjoin
  obtain ⟨z, hz⟩ : ∃ z, z = setAhead v s.acc.ahead := ⟨_, rfl⟩
  have hj : Joined s z b (sSeam r r.n) := hz ▸ hv.setAhead s.acc.ahead
  have hg := scanDispatch_joins hacc
  have hahead : setAhead (chunkStarted v b r) s.acc.ahead = chunkStarted z b r := by rw [hz]; rfl
  have hrec := recIn_chunkStarted h hj
  have hkeep : (chunkStarted z b r).pending = s.pending ∧ (chunkStarted z b r).variant = s.variant := by
    rw [chunkStarted, hj.frame]
    exact ⟨rfl, rfl⟩
  refine ⟨z, hj, fun hl => ?_, fun hl => ?_⟩
  · rw [hl] at hg
    exact answers_scanChunkDispatch _ h hn hpar hd ((congrArg (setAhead · s.acc.ahead) hg).trans hahead) hkeep.1 hkeep.2 fun pins =>
      ⟨map_recOf (·.n) hrec, pins, rfl⟩
  · rw [hl, uid_of_recNow h, pos_of_recNow h] at hg
    obtain ⟨u, hu⟩ : ∃ u, u = setAhead (scanSpoil (chunkStarted v b r) uid pos r.n (sSeam r r.n)) s.acc.ahead := ⟨_, rfl⟩
    have hsp : ChunkSpoilt (chunkStarted z b r) u uid pos r.n := by
      rw [hu, ← hahead]
      exact (chunkSpoilt_scanSpoil ..).setAhead _
    have hrec' : recIn u uid pos = some (streamOver r.n (gatePast r.n r)) := by rw [hsp.record, hrec]; rfl
    refine answers_scanChunkDispatch u h hn hpar hd ((congrArg (setAhead · s.acc.ahead) hg).trans hu.symm) ?_ ?_ fun pins =>
      ⟨map_recOf (·.n) hrec', u, pins, hsp, rfl⟩
    · rw [hsp.ends]
      exact hkeep.1
    · rw [hsp.ends]
      exact hkeep.2

/-- A dispatch leaves the layout of the seams. -/
theorem Joined.nelig (h : Joined s t b k) : (seam t k).nelig = (seam s k).nelig := by
  by_cases hk : k ∈ b.disp
  · rw [h.again hk]
  · rw [(h.first hk).1]

theorem scan_chunkStarted (hz : Joined s z b k) : (chunkStarted z b r).scan =
    { s.scan with chunks := s.scan.chunks ++ [scanNewChunk z b r], lastSeam := sSeam r r.n, lastUid := b.uid, lastPos := r.pos
                  lastK := r.n, lastNext := 0 } := by
  rw [chunkStarted, hz.frame]

/-- What the dispatch of a chunk leaves, where its seam takes part. -/
theorem chunkStarted_frame (hz : Joined s z b k) (pins : Pins) :
    let t := { chunkStarted z b r with pins := pins }
    t = { s with scan := t.scan, seams := t.seams, seq := { s.seq with benches := t.seq.benches }, pins := t.pins } := by
  dsimp only
  rw [chunkStarted, hz.frame]
  rfl

end Sys2Proof.Machine
end

section
/-! PROOFS. A scan chunk's next row (R97, R156, R160): read in its slot, or lost with the chunk. -/
namespace Sys2Proof.Machine

variable {s t u v z : State} {uid pos k : Nat} {b : Bench} {r : Rec} {c : ScanChunk} {row expect : Nat}

-- One row of a step (R124).

/-- A row that finds no port is lost. -/
theorem gateRows_lost (hport : takeRead s 1 = (false, s)) : gateRows s b r [row] expect = (none, slip s b r 4 0 0) := by
  simp [gateRows, rowRead_lost hport]

/-- A row of no seam, in a memory that stores no wrong bit, reads with its format. -/
theorem gateRows_clean (hport : takeRead s 1 = (true, u)) (hflips : u.acc.flips = []) (hrow : rowSeam u row = false) :
    ∃ z, gateRows s b r [row] expect = (some [((accMeta u row).fmt, (natsTo 128).map fun j => accEntry u row j)], z) ∧ Slips u z := by
  have hchk := slips_metaCheck u b r (accMeta u row) expect
  simp only [gateRows, List.foldl_cons, List.foldl_nil, rowRead_clean hport hflips hrow, List.nil_append]
  refine ⟨_, rfl, ?_⟩
  split
  · exact hchk.trans (slips_slip ..)
  · exact hchk

-- The step of a chunk (R156).

/-- The row that a chunk reads next. -/
def scanStepRow (b : Bench) (r : Rec) (c : ScanChunk) : Nat := tdAcc b (rf r 1 1 6) (c.k * sLen r + c.steps.length)

/-- A chunk with one more step. -/
def withStep (st : ScanStep) (c : ScanChunk) : ScanChunk := { c with steps := c.steps ++ [st] }

/-- The tile with one more step of chunk c, which the last dispatch may have started. -/
def chunkStepped (s : State) (c : ScanChunk) (st : ScanStep) : State :=
  { s with scan := { (updChunk s c (withStep st)).scan with
      lastNext := if isChunk s.scan.lastUid s.scan.lastPos s.scan.lastK c then c.steps.length + 1 else s.scan.lastNext } }

/-- A chunk in flight is there with its new step. -/
theorem withStep_mem_chunkStepped (hc : c ∈ s.scan.chunks) (st : ScanStep) : withStep st c ∈ (chunkStepped s c st).scan.chunks := by
  exact List.mem_map.mpr ⟨c, hc, by simp [isChunk]⟩

/-- A chunk whose row finds no port is spoil. -/
theorem scanRead_lost (hport : takeRead s 1 = (false, s)) :
    scanRead s b r c = scanSpoil (slip s b r 4 0 0) c.uid c.pos c.k c.seam := by
  simp only [scanRead, gateRows_lost hport]
  simp

/-- The epoch that it expects there. -/
def scanStepEp (b : Bench) (r : Rec) : Nat := effEp b (rf r 1 1 6) (rf r 2 28 4)

/-- A chunk of one row a step has its next step with that row. -/
theorem scanRead_of_gateRows {p : Nat × List W32} (hmode : sMode r ≠ 2)
    (hp : gateRows s b r [scanStepRow b r c] (scanStepEp b r) = (some [p], z)) :
    scanRead s b r c = chunkStepped z c { r := s.clk.slot, x := p, d := p } := by
  unfold scanStepRow scanStepEp at hp
  unfold scanRead
  dsimp only
  rw [hp, decide_eq_false hmode]
  by_cases hl : isChunk z.scan.lastUid z.scan.lastPos z.scan.lastK c = true
  · rw [chunkStepped, if_pos hl]
    exact if_pos hl
  · rw [chunkStepped, if_neg hl]
    exact if_neg hl

/-- A chunk of one row a step, whose row reads. -/
theorem scanRead_clean (hmode : sMode r ≠ 2) (hport : takeRead s 1 = (true, u)) (hflips : u.acc.flips = [])
    (hrow : rowSeam u (scanStepRow b r c) = false) :
    ∃ z st, scanRead s b r c = chunkStepped z c st ∧ Slips u z ∧ st.r = s.clk.slot ∧
      st.x = ((accMeta u (scanStepRow b r c)).fmt, (natsTo 128).map fun j => accEntry u (scanStepRow b r c) j) :=
  have ⟨z, hz, hs⟩ := gateRows_clean (b := b) (r := r) (expect := scanStepEp b r) hport hflips hrow
  ⟨z, _, scanRead_of_gateRows hmode hz, hs, rfl, rfl⟩

-- SCAN_STEP (R156, R160).

theorem scanNextRead_mem (hc : scanNextRead s b r = some c) : c ∈ s.scan.chunks ∧ c.uid = b.uid ∧ c.pos = r.pos := by
  have h := List.find?_some hc
  simp only [Bool.and_eq_true, beq_iff_eq] at h
  exact ⟨List.mem_of_find?_eq_some hc, h.1⟩

/-- The next row of a record's chunks, in its slot. -/
theorem answers_scanStep {P : State → Prop} (u : State) (h : RecNow s uid pos 5 b r) (hc : scanNextRead s b r = some c)
    (hd : c.s + scanR r c.e * c.steps.length ≤ s.clk.slot) (hu : setAhead (scanRead (inTurn s uid pos) b r c) s.acc.ahead = u)
    (hq : u.pending = s.pending) (hv : u.variant = s.variant) (hP : ∀ pins, P { u with pins := pins }) :
    Answers (.scanStep uid pos) s P := by
  have hc' : scanNextRead (inTurn s uid pos) b r = some c := hc
  refine answers_onRec u h rfl (d := c.s + scanR r c.e * c.steps.length) (by simp [scanReadDue, hc]) hd ?_ hq hv hP
  simp only [scanReadNext, hc', hu]

/-- A chunk whose row finds no port is spoil, which SLOT_SLIP reports. -/
theorem scanStep_lost (h : RecNow s uid pos 5 b r) (hc : scanNextRead s b r = some c)
    (hd : c.s + scanR r c.e * c.steps.length ≤ s.clk.slot) (hport : ¬ PortLeft s uid pos) :
    Answers (.scanStep uid pos) s fun t =>
      ∃ v u pins, Slips s v ∧ Caused v 0x05 ∧ ChunkSpoilt v u uid pos c.k ∧ t = { u with pins := pins } := by
  obtain ⟨-, hu, hp⟩ := scanNextRead_mem hc
  obtain ⟨v, hv⟩ : ∃ v, v = setAhead (slip (inTurn s uid pos) b r 4 0 0) s.acc.ahead := ⟨_, rfl⟩
  obtain ⟨u, hu'⟩ : ∃ u, u = setAhead (scanSpoil (slip (inTurn s uid pos) b r 4 0 0) uid pos c.k c.seam) s.acc.ahead := ⟨_, rfl⟩
  have hs : Slips s v := hv ▸ (slips_slip (inTurn s uid pos) b r 4 0 0).setAhead s.acc.ahead
  have hcause : Caused v 0x05 := hv ▸ caused_slip (inTurn s uid pos) b r 4 0 0
  have hsp : ChunkSpoilt v u uid pos c.k := by
    rw [hv, hu']
    exact (chunkSpoilt_scanSpoil ..).setAhead _
  have hg : setAhead (scanRead (inTurn s uid pos) b r c) s.acc.ahead = u := by
    rw [scanRead_lost (takeRead_of_not_portLeft hport), hu, hp, uid_of_recNow h, pos_of_recNow h, hu']
  refine answers_scanStep u h hc hd hg ?_ ?_ fun pins => ⟨v, u, pins, hs, hcause, hsp, rfl⟩ <;> rw [hsp.ends, hs.frame]

/-- What is gone with a chunk that SLOT_SLIP made spoil. -/
theorem scanStep_spoilt (h : RecNow s uid pos 5 b r) (hs : Slips s v) (hcause : Caused v 0x05) (hsp : ChunkSpoilt v u uid pos k)
    (pins : Pins) :
    let t := { u with pins := pins }
    Caused t 0x05 ∧ (∀ x ∈ t.scan.chunks, x ∈ s.scan.chunks ∧ (x.uid, x.pos, x.k) ≠ (uid, pos, k)) ∧
      regF t 0x4F0C 0 32 = min 0xFFFFFFFF (regF s 0x4F0C 0 32 + 1) ∧ (∃ q, recOf t uid pos = some q ∧ k ∈ q.2.dead) ∧
      (∀ m, (seam t m).step = (seam s m).step) ∧ t.acc.data = s.acc.data ∧ t.arr = s.arr ∧ t.rings = s.rings := by
  have hrec : recIn u uid pos = some (streamOver k r) := by
    rw [hsp.record, recIn_of_benches hs.benches, recIn_of_recNow h]
    rfl
  obtain ⟨b', hb'⟩ := exists_recOf hrec
  have hev : u.ev = v.ev := by rw [hsp.ends]
  have hscan : v.scan = s.scan := by rw [hs.frame]
  refine ⟨?_, fun x hx => ?_, ?_, ⟨_, hb', ?_⟩, fun m => ?_, ?_, ?_, ?_⟩
  · unfold Caused at hcause ⊢
    rw [← hev] at hcause
    exact hcause
  · have hx' : x ∈ otherChunks s.scan.chunks uid pos k := by
      rw [← hscan, ← hsp.chunks]
      exact hx
    exact mem_otherChunks.mp hx'
  · rw [← regF_of_reg (hs.kept 0x4F0C (by decide))]
    exact hsp.counted
  · simp [streamOver]
  · refine (hsp.copies m).1.trans ?_
    rw [hs.frame]
    rfl
  · show u.acc.data = _
    rw [hsp.ends, hs.frame]
  · show u.arr = _
    rw [hsp.ends, hs.frame]
  · show u.rings = _
    rw [hsp.ends, hs.frame]

/-- The next step of a chunk of one row a step, which is of no seam, in a memory that stores no wrong bit. -/
theorem scanStep_clean (h : RecNow s uid pos 5 b r) (hc : scanNextRead s b r = some c)
    (hd : c.s + scanR r c.e * c.steps.length ≤ s.clk.slot) (hport : PortLeft s uid pos) (hmode : sMode r ≠ 2)
    (hflips : s.acc.flips = []) (hrow : rowSeam s (scanStepRow b r c) = false) :
    Answers (.scanStep uid pos) s fun t =>
      t = { portTaken s with seq := t.seq, ev := t.ev, regs := t.regs, cyc := t.cyc, scan := t.scan, pins := t.pins } ∧
      RegsKept s t [0x3014, 0x3018] ∧ RecAtN t uid pos r.n ∧
      ∃ x ∈ t.scan.chunks, (x.uid, x.pos, x.k, x.seam) = (uid, pos, c.k, c.seam) ∧
        ∃ y, x.steps = c.steps ++ [y] ∧ y.r = s.clk.slot ∧
          y.x = ((accMeta s (scanStepRow b r c)).fmt, (natsTo 128).map fun j => accEntry s (scanStepRow b r c) j) := by
  obtain ⟨hmem, hu, hp⟩ := scanNextRead_mem hc
  rw [uid_of_recNow h] at hu
  rw [pos_of_recNow h] at hp
  obtain ⟨z, st, hread, hs, hr, hx⟩ := scanRead_clean hmode (takeRead_of_portLeft hport) hflips hrow
  obtain ⟨w, hw⟩ : ∃ w, w = setAhead z s.acc.ahead := ⟨_, rfl⟩
  have hsw : Slips (portTaken s) w := hw ▸ hs.setAhead s.acc.ahead
  have hfr := hsw.frame
  have hscan : w.scan = s.scan := by rw [hfr]; rfl
  have hg : setAhead (scanRead (inTurn s uid pos) b r c) s.acc.ahead = chunkStepped w c st := by
    rw [hread, hw]
    rfl
  have hrec : recIn (chunkStepped w c st) uid pos = some r :=
    (recIn_of_benches (s := s) hsw.benches).trans (recIn_of_recNow h)
  refine answers_scanStep (chunkStepped w c st) h hc hd hg ?_ ?_ fun pins => ⟨?_, hsw.kept, map_recOf (·.n) hrec,
    withStep st c, withStep_mem_chunkStepped (hscan ▸ hmem) st, by rw [withStep, hu, hp], st, rfl, hr, hx⟩
  · show w.pending = _
    rw [hfr]
    rfl
  · show w.variant = _
    rw [hfr]
    rfl
  · rw [chunkStepped, hfr]

end Sys2Proof.Machine
end

section
/-! PROOFS. Lanes of a site that compute each with its own generator (R53). -/
namespace Sys2Proof.Machine

variable {s : State} {site : Nat}

/-- A computation in the first `m` lanes of a site changes its own lane's generator alone, and its value follows from that generator. -/
structure LaneWise {α : Type} (site m : Nat) (f : State → Nat → α × Flg × State) : Prop where
  own : ∀ s l, l < m → ∃ g, (f s l).2.2 = { s with gen := g } ∧ ∀ k, k ≠ l → mget g 0 (site * 128 + k) = mget s.gen 0 (site * 128 + k)
  value : ∀ s g l, l < m → mget g 0 (site * 128 + l) = mget s.gen 0 (site * 128 + l) → (f { s with gen := g } l).1 = (f s l).1

/-- The lanes of a site in order: values last first, the flags of all, and the state. -/
def laneFold {α : Type} (f : State → Nat → α × Flg × State) (s : State) (n : Nat) : List α × Flg × State :=
  (natsTo n).foldl (fun a l => ((f a.2.2 l).1 :: a.1, a.2.1 ||| (f a.2.2 l).2.1, (f a.2.2 l).2.2)) ([], 0, s)

/-- Every lane's value is what it computes by itself. -/
theorem laneFold_eq {α : Type} {f : State → Nat → α × Flg × State} {m : Nat} (hf : LaneWise site m f) (s : State) (n : Nat) (hn : n ≤ m) :
    ∃ fl g, laneFold f s n = (((natsTo n).map fun l => (f s l).1).reverse, fl, { s with gen := g }) ∧
      ∀ l, n ≤ l → mget g 0 (site * 128 + l) = mget s.gen 0 (site * 128 + l) := by
  induction n with
  | zero => exact ⟨0, s.gen, rfl, fun _ _ => rfl⟩
  | succ n ih =>
    obtain ⟨fl, g, heq, hg⟩ := ih (Nat.le_of_succ_le hn)
    obtain ⟨g', hx, hg'⟩ := hf.own { s with gen := g } n hn
    refine ⟨fl ||| (f { s with gen := g } n).2.1, g', ?_, fun l hl => (hg' l (by omega)).trans (hg l (by omega))⟩
    unfold laneFold at heq ⊢
    rw [natsTo_succ, List.foldl_append, heq]
    simp [hx, hf.value s g n hn (hg n (Nat.le_refl n))]

theorem genOf_of_gen {g : SMap W32} {l : Nat} (h : mget g 0 (site * 128 + l) = mget s.gen 0 (site * 128 + l)) :
    genOf { s with gen := g } site l = genOf s site l := by
  show (if _ then _ else _) = if _ then _ else _
  rw [h]
  rfl

theorem laneWise_runLane {α : Type} (site m : Nat) (md : RMode) (oi : Bool) (f : Nat → LaneM α) :
    LaneWise site m fun s l => runLane s site l md oi (f l) where
  own s l _ := by
    unfold runLane
    dsimp only
    split
    · exact ⟨s.gen, rfl, fun _ _ => rfl⟩
    · exact ⟨_, rfl, fun k hk => by rw [mget_mset, if_neg (by omega)]⟩
  value s g l _ h := by
    simp only [runLane, genOf_of_gen h]

/-- What lane l of a site computes. -/
def siteValue {α : Type} (s : State) (site : Nat) (md : RMode) (oi : Bool) (f : LaneM α) (l : Nat) : α := (f ⟨genOf s site l, 0, md, oi⟩).1

/-- Lanes at work change the generators alone, and each computes by itself. -/
theorem runLanes_eq {α : Type} (s : State) (site n : Nat) (md : RMode) (oi : Bool) (f : Nat → LaneM α) :
    ∃ fl g, runLanes s site n md oi f = ((natsTo n).map fun l => siteValue s site md oi (f l) l, fl, { s with gen := g }) := by
  obtain ⟨fl, g, h, -⟩ := laneFold_eq (laneWise_runLane site n md oi f) s n (Nat.le_refl n)
  refine ⟨fl, g, ?_⟩
  unfold laneFold at h
  unfold runLanes
  dsimp only
  rw [h, List.reverse_reverse]
  rfl

/-- The number that a lane of a site draws if it rounds. -/
def laneDraw (s : State) (site l : Nat) : Nat := (lfsrDraw (genOf s site l)).toNat % 65536

theorem siteValue_lCvt32 (s : State) (site : Nat) (md : RMode) (oi : Bool) (x : FVal) (l : Nat) :
    siteValue s site md oi (lCvt32 x) l = BitVec.ofNat 32 (fmtEncode 7 md oi (laneDraw s site l) x).bits := rfl

theorem siteValue_pure {α : Type} (s : State) (site : Nat) (md : RMode) (oi : Bool) (x : α) (l : Nat) :
    siteValue s site md oi (pure x) l = x := rfl

/-- Lanes at work change the generators alone. -/
theorem runLanes_frame {α : Type} (s : State) (site n : Nat) (md : RMode) (oi : Bool) (f : Nat → LaneM α) :
    (runLanes s site n md oi f).2.2 = { s with gen := (runLanes s site n md oi f).2.2.gen } := by
  obtain ⟨fl, g, h⟩ := runLanes_eq s site n md oi f
  rw [h]

end Sys2Proof.Machine
end

section
/-! PROOFS. The commit of a scan chunk (R157, R158, R142): what it writes in its commit slot, and what the commit of all its steps leaves. -/
namespace Sys2Proof.Machine

variable {s t u : State} {uid pos k m n : Nat} {b : Bench} {r : Rec} {c : ScanChunk}

-- What the arithmetic of an output changes (R57, R152).

/-- State `t` is `s` but for the generators, the sticky flags of the scan stage, and rows put on their way. -/
structure OutOnly (s t : State) : Prop where
  frame : t = { s with gen := t.gen, regs := t.regs, cyc := t.cyc, acc := { s.acc with wq := t.acc.wq } }
  kept : RegsKept s t [0x4F00]

theorem OutOnly.refl (s : State) : OutOnly s s := ⟨rfl, fun _ _ => rfl⟩

theorem OutOnly.trans (h : OutOnly s t) (k : OutOnly t u) : OutOnly s u :=
  ⟨k.frame.trans (by rw [h.frame]), fun o ho => (k.kept o ho).trans (h.kept o ho)⟩

theorem outOnly_scanLanes {α : Type} (s : State) (b : Bench) (n : Nat) (f : Nat → LaneM α) : OutOnly s (scanLanes s b n f).2 where
  frame := by
    rw [scanLanes, runLanes_frame, stick_frame]
  kept o ho := by
    have ho' : o ≠ 0x4F00 := by simpa using ho
    rw [scanLanes, reg_stick _ _ _ _ _ ho', runLanes_frame]
    rfl

theorem outOnly_scanRow (s : State) (b : Bench) (r : Rec) (c : ScanChunk) (w i off : Nat) (v : List W32) :
    OutOnly s (scanRow s b r c w i off v) := ⟨rfl, fun _ _ => rfl⟩

theorem outOnly_scanOut (s : State) (b : Bench) (r : Rec) (c : ScanChunk) (t : Nat) (st : ScanStep) : OutOnly s (scanOut s b r c t st) := by
  unfold scanOut
  split
  · exact .refl s
  · exact (outOnly_scanLanes ..).trans (outOnly_scanRow ..)

theorem outOnly_scanLastOut (s : State) (b : Bench) (r : Rec) (c : ScanChunk) : OutOnly s (scanLastOut s b r c) := by
  unfold scanLastOut
  split
  · split
    · exact outOnly_scanOut ..
    · exact .refl s
  · exact .refl s

/-- A chunk with traces, or of a record without outputs of its own, writes nothing in its commit slot. -/
theorem scanLastOut_none (h : c.e ≠ 0 ∨ sOut r < 2) : scanLastOut s b r c = s := by
  unfold scanLastOut
  split
  next st _ =>
    rcases h with h | h
    · simp [h]
    · simp [scanOut, h]
  next => rfl

-- The commit of all steps (R142, R158).

/-- The state without the chunk of stream k of a record, of which the stream is over. -/
def chunkEnded (s : State) (uid pos k : Nat) : State :=
  updRec { s with scan := { s.scan with chunks := otherChunks s.scan.chunks uid pos k } } uid pos (streamOver k)

/-- The commit of the n steps of a chunk of seam m. -/
def chunkDone (s : State) (uid pos k m n : Nat) : State :=
  chunkMayEnd (incReg (releaseCommit (stepCounted (seamCommit (chunkEnded s uid pos k) m n) uid m) m n) 0x4F08 0 32) uid pos m

theorem scanCommitStep_eq (hu : c.uid = b.uid) (hp : c.pos = r.pos) :
    scanCommitStep s b r c = chunkDone (scanLastOut s b r c) b.uid r.pos c.k c.seam (sLen r) := by
  rw [scanCommitStep, hu, hp]
  rfl

/-- The n steps of the chunk of stream k of a record have committed to seam m: state `t` is what that leaves of `s`. -/
structure ChunkDone (s t : State) (uid pos k m n : Nat) : Prop where
  frame : t = { s with
    scan := { s.scan with chunks := otherChunks s.scan.chunks uid pos k }, acc := t.acc, seams := t.seams, rings := t.rings
    vec := { s.vec with vsts := t.vec.vsts }, seq := { s.seq with benches := t.seq.benches }, ev := t.ev, regs := t.regs, cyc := t.cyc }
  kept : RegsKept s t [0x4F08]
  counted : regF t 0x4F08 0 32 = min 0xFFFFFFFF (regF s 0x4F08 0 32 + 1)
  record : recIn t uid pos = (recIn s uid pos).map (streamOver k)
  own : (seam t m).cur = !(seam s m).cur ∧ (seam t m).step = (seam s m).step + BitVec.ofNat 32 n ∧ (seam t m).shadow = []
  others : ∀ d, d ≠ m → SameCopy (seam s d) (seam t d)
  entries : NewRows s t m (seam s m).nrows

theorem chunkDone_holds (s : State) (uid pos k m n : Nat) : ChunkDone s (chunkDone s uid pos k m n) uid pos k m n := by
  obtain ⟨d, hd⟩ : ∃ d, d = chunkEnded s uid pos k := ⟨_, rfl⟩
  obtain ⟨c, hc⟩ : ∃ c, c = seamCommit d m n := ⟨_, rfl⟩
  obtain ⟨e, he⟩ : ∃ e, e = releaseCommit (stepCounted c uid m) m n := ⟨_, rfl⟩
  obtain ⟨f, hf⟩ : ∃ f, f = incReg e 0x4F08 0 32 := ⟨_, rfl⟩
  have hcf : c = { d with acc := c.acc, seams := c.seams } := by rw [hc]; exact seamCommit_frame ..
  have hef : RingsOnly (stepCounted c uid m) e := by rw [he]; exact ringsOnly_releaseCommit ..
  have hff : f = { e with regs := f.regs, cyc := f.cyc } := by rw [hf]; exact setReg_frame ..
  have hdone : chunkDone s uid pos k m n = chunkMayEnd f uid pos m := by rw [hf, he, hc, hd]; rfl
  have hseam (j : Nat) : seam f j = seam c j := by rw [hff, hef]; rfl
  have hregs : e.regs = s.regs := by rw [hef]; show c.regs = _; rw [hcf, hd]; rfl
  have hown : (seam f m).cur = !(seam s m).cur ∧ (seam f m).step = (seam s m).step + BitVec.ofNat 32 n ∧ (seam f m).shadow = [] := by
    rw [hseam, hc, hd]
    exact seam_seamCommit (chunkEnded s uid pos k) m n
  have hfregs : (chunkMayEnd f uid pos m).regs = f.regs := by rw [chunkMayEnd_frame]
  rw [hdone]
  refine ⟨?_, fun o ho => ?_, ?_, ?_, ⟨?_, ?_, ?_⟩, fun j hj => ?_, ?_⟩
  · rw [chunkMayEnd_frame, hff, hef]
    show _ = _
    rw [stepCounted, hcf, hd]
    rfl
  · have ho' : o ≠ 0x4F08 := by simpa using ho
    rw [reg_of_regs hfregs, hf]
    exact (reg_incReg _ 0x4F08 o 0 32 ho').trans (reg_of_regs hregs)
  · rw [regF_of_reg (reg_of_regs hfregs), hf, regF_incReg_word, regF_of_reg (reg_of_regs hregs)]
  · have hfd : recIn f uid pos = recIn d uid pos :=
      calc recIn f uid pos = recIn e uid pos := recIn_of_benches (congrArg (fun s => s.seq.benches) hff)
        _ = recIn (stepCounted c uid m) uid pos := recIn_of_benches (congrArg (fun s => s.seq.benches) hef)
        _ = recIn c uid pos := recIn_stepCounted c uid m
        _ = recIn d uid pos := recIn_of_benches (congrArg (fun s => s.seq.benches) hcf)
    rw [recIn_chunkMayEnd, hfd, hd, chunkEnded, recIn_updRec (f := streamOver k) fun _ => ⟨rfl, rfl⟩]
    rfl
  · exact (sameCopy_chunkMayEnd f m).2.trans hown.1
  · exact (sameCopy_chunkMayEnd f m).1.trans hown.2.1
  · exact shadow_chunkMayEnd hown.2.2
  · have hj' : seam f j = seam s j := by
      rw [hseam, hc, hd]
      exact seam_seamCommit_of_ne hj (chunkEnded s uid pos k) n
    rw [← hj']
    exact sameCopy_chunkMayEnd f j
  · have hacc : (chunkMayEnd f uid pos m).acc = c.acc := by rw [chunkMayEnd_frame, hff, hef]; rfl
    have hnew := newRows_seamCommit (chunkEnded s uid pos k) m n
    rw [← hd, ← hc] at hnew
    subst hd
    intro row j hj
    rw [accEntry, hacc]
    exact hnew row j hj

theorem ChunkDone.setAhead (h : ChunkDone s t uid pos k m n) (a : Nat) : ChunkDone (setAhead s a) (setAhead t a) uid pos k m n where
  frame := congrArg (Machine.setAhead · a) h.frame
  kept := h.kept
  counted := h.counted
  record := h.record
  own := h.own
  others := h.others
  entries := h.entries

theorem OutOnly.setAhead (h : OutOnly s t) (a : Nat) : OutOnly (setAhead s a) (setAhead t a) :=
  ⟨congrArg (Machine.setAhead · a) h.frame, h.kept⟩

/-- What a chunk writes in its commit slot bears on no entry of the rows that its seam commits. -/
theorem OutOnly.newRows (h : OutOnly s t) (hn : NewRows t u m (seam t m).nrows) : NewRows s u m (seam s m).nrows := by
  rw [h.frame] at hn
  exact hn

-- SCAN_COMMIT (R157, R158).

theorem firstChunk_mem (hc : firstChunk s b r = some c) : c.uid = b.uid ∧ c.pos = r.pos := by
  have h := List.find?_some hc
  simpa only [Bool.and_eq_true, beq_iff_eq] using h

/-- The first chunk in flight of a record, of which all rows have been read, commits in its slot: `v` is the state with its last output. -/
theorem answers_scanCommit (h : RecNow s uid pos 5 b r) (hc : firstChunk s b r = some c) (hlen : c.steps.length = sLen r)
    (hd : scanCommitDue r c ≤ s.clk.slot) :
    ∃ v, OutOnly s v ∧ (c.e ≠ 0 ∨ sOut r < 2 → v = s) ∧
      Answers (.scanCommit uid pos) s fun t => ∃ u pins, ChunkDone v u uid pos c.k c.seam (sLen r) ∧ t = { u with pins := pins } := by
  obtain ⟨hu, hp⟩ := firstChunk_mem hc
  obtain ⟨w, hw⟩ : ∃ w, w = scanLastOut (inTurn s uid pos) b r c := ⟨_, rfl⟩
  obtain ⟨u, hu'⟩ : ∃ u, u = setAhead (chunkDone w uid pos c.k c.seam (sLen r)) s.acc.ahead := ⟨_, rfl⟩
  have hout : OutOnly s (setAhead w s.acc.ahead) := hw ▸ (outOnly_scanLastOut (inTurn s uid pos) b r c).setAhead s.acc.ahead
  have hdone : ChunkDone (setAhead w s.acc.ahead) u uid pos c.k c.seam (sLen r) := hu' ▸ (chunkDone_holds w ..).setAhead _
  have hfirst : scanCommitFirst (inTurn s uid pos) b r = chunkDone w uid pos c.k c.seam (sLen r) := by
    have hc' : firstChunk (inTurn s uid pos) b r = some c := hc
    simp only [scanCommitFirst, hc']
    rw [scanCommitStep_eq hu hp, uid_of_recNow h, pos_of_recNow h, hw]
  refine ⟨_, hout, fun hn => by rw [hw, scanLastOut_none hn]; rfl, ?_⟩
  refine answers_onRec u h rfl (d := scanCommitDue r c) (by simp [scanFirstDue, hc, dueIf, hlen]) hd (by rw [hfirst, hu']) ?_ ?_
    fun pins => ⟨u, pins, hdone, rfl⟩ <;> rw [hdone.frame, hout.frame]

end Sys2Proof.Machine
end

section
/-! PROOFS. The scan stage's chunks (R112, R115, R156 to R160): the settled statement. -/
namespace Sys2Proof.Machine

/-- Settles O49: a parameter row is read or lost, a chunk is dispatched, left out or spoil at once, a step reads its row or makes its chunk
spoil, and a commit turns the seam to the copy that its steps wrote. -/
theorem scanChunksRunAndCommit : Obligations.ScanChunksRunAndCommit := by
  intro s uid pos b r h
  refine ⟨fun hn hd => ?_, fun hn hpar hd => ⟨fun hheld hdisp => scanChunkDispatch_held h hn hpar hd hheld hdisp, ?_, ?_⟩,
    fun c hc hd => ⟨fun hport => ?_, fun hport hmode hflips hrow => ?_⟩, fun c hc hlen hd => ?_⟩
  · have hset : nextSetups s b r = if r.par.length = 4 then s.scan.setups ++ [{ uid := uid, pos := pos, req := s.clk.slot + 4 }]
        else s.scan.setups := by rw [nextSetups, uid_of_recNow h, pos_of_recNow h]
    dsimp only
    rw [← hset]
    exact ⟨scanParamRead_lost h hn hd, scanParamRead_clean h hn hd⟩
  · intro hjoin hl
    obtain ⟨z, hz, hclean, -⟩ := scanChunkDispatch_joins h hn hpar hd hjoin
    refine (hclean hl).imp ?_
    rintro t ⟨he, hn', pins, rfl⟩
    refine ⟨he, chunkStarted_frame hz pins, hn', hz.others, fun hk => ?_, hz.again, scanNewChunk z b r, ?_, ?_⟩
    · refine (hz.first hk).1.trans ?_
      rw [uid_of_recNow h]
    · refine (scan_chunkStarted hz).trans ?_
      rw [uid_of_recNow h, pos_of_recNow h]
    · exact ⟨uid_of_recNow h, pos_of_recNow h, rfl, rfl, by rw [scanNewChunk, hz.frame], hz.nelig, rfl⟩
  · intro hjoin hl
    obtain ⟨z, hz, -, hlost⟩ := scanChunkDispatch_joins h hn hpar hd hjoin
    refine (hlost hl).imp ?_
    rintro t ⟨he, hn', u, pins, hsp, rfl⟩
    refine ⟨he, hn', fun c hc => ?_, ?_, ?_⟩
    · have hc' := hsp.chunks ▸ hc
      rw [scan_chunkStarted hz] at hc'
      obtain ⟨hmem, hne⟩ := mem_otherChunks.mp hc'
      refine (List.mem_append.mp hmem).resolve_right fun hnew => hne ?_
      rw [List.mem_singleton.mp hnew, scanNewChunk, uid_of_recNow h, pos_of_recNow h]
    · refine hsp.counted.trans ?_
      rw [regF_of_reg (reg_of_regs (s := s) (by rw [chunkStarted, hz.frame]; rfl))]
    · exact (hsp.copies _).1.trans (hz.sameCopy _).1
  · refine (scanStep_lost h hc hd hport).imp ?_
    rintro t ⟨he, v, u, pins, hs, hcause, hsp, rfl⟩
    exact ⟨he, scanStep_spoilt h hs hcause hsp pins⟩
  · exact scanStep_clean h hc hd hport hmode hflips hrow
  · obtain ⟨v, hv, hnone, hans⟩ := answers_scanCommit h hc hlen hd
    refine hans.imp ?_
    rintro t ⟨he, u, pins, hdone, rfl⟩
    have hscan : v.scan = s.scan := by rw [hv.frame]
    have hseam (d : Nat) : seam v d = seam s d := by rw [hv.frame]; rfl
    have hregs : reg v 0x4F08 = reg s 0x4F08 := hv.kept 0x4F08 (by decide)
    have hnew : NewRows s u c.seam (seam s c.seam).nrows := hv.newRows hdone.entries
    have hrec : recIn u uid pos = some (streamOver c.k r) := by
      rw [hdone.record, recIn_of_benches (s := s) (by rw [hv.frame]), recIn_of_recNow h]
      rfl
    obtain ⟨b', hb'⟩ := exists_recOf hrec
    obtain ⟨hcur, hstep, hshadow⟩ := hdone.own
    rw [hseam] at hcur hstep
    have hchunks : u.scan.chunks = otherChunks s.scan.chunks uid pos c.k := by rw [← hscan, hdone.frame]
    refine ⟨he, ?_, fun hn => ?_, ?_, ?_, fun y => ?_, ⟨_, hb', ?_⟩, hcur, hstep, hshadow, fun k hk => ?_, ?_, ?_⟩
    · rw [hdone.frame, hv.frame]
    · have hvs := hnone hn
      refine ⟨?_, fun o ho => (hdone.kept o ho).trans (by rw [hvs])⟩
      rw [hdone.frame, hvs]
    · intro o ho
      obtain ⟨h₁, h₂⟩ : o ≠ 0x4F00 ∧ o ≠ 0x4F08 := by simpa using ho
      exact (hdone.kept o (by simpa using h₂)).trans (hv.kept o (by simpa using h₁))
    · exact hdone.counted.trans (by rw [regF_of_reg hregs])
    · show y ∈ u.scan.chunks ↔ _
      rw [hchunks, mem_otherChunks]
    · simp [streamOver]
    · rw [← hseam k]
      exact hdone.others k hk
    · exact fun i j hi hj => (hnew _ j hj).1 i hi rfl
    · exact fun row j hj hrow => (hnew row j hj).2 hrow

end Sys2Proof.Machine
end

section
/-! PROOFS. The conversion of an output row at the writer (R49, R53, R55), element by element. -/
namespace Sys2Proof.Machine

/-- The conversion of element i of a row at the writer. -/
def convElem (b : Bench) (fmt : Nat) (vs : List FVal) (s : State) (i : Nat) : Nat × Flg × State :=
  let x := rnd s siteWr (i % 128) fun q => fmtEncode fmt (benchRnd b b.crnd) b.ovfInf q (lget vs FVal.zero i)
  (x.1.bits, x.1.fl, x.2)

theorem laneWise_convElem (b : Bench) (fmt : Nat) (vs : List FVal) : LaneWise siteWr 128 (convElem b fmt vs) where
  own s l hl := by
    unfold convElem rnd
    dsimp only
    rw [Nat.mod_eq_of_lt hl]
    split
    · exact ⟨_, rfl, fun k hk => by rw [mget_mset, if_neg (by omega)]⟩
    · exact ⟨s.gen, rfl, fun _ _ => rfl⟩
  value s g l hl h := by
    simp only [convElem, rnd, Nat.mod_eq_of_lt hl, genOf_of_gen h]

/-- The code of an element at the writer. -/
def convCode (s : State) (b : Bench) (fmt : Nat) (v : FVal) (i : Nat) : Nat :=
  (fmtEncode fmt (benchRnd b b.crnd) b.ovfInf (laneDraw s siteWr i) v).bits

/-- A row of at most 128 elements is converted element by element, which changes the generators alone. -/
theorem convRow_eq (s : State) (b : Bench) (fmt n : Nat) (v : Nat → FVal) (hn : n ≤ 128) :
    ∃ fl g, convRow s b fmt (fun _ => false) ((natsTo n).map v) =
      ((natsTo n).map fun i => convCode s b fmt (v i) i, fl, { s with gen := g }) := by
  have hlen : ((natsTo n).map v).length = n := by simp
  obtain ⟨fl, g, h, -⟩ := laneFold_eq (laneWise_convElem b fmt ((natsTo n).map v)) s n hn
  refine ⟨fl, g, ?_⟩
  have hfold : convRow s b fmt (fun _ => false) ((natsTo n).map v) =
      ((laneFold (convElem b fmt ((natsTo n).map v)) s n).1.reverse, (laneFold (convElem b fmt ((natsTo n).map v)) s n).2) := by
    unfold convRow
    rw [hlen]
    rfl
  rw [hfold, h, List.reverse_reverse, Prod.mk.injEq]
  refine ⟨List.map_congr_left fun i hi => ?_, rfl⟩
  have hi' : i < n := by simpa using hi
  simp [convElem, rnd, convCode, laneDraw, lget_map_natsTo _ _ _ _ hi', Nat.mod_eq_of_lt (hi'.trans_le hn)]

end Sys2Proof.Machine
end

section
/-! PROOFS. The statistics of a total (R107): the order of binary32 values and the largest of a row, and what the statistics of a total are. -/
namespace Sys2Proof.Machine

-- The order of values (R107).

/-- The exact value of a finite number. -/
def FVal.rat (neg : Bool) (m : Nat) (e : Int) : ℚ := (if neg then -(m : ℚ) else m) * 2 ^ e

/-- Where a value stands in the order: a NaN stands nowhere, and is given the place of 0. -/
noncomputable def FVal.place : FVal → EReal
  | .nan => 0
  | .inf neg => if neg then ⊥ else ⊤
  | .fin neg m e => ((FVal.rat neg m e : ℝ) : EReal)

theorem finUnits_cast {pt e : Int} (h : pt ≤ e) (neg : Bool) (m : Nat) : (finUnits pt neg m e : ℚ) * 2 ^ pt = FVal.rat neg m e := by
  have hpow : ((2 : ℚ) ^ (e - pt).toNat) * 2 ^ pt = 2 ^ e := by
    rw [← zpow_natCast, ← zpow_add₀ (by norm_num), Int.toNat_of_nonneg (by omega)]
    congr 1
    omega
  unfold finUnits FVal.rat
  cases neg <;> simp [Nat.shiftLeft_eq, mul_assoc, hpow]

theorem finUnits_lt_iff (na nb : Bool) (ma mb : Nat) (ea eb : Int) :
    finUnits (min ea eb) na ma ea < finUnits (min ea eb) nb mb eb ↔ FVal.rat na ma ea < FVal.rat nb mb eb := by
  rw [← finUnits_cast (min_le_left ea eb), ← finUnits_cast (min_le_right ea eb), mul_lt_mul_iff_left₀ (by positivity)]
  exact Int.cast_lt.symm

/-- The order of values is that of their places. -/
theorem ltX_iff {a b : FVal} (ha : a.isNan = false) (hb : b.isNan = false) : ltX a b = true ↔ a.place < b.place := by
  match a, b with
  | .nan, _ => simp [FVal.isNan] at ha
  | _, .nan => simp [FVal.isNan] at hb
  | .inf x, .inf y => cases x <;> cases y <;> simp [ltX, FVal.place]
  | .inf x, .fin .. => cases x <;> simp [ltX, FVal.place, EReal.bot_lt_coe]
  | .fin .., .inf y => cases y <;> simp [ltX, FVal.place, EReal.coe_lt_top]
  | .fin na ma ea, .fin nb mb eb =>
    simp only [ltX, FVal.place, decide_eq_true_eq, EReal.coe_lt_coe_iff, Rat.cast_lt]
    exact finUnits_lt_iff ..

/-- A value is none below another that stands no higher. -/
theorem ltX_eq_false {a b : FVal} (hb : a.isNan = false) (ha : b.isNan = false) (h : b.place ≤ a.place) : ltX a b = false := by
  rw [← Bool.not_eq_true, ltX_iff hb ha]
  exact not_lt.mpr h

theorem place_of_isZero {a : FVal} (h : a.isZero = true) : a.place = 0 := by
  match a with
  | .fin neg m e =>
    have hm : m = 0 := by simpa [FVal.isZero] using h
    cases neg <;> simp [FVal.place, FVal.rat, hm]

-- The largest entry (R107).

/-- The larger of two entries is one of them, and stands as high as both. -/
theorem f32Max2_spec {x y : W32} (hx : (f32 x).isNan = false) (hy : (f32 y).isNan = false) :
    (f32Max2 x y = x ∨ f32Max2 x y = y) ∧ (f32 x).place ≤ (f32 (f32Max2 x y)).place ∧ (f32 y).place ≤ (f32 (f32Max2 x y)).place := by
  unfold f32Max2
  dsimp only
  split
  next hz =>
    obtain ⟨hzx, hzy⟩ := Bool.and_eq_true_iff.mp hz
    have h : (f32 x).place = (f32 y).place := (place_of_isZero hzx).trans (place_of_isZero hzy).symm
    split
    · exact ⟨.inr rfl, h.le, le_rfl⟩
    · exact ⟨.inl rfl, le_rfl, h.ge⟩
  next =>
    split
    next hlt => exact ⟨.inr rfl, ((ltX_iff hx hy).mp hlt).le, le_rfl⟩
    next hlt => exact ⟨.inl rfl, le_rfl, not_lt.mp fun h => hlt ((ltX_iff hx hy).mpr h)⟩

theorem foldl_f32Max2_spec (l : List W32) (x : W32) (h : ∀ w ∈ x :: l, (f32 w).isNan = false) :
    l.foldl f32Max2 x ∈ x :: l ∧ ∀ w ∈ x :: l, (f32 w).place ≤ (f32 (l.foldl f32Max2 x)).place := by
  induction l generalizing x with
  | nil => simp
  | cons y l ih =>
    obtain ⟨hor, hx, hy⟩ := f32Max2_spec (h x (by simp)) (h y (by simp))
    have hm : f32Max2 x y ∈ x :: y :: l := by rcases hor with he | he <;> simp [he]
    obtain ⟨hmem, hle⟩ := ih (f32Max2 x y) fun w hw => by
      rcases List.mem_cons.mp hw with rfl | hw
      · exact h _ hm
      · exact h w (by simp [hw])
    have htop := hle (f32Max2 x y) (by simp)
    refine ⟨?_, fun w hw => ?_⟩
    · rcases List.mem_cons.mp hmem with he | hin
      · rw [List.foldl_cons, he]
        exact hm
      · simp [hin]
    · rcases List.mem_cons.mp hw with rfl | hw
      · exact hx.trans htop
      · rcases List.mem_cons.mp hw with rfl | hw
        · exact hy.trans htop
        · exact hle w (by simp [hw])

/-- The maximum of a row without NaN is an entry that none is above. -/
theorem maxF_spec {l : List W32} (hl : l ≠ []) (h : ∀ w ∈ l, (f32 w).isNan = false) :
    (maxF l).1 ∈ l ∧ ∀ w ∈ l, ltX (f32 (maxF l).1) (f32 w) = false := by
  obtain ⟨x, r, rfl⟩ := List.exists_cons_of_ne_nil hl
  have hmax : (maxF (x :: r)).1 = r.foldl f32Max2 x := by
    have : (x :: r).any (fun w => (f32 w).isNan) = false := by simpa using h
    simp [maxF, this]
  obtain ⟨hmem, hle⟩ := foldl_f32Max2_spec r x h
  rw [hmax]
  exact ⟨hmem, fun w hw => ltX_eq_false (h _ hmem) (h w hw) (hle w hw)⟩

/-- A NaN entry makes the maximum the canonical NaN. -/
theorem maxF_nan {l : List W32} (h : ∃ w ∈ l, (f32 w).isNan = true) : (maxF l).1 = 0x7FC00000 := by
  have : l.any (fun w => (f32 w).isNan) = true := by simpa using h
  simp only [maxF, this, if_true]
  rfl

-- The statistics of a total.

/-- The largest of integer words, and their sum, which saturates. -/
theorem totalStats_i32 {oi : Bool} {l : List W32} {n : Nat} (hn : 0 < n) (hl : n ≤ l.length) :
    (∀ w ∈ l.take n, i32 w ≤ i32 (totalStats oi (.i32 l) n).1) ∧ (totalStats oi (.i32 l) n).1 ∈ l.take n ∧
      (totalStats oi (.i32 l) n).2.1 = BitVec.ofInt 32 (max (-2147483648) (min 2147483647 ((l.take n).map i32).sum)) := by
  obtain ⟨x, r, hx⟩ := List.exists_cons_of_ne_nil (l := l.take n) (by
    rw [← List.length_pos_iff, List.length_take]
    omega)
  have hmax : (r.map i32).foldl max (i32 x) ∈ i32 x :: r.map i32 ∧ ∀ i ∈ i32 x :: r.map i32, i ≤ (r.map i32).foldl max (i32 x) :=
    List.max?_eq_some_iff.mp List.max?_cons'
  obtain ⟨hmem, hle⟩ := hmax
  rw [← List.map_cons] at hmem hle
  obtain ⟨w, hw, he⟩ := List.mem_map.mp hmem
  have htop : (totalStats oi (.i32 l) n).1 = w := by
    simp only [totalStats, hx, List.map_cons]
    rw [← he, i32, BitVec.ofInt_toInt]
  refine ⟨fun v hv => ?_, ?_, ?_⟩
  · rw [htop, he]
    exact hle _ (List.mem_map_of_mem (hx ▸ hv))
  · rw [htop, hx]
    exact hw
  · simp only [totalStats, sat32_eq, List.sum_eq_foldl]

/-- The largest of binary32 words, and their tree sum. -/
theorem totalStats_float {oi : Bool} {t : Total} {n : Nat} (hn : 0 < n) (ht : ∀ l, t ≠ .i32 l) :
    let words := (natsTo n).map (totalWord t)
    (totalStats oi t n).2.1 = (treeSum oi words).1 ∧
      ((∃ w ∈ words, (f32 w).isNan = true) → (totalStats oi t n).1 = 0x7FC00000) ∧
      ((∀ w ∈ words, (f32 w).isNan = false) →
        (totalStats oi t n).1 ∈ words ∧ ∀ w ∈ words, ltX (f32 (totalStats oi t n).1) (f32 w) = false) := by
  have hne : (natsTo n).map (totalWord t) ≠ [] := by
    rw [← List.length_pos_iff]
    simpa using hn
  have hst : totalStats oi t n = ((maxF ((natsTo n).map (totalWord t))).1, (treeSum oi ((natsTo n).map (totalWord t))).1,
      (maxF ((natsTo n).map (totalWord t))).2 ||| (treeSum oi ((natsTo n).map (totalWord t))).2) := by
    cases t with
    | i32 l => exact absurd rfl (ht l)
    | i64 lo hi => rfl
    | f32 l => rfl
  dsimp only
  rw [hst]
  exact ⟨rfl, maxF_nan, maxF_spec hne⟩

end Sys2Proof.Machine
end

section
/-! PROOFS. What the read of a drained total may change (R97, R98, R105, R106), and what the writer may (R257, R262, R269, R299). -/
namespace Sys2Proof.Machine

variable {s t u : State} {uid pos k : Nat} {b : Bench} {r : Rec} {td row : Nat}

-- What a drain may change.

/-- State `t` is `s` but for what the read and the delivery of a total may change: the memories and the memory port, the fabric, vector results
on their way, free values used, generators, registers, a halt asked for, and causes of events that have been added. -/
structure Drains (s t : State) : Prop where
  frame : t = { s with acc := t.acc, vec := t.vec, spad := t.spad, rings := t.rings, wins := t.wins, memp := t.memp, fab := t.fab
                       free := t.free, gen := t.gen, regs := t.regs, cyc := t.cyc, ev := t.ev
                       seq := { s.seq with haltReq := t.seq.haltReq } }
  grows : EvGrows s t

theorem Drains.refl (s : State) : Drains s s := ⟨rfl, [], by simp⟩

theorem Drains.trans (h : Drains s t) (k : Drains t u) : Drains s u where
  frame := k.frame.trans (by rw [h.frame])
  grows := by
    obtain ⟨l, hl⟩ := h.grows
    obtain ⟨m, hm⟩ := k.grows
    exact ⟨l ++ m, by rw [hm, hl, List.append_assoc]⟩

theorem Drains.ite {c : Prop} [Decidable c] (h : Drains s t) (k : Drains s u) : Drains s (if c then t else u) := by
  split <;> assumption

theorem Drains.setAhead (h : Drains s t) (n : Nat) : Drains (setAhead s n) (setAhead t n) :=
  ⟨congrArg (Machine.setAhead · n) h.frame, h.grows⟩

/-- A change of anything of this but the event unit. -/
theorem drains_of_frame (h : t = { s with
    acc := t.acc, vec := t.vec, spad := t.spad, rings := t.rings, wins := t.wins, memp := t.memp, fab := t.fab, free := t.free, gen := t.gen
    regs := t.regs, cyc := t.cyc, seq := { s.seq with haltReq := t.seq.haltReq } }) : Drains s t where
  frame := h.trans (by rw [h])
  grows := ⟨[], by rw [h, List.append_nil]⟩

theorem drains_raise (s : State) (code arg : Nat) : Drains s (raise s code arg) := by
  unfold raise
  split
  · exact ⟨rfl, _, rfl⟩
  · exact .refl s

theorem drains_setReg (s : State) (o : Nat) (v : W32) : Drains s (setReg s o v) :=
  drains_of_frame ((setReg_frame s o v).trans (by rw [setReg_frame]))

theorem drains_reqHalt (s : State) (cause : Nat) (b : Bench) (pos : Nat) : Drains s (reqHalt s cause b pos) := by
  unfold reqHalt
  exact .ite (.refl s) (drains_of_frame rfl)

theorem drains_badFormat (s : State) (b : Bench) (pos : Nat) : Drains s (badFormat s b pos) :=
  (drains_raise ..).trans (drains_reqHalt ..)

/-- SLOT_SLIPs and halts of which the events have been added. -/
theorem Slips.drains (h : Slips s t) (hg : EvGrows s t) : Drains s t := ⟨h.frame.trans (by rw [h.frame]), hg⟩

theorem drains_slip (s : State) (b : Bench) (r : Rec) (cause expect found : Nat) : Drains s (slip s b r cause expect found) :=
  (slips_slip ..).drains (evGrows_of_evWith (slip_ev ..))

-- Reads by row number (R97, R98).

theorem drains_metaCheck (s : State) (b : Bench) (r : Rec) (m : Meta) (expect : Nat) : Drains s (metaCheck s b r m expect) := by
  unfold metaCheck
  extract_lets u
  have hu : Drains s u := by
    unfold u
    split
    · exact drains_slip ..
    · exact .refl s
  exact .ite (hu.trans (drains_reqHalt ..)) hu

theorem drains_takeRead (s : State) (n : Nat) : Drains s (takeRead s n).2 := by
  rcases takeRead_cases (s := s) n with h | h <;> rw [h]
  · exact drains_of_frame rfl
  · exact .refl s

theorem drains_pickCopy (s : State) (row : Nat) : Drains s (pickCopy s row).2 := by
  unfold pickCopy
  split
  · exact .refl s
  · exact drains_of_frame rfl

theorem drains_accDecode (s : State) (row key : Nat) : Drains s (accDecode s row key) := by
  unfold accDecode accUncorr
  refine .ite (.refl s) (.ite (drains_setReg ..) (.ite (.refl s) ?_))
  exact ((show Drains s (setMeta s row _) from drains_of_frame rfl).trans (drains_setReg ..)).trans (drains_raise ..)

theorem drains_accRead (s : State) (row : Nat) : Drains s (accRead s row).2 :=
  eachS_keeps (P := Drains s) (fun _ t ht => ht.trans (drains_accDecode t ..)) _ (.refl s)

theorem drains_drFree (s : State) (r : Rec) (row : Nat) : Drains s (drFree s r row) := .ite (drains_of_frame rfl) (.refl s)

-- The writer (R257, R262, R269, R299).

theorem slotWriteBytes_frame (s : State) (uid pos sec n : Nat) (bs : List Byte) :
    slotWriteBytes s uid pos sec n bs = { s with spad := (slotWriteBytes s uid pos sec n bs).spad } := by
  have h : eachS (natsFrom (sec / 2) ((sec + n - 1) / 2 + 1 - sec / 2)) (fun l s => touchWrite s l) s =
      { s with spad := (eachS (natsFrom (sec / 2) ((sec + n - 1) / 2 + 1 - sec / 2)) (fun l s => touchWrite s l) s).spad } :=
    eachS_keeps (P := fun t : State => t = { s with spad := t.spad }) (fun _ t ht => by rw [ht]; rfl) _ rfl
  exact foldTo_induction (fun _ (t : State) => t = { s with spad := t.spad }) n h fun _ (t : State) _ ht => by rw [ht]; rfl

theorem drains_slotWriteBytes (s : State) (uid pos sec n : Nat) (bs : List Byte) : Drains s (slotWriteBytes s uid pos sec n bs) :=
  drains_of_frame ((slotWriteBytes_frame ..).trans (by rw [slotWriteBytes_frame]))

theorem drains_setRing (s : State) (n : Nat) (g : Ring) : Drains s (setRing s n g) := drains_of_frame rfl

theorem drains_beginHalf (s : State) (n : Nat) : Drains s (beginHalf s n) := .ite (drains_setRing ..) (drains_setRing ..)

theorem drains_produceRow (s : State) (n tag : Nat) : Drains s (produceRow s n tag).2 := by
  unfold produceRow
  dsimp only
  split <;> exact drains_setRing ..

theorem drains_writerRing (s : State) (b : Bench) (pos td : Nat) (bs : List Byte) : Drains s (writerRing s b pos td bs) := by
  unfold writerRing
  extract_lets n g u v
  have hu : Drains s u := .ite (.refl s) (drains_beginHalf ..)
  exact .ite (drains_badFormat ..) ((hu.trans (drains_slotWriteBytes ..)).trans (drains_produceRow ..))

theorem drains_pushFlits (s : State) (n vc src : Nat) (fs : List Flit) : Drains s (pushFlits s n vc src fs) := drains_of_frame rfl

theorem drains_sendTagged (s : State) (tag port : Nat) (q : FReq) (h : Head) (body : List Sector) :
    Drains s (sendTagged s tag port q h body) := by
  unfold sendTagged
  extract_lets f u pk g
  have hu : Drains s u := drains_of_frame rfl
  exact .ite (hu.trans (drains_of_frame rfl)) (hu.trans (drains_pushFlits ..))

/-- A write that is answered with a failing status is dropped. -/
theorem drains_answerFail {q : FReq} (hr : q.isRead = false) (hc : q.isCmd = false) (s : State) (status : Nat) :
    Drains s (answerFail s q status) := by
  unfold answerFail
  refine .ite (drains_of_frame rfl) ?_
  dsimp only
  rw [if_neg (by simp [hc]), if_neg (by simp [hr])]
  exact drains_raise ..

theorem drains_sendReqOn {q : FReq} (hr : q.isRead = false) (hc : q.isCmd = false) (s : State) (port : Option Nat) (h : Head)
    (body : List Sector) : Drains s (sendReqOn s port q h body) := by
  unfold sendReqOn
  extract_lets f w e
  have hw : Drains s w := drains_of_frame rfl
  refine .ite (.ite (drains_answerFail hr hc ..) (.ite (drains_answerFail hr hc ..) ?_)) (.ite (drains_answerFail hr hc ..) hw)
  split
  · exact drains_sendTagged ..
  · exact hw

theorem drains_sendSplit {q : FReq} (hr : q.isRead = false) (hc : q.isCmd = false) (s : State) (h : Head) (n : Nat)
    (body : List Sector) : Drains s (sendSplit s q h n body) := by
  unfold sendSplit
  extract_lets e ports m packets u
  have hu : Drains s u := by
    unfold u
    rw [hr]
    exact .refl s
  exact foldTo_induction (fun _ t => Drains s t) packets hu fun j t _ ht =>
    ht.trans (drains_sendReqOn (q := { q with off := q.off + j, step := m }) hr hc ..)

theorem drains_writerWindow (s : State) (b : Bench) (pos td row : Nat) (bs : List Byte) : Drains s (writerWindow s b pos td row bs) := by
  unfold writerWindow
  extract_lets w win a off l
  refine .ite (drains_badFormat ..) (.ite (drains_of_frame rfl) ?_)
  split
  · exact drains_of_frame rfl
  · exact drains_sendSplit rfl rfl ..

theorem drains_writerMem (s : State) (b : Bench) (td row : Nat) (bs : List Byte) : Drains s (writerMem s b td row bs) :=
  .ite (drains_setReg ..) (eachS_keeps (P := Drains s) (fun _ _ ht => ht.trans (drains_of_frame rfl)) _ (.refl s))

theorem drains_writerOut (s : State) (b : Bench) (pos td row : Nat) (bs : List Byte) : Drains s (writerOut s b pos td row bs) := by
  unfold writerOut
  split
  · exact drains_slotWriteBytes ..
  · exact drains_writerRing ..
  · exact drains_writerWindow ..
  · exact drains_writerMem ..

end Sys2Proof.Machine
end

section
/-! PROOFS. The read of a total (R97, R98, R105) and its delivery (R106, R107): what both may change, and what they do where the rows pass
their check. -/
namespace Sys2Proof.Machine

variable {s t u : State} {uid pos k n row row2 : Nat} {b : Bench} {r : Rec} {pair : Bool}

-- What a delivery may change (R106, R107).

theorem accStick_frame (s : State) (fl : Flg) :
    accStick s fl = { s with regs := (accStick s fl).regs, cyc := (accStick s fl).cyc, ev := (accStick s fl).ev } := by
  unfold accStick
  dsimp only
  split
  · rw [raise_frame, stick_frame]
  · rw [stick_frame]

theorem regsKept_accStick (s : State) (fl : Flg) : RegsKept s (accStick s fl) [0x4404] := by
  intro o ho
  have ho' : o ≠ 0x4404 := by simpa using ho
  have h := reg_stick s 0x4404 o fl 0x3F ho'
  unfold accStick
  dsimp only
  split
  · rw [raise_frame]
    exact h
  · exact h

theorem drains_accStick (s : State) (fl : Flg) : Drains s (accStick s fl) := by
  unfold accStick
  have h : Drains s (stick s 0x4404 fl 0x3F) := drains_of_frame ((stick_frame ..).trans (by rw [stick_frame]))
  exact .ite (h.trans (drains_raise ..)) h

theorem drains_pushWrite (s : State) (w : AccWrite) : Drains s (pushWrite s w) := drains_of_frame rfl

theorem drCols_le (r : Rec) : drCols r ≤ 128 := by
  have h : rf r 0 5 7 < 2 ^ 7 := Nat.mod_lt _ (by decide)
  unfold drCols zeroIs
  split <;> omega

theorem drCols_pos (r : Rec) : 0 < drCols r := by
  unfold drCols zeroIs
  split <;> omega

/-- A total's row at the writer: its codes, and the generators and flags that their conversion leaves. -/
theorem drToWriter_eq (hheld : outHeld s b (drOtd r) = false) (k : Nat) (t : Total) : ∃ fl g, drToWriter s b r k t =
    writerOut (accStick { s with gen := g } fl) b r.pos (drOtd r) k
      (packCodes (tdFmt b (drOtd r)) ((natsTo (drCols r)).map fun j => convCode s b (tdFmt b (drOtd r)) (totalVal t j) j)) := by
  obtain ⟨fl, g, h⟩ := convRow_eq s b (tdFmt b (drOtd r)) (drCols r) (totalVal t) (drCols_le r)
  exact ⟨fl, g, by simp only [drToWriter, hheld, h]; rfl⟩

theorem drains_drToWriter (s : State) (b : Bench) (r : Rec) (k : Nat) (t : Total) : Drains s (drToWriter s b r k t) := by
  by_cases hheld : outHeld s b (drOtd r) = true
  · rw [drToWriter, if_pos hheld]
    exact .refl s
  · obtain ⟨fl, g, h⟩ := drToWriter_eq (r := r) (Bool.eq_false_iff.mpr hheld) k t
    rw [h]
    exact ((show Drains s { s with gen := g } from drains_of_frame rfl).trans (drains_accStick ..)).trans (drains_writerOut ..)

/-- The entry that an accumulator row takes of a total: a conversion draws from the write port's generators (R106). -/
def accWord (s : State) (b : Bench) (t : Total) (j : Nat) : W32 :=
  match t with
  | .f32 l => lget l 0 j
  | _ => BitVec.ofNat 32 (fmtEncode 7 (benchRnd b b.arnd) b.ovfInf (accDraw s j) (totalVal t j)).bits

/-- The lane of the accumulator's write port that takes entry j of a total. -/
def accLane (t : Total) (j : Nat) : LaneM W32 :=
  match t with
  | .f32 l => pure (lget l 0 j)
  | _ => lCvt32 (totalVal t j)

theorem siteValue_accLane (s : State) (b : Bench) (t : Total) (j : Nat) :
    siteValue s siteAcc (benchRnd b b.arnd) b.ovfInf (accLane t j) j = accWord s b t j := by
  cases t with
  | i32 l => exact siteValue_lCvt32 ..
  | i64 lo hi => exact siteValue_lCvt32 ..
  | f32 l => exact siteValue_pure ..

/-- The write of a total to its accumulator row (R106). -/
def drAccWrite (s : State) (b : Bench) (r : Rec) (k : Nat) (t : Total) : AccWrite :=
  { due := s.clk.slot + 1, row := tdAcc b (drOtd r) k, kind := .row, uid := b.uid, pos := r.pos
    lanes := (natsTo (drCols r)).map fun j => some (accWord s b t j)
    md := { fmt := 4, epoch := effEp b (drOtd r) (rf r 0 1 4), stale := false } }

theorem drToAcc_eq (s : State) (b : Bench) (r : Rec) (k : Nat) (t : Total) :
    ∃ fl g, drToAcc s b r k t = pushWrite (accStick { s with gen := g } fl) (drAccWrite s b r k t) := by
  obtain ⟨fl, g, h⟩ := runLanes_eq s siteAcc (drCols r) (benchRnd b b.arnd) b.ovfInf (accLane t)
  simp only [siteValue_accLane] at h
  have hx : drToAcc s b r k t =
      let x := runLanes s siteAcc (drCols r) (benchRnd b b.arnd) b.ovfInf (accLane t)
      pushWrite (accStick x.2.2 x.2.1) { drAccWrite s b r k t with lanes := x.1.map some } := by
    cases t <;> rfl
  refine ⟨fl, g, ?_⟩
  rw [hx]
  dsimp only
  rw [h, List.map_map]
  rfl

/-- The result of a total for its vector register (R106). -/
def drVecResult (s : State) (b : Bench) (r : Rec) (k : Nat) (t : Total) : VRes :=
  { due := s.clk.slot + 1, ord := 0, dst := .v (drOtd r + k), lanes := (natsTo (drCols r)).map fun j => some (totalWord t j)
    uid := b.uid, pos := r.pos }

/-- The write of a total's statistics to the statistics row (R107, R108). -/
def drStatWrite (s : State) (b : Bench) (r : Rec) (k : Nat) (t : Total) : AccWrite :=
  { due := s.clk.slot + 8, row := tdAcc b (drStd r) 0, kind := .row, uid := b.uid, pos := r.pos
    lanes := (natsTo 128).map fun j =>
      if j = 2 * k then some (totalStats b.ovfInf t (drCols r)).1
      else if j = 2 * k + 1 then some (totalStats b.ovfInf t (drCols r)).2.1
      else if 2 * drRows r ≤ j then some 0 else none
    md := { fmt := 7, epoch := effEp b (drStd r) (rf r 0 1 4), stale := false } }

theorem drStats_eq (s : State) (b : Bench) (r : Rec) (k : Nat) (t : Total) : drStats s b r k t =
    pushWrite (accStick s (totalStats b.ovfInf t (drCols r)).2.2) (drStatWrite s b r k t) := rfl

theorem drains_drStats (s : State) (b : Bench) (r : Rec) (k : Nat) (t : Total) : Drains s (drStats s b r k t) :=
  (drains_accStick ..).trans (drains_pushWrite ..)

theorem drains_drToAcc (s : State) (b : Bench) (r : Rec) (k : Nat) (t : Total) : Drains s (drToAcc s b r k t) := by
  obtain ⟨fl, g, h⟩ := drToAcc_eq s b r k t
  rw [h]
  exact ((show Drains s { s with gen := g } from drains_of_frame rfl).trans (drains_accStick ..)).trans (drains_pushWrite ..)

theorem drains_drDeliver (s : State) (b : Bench) (r : Rec) (k : Nat) (t : Total) : Drains s (drDeliver s b r k t) := by
  unfold drDeliver
  extract_lets u
  have hu : Drains s u := by
    unfold u
    split
    · exact drains_drToWriter ..
    · exact drains_of_frame rfl
    · exact drains_drToAcc ..
    · exact .refl s
  exact .ite (hu.trans (drains_drStats ..)) hu

/-- The read of a total changes no seam, channel, step or chunk, and nothing of the array. -/
theorem drains_drTotal (s : State) (b : Bench) (r : Rec) (k : Nat) (pair : Bool) : Drains s (drTotal s b r k pair) := by
  unfold drTotal
  extract_lets t expect p d m u q e n v w x
  have hd : Drains s d.2 := ((drains_takeRead ..).trans (drains_pickCopy ..)).trans (drains_accRead ..)
  have hu : Drains s u := hd.trans (drains_metaCheck ..)
  have hq : Drains s q.2 := by
    unfold q
    split
    · exact hu.trans (drains_pickCopy ..)
    · exact hu
  have he : Drains s e.2 := by
    unfold e
    split
    · exact hq.trans (drains_accRead ..)
    · exact hq
  have hv : Drains s v := .ite (he.trans (drains_metaCheck ..)) he
  have hw : Drains s w := .ite hv ((hv.trans (drains_of_frame rfl)).trans (drains_drDeliver ..))
  have hx : Drains s x := hw.trans (drains_drFree ..)
  exact .ite (drains_slip ..) (.ite (hx.trans (drains_drFree ..)) hx)

end Sys2Proof.Machine
end

section
/-! PROOFS. A total whose rows pass their check (R98, R105 to R107): its value, its delivery, and the rows that are unwritten again. -/
namespace Sys2Proof.Machine

variable {s t u : State} {uid pos j k n row row2 fmt expect : Nat} {b : Bench} {r : Rec} {pair : Bool}

-- Ports and rows (R97, R98).

/-- The state that has `n` more read ports of the slot taken. -/
def readsTaken (s : State) (n : Nat) : State :=
  { s with acc := { s.acc with portSlot := s.clk.slot, reads := (if s.acc.portSlot = s.clk.slot then s.acc.reads else 0) + n } }

/-- A record takes its ports where they are left for it. -/
theorem takeRead_inTurn (s : State) (uid pos n : Nat) : takeRead (inTurn s uid pos) n =
    if portsTaken s uid pos + n ≤ 4 then (true, readsTaken (inTurn s uid pos) n) else (false, inTurn s uid pos) := by
  by_cases hs : s.acc.portSlot = s.clk.slot <;> simp [takeRead, portsNow, portsTaken, inTurn, setAhead, readsTaken, hs]

/-- The entries of a row. -/
def rowWords (s : State) (row : Nat) : List W32 := (natsTo 128).map fun j => accEntry s row j

theorem lget_rowWords (s : State) (row : Nat) (hj : j < 128) : lget (rowWords s row) 0 j = accEntry s row j :=
  lget_map_natsTo _ _ _ _ hj

/-- A row of no seam, whose metadata pass the check of a read under `expect`. -/
structure RowSound (s : State) (row expect : Nat) : Prop where
  plain : rowSeam s row = false
  stale : (accMeta s row).stale = false
  written : (accMeta s row).fmt ≠ 0
  epoch : (accMeta s row).epoch = expect
  poison : (accMeta s row).poison = false

theorem RowSound.pickCopy (h : RowSound s row expect) : pickCopy s row = (row, s) := by
  have : s.seams.find? (fun e => inRowSet e.2 row) = none := by simpa [rowSeam] using h.plain
  simp [Machine.pickCopy, this]

theorem RowSound.metaCheck (h : RowSound s row expect) (b : Bench) (r : Rec) : metaCheck s b r (accMeta s row) expect = s := by
  simp [Machine.metaCheck, metaSlip, h.stale, h.written, h.epoch, h.poison]

theorem accRead_of_flips (h : s.acc.flips = []) (row : Nat) : accRead s row = (rowWords s row, s) := by
  simp [accRead, h, eachS, accDeliver, mget, popcount, rowWords]

-- The rows that DR_FREE leaves unwritten (R105).

/-- The rows of a total under DR_FREE. -/
def drFreed (s : State) (r : Rec) (pair : Bool) (row row2 : Nat) : State :=
  if pair then drFree (drFree s r row) r row2 else drFree s r row

theorem drFree_frame (s : State) (r : Rec) (row : Nat) :
    drFree s r row = { s with acc := { s.acc with md := (drFree s r row).acc.md } } := by
  unfold drFree
  split <;> rfl

theorem drFreed_frame (s : State) (r : Rec) (pair : Bool) (row row2 : Nat) :
    drFreed s r pair row row2 = { s with acc := { s.acc with md := (drFreed s r pair row row2).acc.md } } := by
  unfold drFreed
  split
  · exact (drFree_frame ..).trans (by rw [drFree_frame])
  · exact drFree_frame ..

theorem accMeta_drFree (s : State) (r : Rec) (row k : Nat) : accMeta (drFree s r row) k =
    if rf r 1 7 1 = 1 ∧ k = row then { accMeta s k with fmt := 0, passes := 0 } else accMeta s k := by
  unfold drFree
  by_cases h : rf r 1 7 1 = 1
  · by_cases hk : k = row <;> simp [h, hk, accMeta, setMeta]
  · simp [h]

theorem accMeta_drFreed (hrow : pair = false → row2 = row) (k : Nat) : accMeta (drFreed s r pair row row2) k =
    if rf r 1 7 1 = 1 ∧ (k = row ∨ k = row2) then { accMeta s k with fmt := 0, passes := 0 } else accMeta s k := by
  cases pair with
  | false => simp [drFreed, accMeta_drFree, hrow]
  | true =>
    simp only [drFreed, if_true, accMeta_drFree]
    by_cases h : rf r 1 7 1 = 1
    · simp only [h, true_and]
      by_cases h₂ : k = row2
      · rw [if_pos h₂, if_pos (Or.inr h₂)]
        split <;> rfl
      · simp only [h₂, if_false, or_false]
    · simp [h]

-- The read of a total.

/-- The first row of total k. -/
def drLoRow (b : Bench) (r : Rec) (k : Nat) (pair : Bool) : Nat := if pair then drRow b r (2 * k) else drRow b r k

/-- The last row of total k. -/
def drHiRow (b : Bench) (r : Rec) (k : Nat) (pair : Bool) : Nat := if pair then drRow b r (2 * k + 1) else drLoRow b r k pair

/-- The total of these rows. -/
def rowTotal (s : State) (pair : Bool) (row row2 : Nat) : Total :=
  totalOf s pair (accMeta s row).fmt (rowWords s row) (if pair then rowWords s row2 else [])

/-- A total whose rows pass their check is delivered, and its rows are free. -/
theorem drTotal_sound (hport : takeRead s (if pair then 2 else 1) = (true, u)) (hflips : u.acc.flips = [])
    (h₁ : RowSound u (drLoRow b r k pair) (effEp b (drTd r) (rf r 0 1 4)))
    (h₂ : RowSound u (drHiRow b r k pair) (effEp b (drTd r) (rf r 0 1 4))) : drTotal s b r k pair =
      drFreed (drDeliver { u with free := u.free + 1 } b r k (rowTotal u pair (drLoRow b r k pair) (drHiRow b r k pair))) r pair
        (drLoRow b r k pair) (drHiRow b r k pair) := by
  cases pair with
  | false =>
    have hp := h₁.pickCopy
    have hm := h₁.metaCheck b r
    have hx := h₁.poison
    simp only [drLoRow, Bool.false_eq_true, if_false] at hp hm hx hport
    simp [drTotal, hport, drLoRow, hp, hm, hx, accRead_of_flips hflips, drFreed, rowTotal]
  | true =>
    have hp := h₁.pickCopy
    have hm := h₁.metaCheck b r
    have hx := h₁.poison
    have hp' := h₂.pickCopy
    have hm' := h₂.metaCheck b r
    have hx' := h₂.poison
    simp only [drLoRow, drHiRow, if_true] at hp hm hx hp' hm' hx' hport
    simp [drTotal, hport, drLoRow, drHiRow, hp, hm, hx, hp', hm', hx', accRead_of_flips hflips, drFreed, rowTotal]

-- The value of a total (R106).

theorem totalOf_wide (s : State) (h : pair = true ∧ fmt ∈ [1, 2, 3]) (lo hi : List W32) : totalOf s pair fmt lo hi = .i64 lo hi := by
  obtain ⟨rfl, hf⟩ := h
  have hf' : fmt = 1 ∨ fmt = 2 ∨ fmt = 3 := by simpa using hf
  rcases hf' with rfl | rfl | rfl <;> rfl

theorem totalOf_int (s : State) (h : pair = false ∧ fmt = 1) (lo hi : List W32) : totalOf s pair fmt lo hi = .i32 lo := by
  obtain ⟨rfl, rfl⟩ := h
  rfl

theorem totalOf_float (s : State) (hw : ¬ (pair = true ∧ fmt ∈ [1, 2, 3])) (hi : ¬ (pair = false ∧ fmt = 1))
    (hf : pair = false → fmt ≠ 2 ∧ fmt ≠ 3) (l l' : List W32) : totalOf s pair fmt l l' = .f32 l := by
  cases pair with
  | false =>
    obtain ⟨h₂, h₃⟩ := hf rfl
    simp [totalOf, h₂, h₃, show fmt ≠ 1 from fun h => hi ⟨rfl, h⟩]
  | true =>
    have h : ¬ (fmt = 1 ∨ fmt = 2 ∨ fmt = 3) := fun h => hw ⟨rfl, by simpa using h⟩
    rw [not_or, not_or] at h
    simp [totalOf, h]

/-- The value of entry j of a total: of an int64 pair, an int32 row, or a binary32 row. -/
def entryVal (s : State) (pair : Bool) (row row2 j : Nat) : FVal :=
  if pair = true ∧ (accMeta s row).fmt ∈ [1, 2, 3] then FVal.ofInt (int64Of (accEntry s row j) (accEntry s row2 j))
  else if pair = false ∧ (accMeta s row).fmt = 1 then FVal.ofInt (i32 (accEntry s row j)) else f32 (accEntry s row j)

/-- Entry j of a total as a register or a statistic takes it. -/
def entryWord (s : State) (pair : Bool) (row row2 j : Nat) : W32 :=
  if pair = true ∧ (accMeta s row).fmt ∈ [1, 2, 3] then BitVec.ofNat 32 (fmtEncode 7 .rne false 0 (entryVal s pair row row2 j)).bits
  else accEntry s row j

theorem totalVal_rowTotal (hf : pair = false → (accMeta s row).fmt ≠ 2 ∧ (accMeta s row).fmt ≠ 3) (hj : j < 128) :
    totalVal (rowTotal s pair row row2) j = entryVal s pair row row2 j := by
  unfold rowTotal entryVal
  by_cases hw : pair = true ∧ (accMeta s row).fmt ∈ [1, 2, 3]
  · rw [totalOf_wide s hw, if_pos hw, if_pos hw.1, totalVal, lget_rowWords s row hj, lget_rowWords s row2 hj]
  · rw [if_neg hw]
    by_cases hi : pair = false ∧ (accMeta s row).fmt = 1
    · rw [totalOf_int s hi, if_pos hi, totalVal, lget_rowWords s row hj]
    · rw [totalOf_float s hw hi hf, if_neg hi, totalVal, lget_rowWords s row hj]

theorem totalWord_rowTotal (hf : pair = false → (accMeta s row).fmt ≠ 2 ∧ (accMeta s row).fmt ≠ 3) (hj : j < 128) :
    totalWord (rowTotal s pair row row2) j = entryWord s pair row row2 j := by
  have hval := totalVal_rowTotal (row2 := row2) hf hj
  unfold rowTotal at hval ⊢
  unfold entryWord
  by_cases hw : pair = true ∧ (accMeta s row).fmt ∈ [1, 2, 3]
  · rw [totalOf_wide s hw] at hval ⊢
    rw [if_pos hw, totalWord, hval]
  · rw [if_neg hw]
    by_cases hi : pair = false ∧ (accMeta s row).fmt = 1
    · rw [totalOf_int s hi, totalWord, lget_rowWords s row hj]
    · rw [totalOf_float s hw hi hf, totalWord, lget_rowWords s row hj]

theorem accWord_i32 (s : State) (b : Bench) (l : List W32) (j : Nat) : accWord s b (.i32 l) j =
    BitVec.ofNat 32 (fmtEncode 7 (benchRnd b b.arnd) b.ovfInf (accDraw s j) (totalVal (.i32 l) j)).bits := rfl

theorem accWord_i64 (s : State) (b : Bench) (lo hi : List W32) (j : Nat) : accWord s b (.i64 lo hi) j =
    BitVec.ofNat 32 (fmtEncode 7 (benchRnd b b.arnd) b.ovfInf (accDraw s j) (totalVal (.i64 lo hi) j)).bits := rfl

/-- An accumulator row takes integers converted, and binary32 entries as they are. -/
theorem accWord_rowTotal (hf : pair = false → (accMeta s row).fmt ≠ 2 ∧ (accMeta s row).fmt ≠ 3) (hj : j < 128) (u : State) (b : Bench) :
    accWord u b (rowTotal s pair row row2) j =
      if (pair = true ∧ (accMeta s row).fmt ∈ [1, 2, 3]) ∨ pair = false ∧ (accMeta s row).fmt = 1 then
        BitVec.ofNat 32 (fmtEncode 7 (benchRnd b b.arnd) b.ovfInf (accDraw u j) (entryVal s pair row row2 j)).bits
      else accEntry s row j := by
  have hval := totalVal_rowTotal (row2 := row2) hf hj
  unfold rowTotal at hval ⊢
  by_cases hw : pair = true ∧ (accMeta s row).fmt ∈ [1, 2, 3]
  · rw [totalOf_wide s hw] at hval ⊢
    rw [if_pos (Or.inl hw), accWord_i64, hval]
  · by_cases hi : pair = false ∧ (accMeta s row).fmt = 1
    · rw [totalOf_int s hi] at hval ⊢
      rw [if_pos (Or.inr hi), accWord_i32, hval]
    · rw [totalOf_float s hw hi hf, if_neg (not_or.mpr ⟨hw, hi⟩), accWord, lget_rowWords s row hj]

-- The delivery of a total other than to the writer (R106, R107).

/-- State `t` is `s` with results and writes put on their way, and what their arithmetic changes. -/
structure Delivered (s t : State) (res : List VRes) (wq : List AccWrite) : Prop where
  frame : t = { s with acc := { s.acc with wq := s.acc.wq ++ wq }, vec := { s.vec with res := s.vec.res ++ res }, gen := t.gen
                       regs := t.regs, cyc := t.cyc, ev := t.ev }
  kept : RegsKept s t [0x4404]

theorem Delivered.refl (s : State) : Delivered s s [] [] := ⟨by simp, fun _ _ => rfl⟩

theorem Delivered.trans {res res' : List VRes} {wq wq' : List AccWrite} (h : Delivered s t res wq) (k : Delivered t u res' wq') :
    Delivered s u (res ++ res') (wq ++ wq') where
  frame := k.frame.trans (by rw [h.frame]; simp)
  kept o ho := (k.kept o ho).trans (h.kept o ho)

theorem delivered_accStick {g : SMap W32} (s : State) (fl : Flg) (w : AccWrite) :
    Delivered s (pushWrite (accStick { s with gen := g } fl) w) [] [w] where
  frame := by
    rw [accStick_frame, List.append_nil]
    rfl
  kept := regsKept_accStick { s with gen := g } fl

/-- What a drain gives to the vector engine. -/
def drResults (s : State) (b : Bench) (r : Rec) (k : Nat) (t : Total) : List VRes := if drDest r = 1 then [drVecResult s b r k t] else []

/-- The statistics that a drain writes to their row. -/
def drStatWrites (s : State) (b : Bench) (r : Rec) (k : Nat) (t : Total) : List AccWrite :=
  if drStat r then [drStatWrite s b r k t] else []

/-- What a drain writes to accumulator rows. -/
def drWrites (s : State) (b : Bench) (r : Rec) (k : Nat) (t : Total) : List AccWrite :=
  (if drDest r = 2 then [drAccWrite s b r k t] else []) ++ drStatWrites s b r k t

/-- The statistics of a total, where they are asked for. -/
theorem delivered_drStats (s : State) (b : Bench) (r : Rec) (k : Nat) (t : Total) :
    Delivered s (if drStat r then drStats s b r k t else s) [] (drStatWrites s b r k t) := by
  unfold drStatWrites
  split
  · rw [drStats_eq]
    exact delivered_accStick (g := s.gen) ..
  · exact .refl s

/-- A total that goes to a vector register, to an accumulator row, or nowhere. -/
theorem delivered_drDeliver (h : drDest r ≠ 0) (s : State) (b : Bench) (k : Nat) (t : Total) :
    Delivered s (drDeliver s b r k t) (drResults s b r k t) (drWrites s b r k t) := by
  have hstat {u : State} {res : List VRes} {wq : List AccWrite} (hu : Delivered s u res wq) :
      Delivered s (if drStat r then drStats u b r k t else u) res (wq ++ drStatWrites s b r k t) := by
    have hw : drStatWrites u b r k t = drStatWrites s b r k t := by rw [hu.frame]; rfl
    have := hu.trans (delivered_drStats u b r k t)
    rwa [hw, List.append_nil] at this
  unfold drDeliver drResults drWrites
  split
  next h0 => exact absurd h0 h
  next h1 =>
    rw [if_pos h1, if_neg (show drDest r ≠ 2 by omega)]
    exact hstat ⟨by rw [List.append_nil]; rfl, fun _ _ => rfl⟩
  next h2 =>
    rw [if_neg (show drDest r ≠ 1 by omega), if_pos h2]
    obtain ⟨fl, g, he⟩ := drToAcc_eq s b r k t
    rw [he]
    exact hstat (delivered_accStick ..)
  next h0 h1 h2 =>
    rw [if_neg h1, if_neg h2]
    exact hstat (.refl s)

-- The delivery of a total to the scratchpad (R106, R262).

theorem eachS_rel {α : Type} {R : State → State → Prop} {f : α → State → State} (hf : ∀ a s t, R s t → R (f a s) (f a t)) (l : List α)
    (h : R s t) : R (eachS l f s) (eachS l f t) := by
  induction l generalizing s t with
  | nil => exact h
  | cons a l ih => exact ih (hf a s t h)

theorem foldTo_rel {R : State → State → Prop} {f : Nat → State → State} (hf : ∀ i s t, R s t → R (f i s) (f i t)) (n : Nat) (h : R s t) :
    R (foldTo n f s) (foldTo n f t) := by
  induction n with
  | zero => exact h
  | succ n ih =>
    rw [foldTo_succ, foldTo_succ]
    exact hf n _ _ ih

/-- Two states whose scratchpad a slot-timed write finds alike. -/
def SameSpad (s t : State) : Prop := s.spad = t.spad ∧ s.clk = t.clk

theorem SameSpad.touchWrite (h : SameSpad s t) (line : Nat) : SameSpad (touchWrite s line) (touchWrite t line) :=
  ⟨by simp only [Machine.touchWrite, h.1], h.2⟩

theorem SameSpad.slotWrite (h : SameSpad s t) (uid pos sec : Nat) (d : BitVec 256) :
    SameSpad (slotWrite s uid pos sec d) (slotWrite t uid pos sec d) :=
  ⟨by simp only [Machine.slotWrite, h.1, h.2], h.2⟩

/-- What a row written to the scratchpad makes of it follows from the scratchpad and the slot alone. -/
theorem slotWriteBytes_spad (h : SameSpad s t) (uid pos sec n : Nat) (bs : List Byte) :
    (slotWriteBytes s uid pos sec n bs).spad = (slotWriteBytes t uid pos sec n bs).spad := by
  unfold slotWriteBytes
  refine (foldTo_rel (R := SameSpad) ?_ n (eachS_rel (R := SameSpad) ?_ _ h)).1
  · exact fun i s t h => h.slotWrite ..
  · exact fun l s t h => h.touchWrite l

/-- State `t` is `s` with a row of the scratchpad written, and what the conversion to its format changes. -/
structure SpadWritten (s t : State) (spad : Spad) : Prop where
  frame : t = { s with spad := spad, gen := t.gen, regs := t.regs, cyc := t.cyc, ev := t.ev }

/-- The bytes of a total's row in the format of its output descriptor. -/
def drBytes (s : State) (b : Bench) (r : Rec) (t : Total) : List Byte :=
  packCodes (tdFmt b (drOtd r)) ((natsTo (drCols r)).map fun j => convCode s b (tdFmt b (drOtd r)) (totalVal t j) j)

/-- The scratchpad once total k has been written there. -/
def drSpad (s : State) (b : Bench) (r : Rec) (k : Nat) (t : Total) : Spad :=
  (slotWriteBytes s b.uid r.pos (tdSpad s b (drOtd r) k / 32) (((drBytes s b r t).length + 31) / 32) (drBytes s b r t)).spad

/-- A total whose output descriptor names the scratchpad. -/
theorem drToWriter_spad (hb : benchOf s b.uid = some b) (hkind : tdKind b (drOtd r) = 1) (k : Nat) (t : Total) :
    SpadWritten s (drToWriter s b r k t) (drSpad s b r k t) := by
  have hheld : outHeld s b (drOtd r) = false := by simp [outHeld, hb, hkind]
  obtain ⟨fl, g, h⟩ := drToWriter_eq hheld k t
  obtain ⟨u, hu⟩ : ∃ u, u = accStick { s with gen := g } fl := ⟨_, rfl⟩
  have huf : u = { s with gen := u.gen, regs := u.regs, cyc := u.cyc, ev := u.ev } := by rw [hu, accStick_frame]
  have hout : drToWriter s b r k t =
      slotWriteBytes u b.uid r.pos (tdSpad u b (drOtd r) k / 32) (((drBytes s b r t).length + 31) / 32) (drBytes s b r t) := by
    rw [h, ← hu, writerOut, hkind]
    rfl
  have hplace : tdSpad u b (drOtd r) k = tdSpad s b (drOtd r) k := by rw [huf]; rfl
  have hspad : (drToWriter s b r k t).spad = drSpad s b r k t := by
    rw [hout, hplace]
    exact slotWriteBytes_spad ⟨by rw [huf], by rw [huf]⟩ ..
  refine ⟨?_⟩
  rw [← hspad, hout, slotWriteBytes_frame, huf]

end Sys2Proof.Machine
end

section
/-! PROOFS. DRAIN_READ (R105, R106, R108): what a drain's next read answers, malformed, waiting, without a port, or with its total. -/
namespace Sys2Proof.Machine

variable {s t u v w : State} {uid pos k n row row2 : Nat} {b : Bench} {r : Rec} {pair : Bool}

-- The branches of a read.

/-- The kind that a drain's first read finds (R105). -/
def drFmt (s : State) (b : Bench) (r : Rec) : Nat := (accMeta s (drRow b r 0)).fmt

/-- Whether the totals of a drain are pairs of rows: its first read finds it. -/
def drPair (s : State) (b : Bench) (r : Rec) : Bool := if r.n = 0 then drFmt s b r == 2 || drFmt s b r == 5 else r.pair

/-- The read ports that a total takes. -/
def drPorts (s : State) (b : Bench) (r : Rec) : Nat := if drPair s b r then 2 else 1

/-- A record that has read the last of its totals, malformed. -/
def drGone (r : Rec) : Rec := { r with n := drRows r, lost := true }

/-- A record past total k. -/
def drPast (k : Nat) (pair : Bool) (r : Rec) : Rec := { r with n := k + 1, pair := pair }

theorem drainStep_bad (hn : r.n = 0) (hbad : drBad b r (drFmt s b r) = true) :
    drainStep s b r = updRec (badFormat s b r.pos) b.uid r.pos drGone := by
  unfold drFmt at hbad
  simp only [drainStep, hn, hbad]
  rfl

theorem drainStep_blocked (hok : r.n ≠ 0 ∨ drBad b r (drFmt s b r) = false) (hdest : drDest r = 0)
    (hblocked : writerBlocked s b (drOtd r) = true) : drainStep s b r = writerFreeze s b (drOtd r) := by
  unfold drFmt at hok
  have hok' : (decide (r.n = 0) && drBad b r (accMeta s (drRow b r 0)).fmt) = false := by simpa [imp_iff_not_or] using hok
  simp only [drainStep, hok', hdest, hblocked]
  rfl

theorem drainStep_read (hok : r.n ≠ 0 ∨ drBad b r (drFmt s b r) = false) (hfree : drDest r ≠ 0 ∨ writerBlocked s b (drOtd r) = false) :
    drainStep s b r = updRec (drTotal s b r r.n (drPair s b r)) b.uid r.pos (drPast r.n (drPair s b r)) := by
  unfold drFmt at hok
  have hok' : (decide (r.n = 0) && drBad b r (accMeta s (drRow b r 0)).fmt) = false := by simpa [imp_iff_not_or] using hok
  have hfree' : (decide (drDest r = 0) && writerBlocked s b (drOtd r)) = false := by simpa [imp_iff_not_or] using hfree
  simp only [drainStep, hok', hfree']
  rfl

/-- A drain's next read, in its slot. -/
theorem answers_drainRead {P : State → Prop} (u : State) (h : RecNow s uid pos 3 b r) (hn : r.n < drRows r)
    (hd : drDue b r r.n ≤ s.clk.slot) (hu : setAhead (drainStep (inTurn s uid pos) b r) s.acc.ahead = u) (hq : u.pending = s.pending)
    (hv : u.variant = s.variant) (hP : ∀ pins, P { u with pins := pins }) : Answers (.drainRead uid pos) s P :=
  answers_onRec u h rfl (dueIf_of_true (decide_eq_true hn) _) hd hu hq hv hP

theorem recIn_updRec_now (h : RecNow s uid pos 3 b r) (hw : w.seq.benches = s.seq.benches) {f : Rec → Rec}
    (hf : ∀ r, (f r).pos = r.pos ∧ (f r).fin = r.fin) : recIn (updRec w uid pos f) uid pos = some (f r) := by
  rw [recIn_updRec hf, recIn_of_benches hw, recIn_of_recNow h]
  rfl

-- A malformed drain, and one that waits (R105, R106, R257).

theorem badFormat_frame (s : State) (b : Bench) (pos : Nat) : badFormat s b pos =
    { s with ev := evWith s 0x04 (recArg b pos % 65536), seq := { s.seq with haltReq := (badFormat s b pos).seq.haltReq } } := by
  unfold badFormat reqHalt
  rw [raise_eq _ _ _ (by decide)]
  split <;> rfl

/-- BAD_FORMAT halts with cause 2. -/
theorem haltsFor_badFormat (s : State) (b : Bench) (pos : Nat) : HaltsFor s (badFormat s b pos) 2 := by
  intro hact hreq
  have hact' : seqActive (raise s 0x04 (recArg b pos)) = true := by
    rw [raise_frame]
    exact hact
  simp [badFormat, reqHalt, hact', hreq]

theorem drainRead_bad (h : RecNow s uid pos 3 b r) (hn : r.n < drRows r) (hd : drDue b r r.n ≤ s.clk.slot) (h0 : r.n = 0)
    (hbad : drBad b r (drFmt s b r) = true) : Answers (.drainRead uid pos) s fun t =>
      t = { s with seq := t.seq, ev := t.ev, pins := t.pins } ∧ Caused t 0x04 ∧ HaltsFor s t 2 ∧ RecAtN t uid pos (drRows r) := by
  obtain ⟨w, hw⟩ : ∃ w, w = badFormat (inTurn s uid pos) b pos := ⟨_, rfl⟩
  have hwf : w = { inTurn s uid pos with ev := w.ev, seq := { s.seq with haltReq := w.seq.haltReq } } := by rw [hw, badFormat_frame]; rfl
  have hcaused : Caused w 0x04 := caused_of_evWith (s := inTurn s uid pos) (by rw [hw, badFormat_frame])
  have hhalt : HaltsFor s w 2 := hw ▸ haltsFor_badFormat (inTurn s uid pos) b pos
  have hg : setAhead (drainStep (inTurn s uid pos) b r) s.acc.ahead = updRec (setAhead w s.acc.ahead) uid pos drGone := by
    rw [drainStep_bad (s := inTurn s uid pos) h0 hbad, uid_of_recNow h, pos_of_recNow h, ← hw]
    rfl
  have hrec : recIn (updRec (setAhead w s.acc.ahead) uid pos drGone) uid pos = some (drGone r) :=
    recIn_updRec_now h (by show w.seq.benches = _; rw [hwf]) fun _ => ⟨rfl, rfl⟩
  refine answers_drainRead _ h hn hd hg ?_ ?_ fun pins => ⟨?_, hcaused, hhalt, map_recOf (·.n) hrec⟩
  · show w.pending = _
    rw [hwf]
    rfl
  · show w.variant = _
    rw [hwf]
    rfl
  · rw [hwf]
    rfl

theorem drainRead_blocked (h : RecNow s uid pos 3 b r) (hn : r.n < drRows r) (hd : drDue b r r.n ≤ s.clk.slot)
    (hok : r.n ≠ 0 ∨ drBad b r (drFmt s b r) = false) (hdest : drDest r = 0) (hblocked : writerBlocked s b (drOtd r) = true) :
    Answers (.drainRead uid pos) s fun t =>
      t = { s with seq := t.seq, pins := t.pins } ∧ t.seq.frzNext.drain = true ∧ RecAtN t uid pos r.n := by
  have hg : setAhead (drainStep (inTurn s uid pos) b r) s.acc.ahead = writerFreeze s b (drOtd r) := by
    rw [drainStep_blocked (s := inTurn s uid pos) hok hdest hblocked]
    rfl
  have hrec : recIn (writerFreeze s b (drOtd r)) uid pos = some r := (recIn_of_benches rfl).trans (recIn_of_recNow h)
  exact answers_drainRead _ h hn hd hg rfl rfl fun pins => ⟨rfl, rfl, map_recOf (·.n) hrec⟩

-- A read of a total (R97, R105).

/-- The read of a total leaves the record past it, and `w` of the rest. -/
theorem answers_drainTotal {P : State → Prop} (h : RecNow s uid pos 3 b r) (hn : r.n < drRows r) (hd : drDue b r r.n ≤ s.clk.slot)
    (hok : r.n ≠ 0 ∨ drBad b r (drFmt s b r) = false) (hfree : drDest r ≠ 0 ∨ writerBlocked s b (drOtd r) = false)
    (hw : setAhead (drTotal (inTurn s uid pos) b r r.n (drPair s b r)) s.acc.ahead = w)
    (hP : Drains s w → ∀ benches pins, RecAtN { w with seq := { w.seq with benches := benches }, pins := pins } uid pos (r.n + 1) →
      P { w with seq := { w.seq with benches := benches }, pins := pins }) : Answers (.drainRead uid pos) s P := by
  have hdr : Drains s w := hw ▸ (drains_drTotal (inTurn s uid pos) b r r.n (drPair s b r)).setAhead s.acc.ahead
  have hg : setAhead (drainStep (inTurn s uid pos) b r) s.acc.ahead = updRec w uid pos (drPast r.n (drPair s b r)) := by
    rw [drainStep_read (s := inTurn s uid pos) hok hfree, uid_of_recNow h, pos_of_recNow h, ← hw]
    rfl
  have hrec : recIn (updRec w uid pos (drPast r.n (drPair s b r))) uid pos = some (drPast r.n (drPair s b r) r) :=
    recIn_updRec_now h (by rw [hdr.frame]) fun _ => ⟨rfl, rfl⟩
  refine answers_drainRead _ h hn hd hg ?_ ?_ fun pins => hP hdr _ pins (map_recOf (·.n) hrec)
  · show w.pending = _
    rw [hdr.frame]
  · show w.variant = _
    rw [hdr.frame]

/-- A total whose ports are not left is lost, and SLOT_SLIP reports it. -/
theorem drTotal_lost (hport : ¬ portsTaken s uid pos + (if pair then 2 else 1) ≤ 4) :
    drTotal (inTurn s uid pos) b r k pair = slip (inTurn s uid pos) b r 4 0 0 := by
  simp only [drTotal, takeRead_inTurn, if_neg hport]
  exact if_pos rfl

theorem drainRead_lost (h : RecNow s uid pos 3 b r) (hn : r.n < drRows r) (hd : drDue b r r.n ≤ s.clk.slot)
    (hok : r.n ≠ 0 ∨ drBad b r (drFmt s b r) = false) (hfree : drDest r ≠ 0 ∨ writerBlocked s b (drOtd r) = false)
    (hport : ¬ portsTaken s uid pos + drPorts s b r ≤ 4) : Answers (.drainRead uid pos) s fun t =>
      t = { s with seq := t.seq, ev := t.ev, regs := t.regs, cyc := t.cyc, pins := t.pins } ∧ Caused t 0x05 ∧
      RegsKept s t [0x3014, 0x3018] ∧ RecAtN t uid pos (r.n + 1) := by
  obtain ⟨v, hv⟩ : ∃ v, v = setAhead (slip (inTurn s uid pos) b r 4 0 0) s.acc.ahead := ⟨_, rfl⟩
  have hs : Slips s v := hv ▸ (slips_slip (inTurn s uid pos) b r 4 0 0).setAhead s.acc.ahead
  have hcaused : Caused v 0x05 := hv ▸ caused_slip (inTurn s uid pos) b r 4 0 0
  have hw : setAhead (drTotal (inTurn s uid pos) b r r.n (drPair s b r)) s.acc.ahead = v := by
    rw [hv, drTotal_lost hport]
  refine answers_drainTotal h hn hd hok hfree hw fun _ benches pins hrec => ⟨?_, hcaused, hs.kept, hrec⟩
  rw [hs.frame]

-- A total whose rows pass their check (R98, R105 to R107).

/-- The first row of the total that a drain reads next. -/
def drRowOf (s : State) (b : Bench) (r : Rec) : Nat := drLoRow b r r.n (drPair s b r)

/-- The last row of the total that a drain reads next. -/
def drRow2Of (s : State) (b : Bench) (r : Rec) : Nat := drHiRow b r r.n (drPair s b r)

/-- The total that a drain reads next. -/
def drTotalOf (s : State) (b : Bench) (r : Rec) : Total := rowTotal s (drPair s b r) (drRowOf s b r) (drRow2Of s b r)

/-- The epoch that a drain expects in its rows. -/
def drEp (b : Bench) (r : Rec) : Nat := effEp b (drTd r) (rf r 0 1 4)

/-- The state that has read a total: its ports are taken, and a free value. -/
def drTaken (s : State) (n : Nat) : State := { readsTaken s n with free := s.free + 1 }

/-- The ports of the next total are left for it, and its rows pass their check, in a memory that stores no wrong bit. -/
structure TotalSound (s : State) (uid pos : Nat) (b : Bench) (r : Rec) : Prop where
  ports : portsTaken s uid pos + drPorts s b r ≤ 4
  flips : s.acc.flips = []
  lo : RowSound s (drRowOf s b r) (drEp b r)
  hi : RowSound s (drRow2Of s b r) (drEp b r)

theorem TotalSound.read (h : TotalSound s uid pos b r) : drTotal (inTurn s uid pos) b r r.n (drPair s b r) =
    drFreed (drDeliver (drTaken (inTurn s uid pos) (drPorts s b r)) b r r.n (drTotalOf s b r)) r (drPair s b r) (drRowOf s b r)
      (drRow2Of s b r) := by
  have hport : takeRead (inTurn s uid pos) (drPorts s b r) = (true, readsTaken (inTurn s uid pos) (drPorts s b r)) := by
    rw [takeRead_inTurn, if_pos h.ports]
  have hrow {row : Nat} (hr : RowSound s row (drEp b r)) : RowSound (readsTaken (inTurn s uid pos) (drPorts s b r)) row (drEp b r) :=
    ⟨hr.plain, hr.stale, hr.written, hr.epoch, hr.poison⟩
  exact drTotal_sound hport h.flips (hrow h.lo) (hrow h.hi)

/-- What the read of a total leaves that goes to a vector register, to an accumulator row, or nowhere. -/
structure TotalRead (s t : State) (b : Bench) (r : Rec) : Prop where
  frame : t = { s with
    acc := { s.acc with
      portSlot := s.clk.slot, reads := (if s.acc.portSlot = s.clk.slot then s.acc.reads else 0) + drPorts s b r
      md := t.acc.md, wq := s.acc.wq ++ drWrites s b r r.n (drTotalOf s b r) }
    vec := { s.vec with res := s.vec.res ++ drResults s b r r.n (drTotalOf s b r) }
    free := s.free + 1, gen := t.gen, regs := t.regs, cyc := t.cyc, ev := t.ev }
  kept : RegsKept s t [0x4404]
  freed : ∀ k, accMeta t k = if rf r 1 7 1 = 1 ∧ (k = drRowOf s b r ∨ k = drRow2Of s b r) then
    { accMeta s k with fmt := 0, passes := 0 } else accMeta s k

theorem drRow2Of_single (h : drPair s b r = false) : drRow2Of s b r = drRowOf s b r := by
  rw [drRow2Of, drHiRow, h]
  exact (congrArg (drLoRow b r r.n) h).symm

theorem TotalSound.totalRead (h : TotalSound s uid pos b r) (hdest : drDest r ≠ 0) :
    TotalRead s (setAhead (drTotal (inTurn s uid pos) b r r.n (drPair s b r)) s.acc.ahead) b r := by
  obtain ⟨v, hv⟩ : ∃ v, v = drTaken (inTurn s uid pos) (drPorts s b r) := ⟨_, rfl⟩
  obtain ⟨d, hd⟩ : ∃ d, d = drDeliver v b r r.n (drTotalOf s b r) := ⟨_, rfl⟩
  obtain ⟨f, hf⟩ : ∃ f, f = drFreed d r (drPair s b r) (drRowOf s b r) (drRow2Of s b r) := ⟨_, rfl⟩
  have hdel : Delivered v d (drResults v b r r.n (drTotalOf s b r)) (drWrites v b r r.n (drTotalOf s b r)) :=
    hd ▸ delivered_drDeliver hdest v b r.n _
  have hff : f = { d with acc := { d.acc with md := f.acc.md } } := by rw [hf]; exact drFreed_frame ..
  have hmeta (k : Nat) : accMeta d k = accMeta s k := by rw [hdel.frame, hv]; rfl
  rw [h.read, ← hv, ← hd, ← hf]
  refine ⟨?_, fun o ho => ?_, fun k => ?_⟩
  · rw [hff, hdel.frame, hv]
    rfl
  · have hreg : reg d o = reg s o := (hdel.kept o ho).trans (by rw [hv]; rfl)
    rw [← hreg, hff]
    rfl
  · rw [← hmeta k]
    exact hf ▸ accMeta_drFreed drRow2Of_single k

end Sys2Proof.Machine
end

section
/-! PROOFS. Drains (R97, R98, R105 to R108, R460): what a total leaves in the scratchpad, its statistics, and the settled statement. -/
namespace Sys2Proof.Machine

variable {s t v w : State} {uid pos j k n row row2 : Nat} {b : Bench} {r : Rec} {pair : Bool}

-- A total that goes to the scratchpad (R106, R262).

/-- What the read of a total leaves that goes to the scratchpad. -/
structure TotalStored (s t : State) (b : Bench) (r : Rec) : Prop where
  frame : t = { s with
    acc := { s.acc with
      portSlot := s.clk.slot, reads := (if s.acc.portSlot = s.clk.slot then s.acc.reads else 0) + drPorts s b r
      md := t.acc.md, wq := s.acc.wq ++ drStatWrites s b r r.n (drTotalOf s b r) }
    spad := drSpad s b r r.n (drTotalOf s b r), free := s.free + 1, gen := t.gen, regs := t.regs, cyc := t.cyc, ev := t.ev }

theorem drDeliver_writer (h : drDest r = 0) (s : State) (b : Bench) (k : Nat) (t : Total) :
    drDeliver s b r k t = if drStat r then drStats (drToWriter s b r k t) b r k t else drToWriter s b r k t := by
  simp only [drDeliver, h]

theorem TotalSound.totalStored (h : TotalSound s uid pos b r) (hb : benchOf s b.uid = some b) (hdest : drDest r = 0)
    (hkind : tdKind b (drOtd r) = 1) :
    TotalStored s (setAhead (drTotal (inTurn s uid pos) b r r.n (drPair s b r)) s.acc.ahead) b r := by
  obtain ⟨v, hv⟩ : ∃ v, v = drTaken (inTurn s uid pos) (drPorts s b r) := ⟨_, rfl⟩
  obtain ⟨x, hx⟩ : ∃ x, x = drToWriter v b r r.n (drTotalOf s b r) := ⟨_, rfl⟩
  obtain ⟨d, hd⟩ : ∃ d, d = drDeliver v b r r.n (drTotalOf s b r) := ⟨_, rfl⟩
  obtain ⟨f, hf⟩ : ∃ f, f = drFreed d r (drPair s b r) (drRowOf s b r) (drRow2Of s b r) := ⟨_, rfl⟩
  have hbv : benchOf v b.uid = some b := (benchOf_of_benches (s := s) (by rw [hv]; rfl)).trans hb
  have hspad : drSpad v b r r.n (drTotalOf s b r) = drSpad s b r r.n (drTotalOf s b r) := by
    rw [hv]
    exact slotWriteBytes_spad (s := drTaken (inTurn s uid pos) (drPorts s b r)) (t := s) ⟨rfl, rfl⟩ ..
  have hxf : x = { v with spad := drSpad s b r r.n (drTotalOf s b r), gen := x.gen, regs := x.regs, cyc := x.cyc, ev := x.ev } := by
    have := (drToWriter_spad hbv hkind r.n (drTotalOf s b r)).frame
    rwa [hspad, ← hx] at this
  have hdel : Delivered x d [] (drStatWrites x b r r.n (drTotalOf s b r)) := by
    rw [hd, drDeliver_writer hdest, ← hx]
    exact delivered_drStats ..
  have hstat : drStatWrites x b r r.n (drTotalOf s b r) = drStatWrites s b r r.n (drTotalOf s b r) := by
    rw [hxf, hv]
    rfl
  have hff : f = { d with acc := { d.acc with md := f.acc.md } } := by rw [hf]; exact drFreed_frame ..
  rw [h.read, ← hv, ← hd, ← hf]
  refine ⟨?_⟩
  rw [hstat] at hdel
  rw [hff, hdel.frame, hxf, hv, List.append_nil]
  rfl

-- The statistics (R107).

theorem take_natsTo (h : n ≤ k) : (natsTo k).take n = natsTo n := by
  simp [natsTo, natsFrom_eq_range', ← List.range_eq_range', List.take_range, h]

theorem take_rowWords (s : State) (row : Nat) (h : n ≤ 128) : (rowWords s row).take n = (natsTo n).map fun j => accEntry s row j := by
  rw [rowWords, ← List.map_take, take_natsTo h]

/-- The words of a total's first n entries. -/
def entryWords (s : State) (pair : Bool) (row row2 n : Nat) : List W32 := (natsTo n).map (entryWord s pair row row2)

theorem map_totalWord_rowTotal (hf : pair = false → (accMeta s row).fmt ≠ 2 ∧ (accMeta s row).fmt ≠ 3) (hn : n ≤ 128) :
    (natsTo n).map (totalWord (rowTotal s pair row row2)) = entryWords s pair row row2 n :=
  List.map_congr_left fun j hj => totalWord_rowTotal hf (Nat.lt_of_lt_of_le ((mem_natsTo n j).mp hj) hn)

/-- The statistics of an int32 total. -/
theorem totalStats_rowTotal_int {oi : Bool} (hi : pair = false ∧ (accMeta s row).fmt = 1) (hn : 0 < n) (hn' : n ≤ 128) :
    let words := entryWords s pair row row2 n
    let x := totalStats oi (rowTotal s pair row row2) n
    (∀ w ∈ words, i32 w ≤ i32 x.1) ∧ x.1 ∈ words ∧
      x.2.1 = BitVec.ofInt 32 (max (-2147483648) (min 2147483647 (words.map i32).sum)) := by
  have hwords : entryWords s pair row row2 n = (rowWords s row).take n := by
    rw [take_rowWords s row hn']
    exact List.map_congr_left fun j _ => if_neg (by simp [hi.1])
  dsimp only
  rw [hwords, rowTotal, totalOf_int s hi]
  exact totalStats_i32 hn (by simpa [rowWords] using hn')

/-- The statistics of any other. -/
theorem totalStats_rowTotal_float {oi : Bool} (hf : pair = false → (accMeta s row).fmt ≠ 2 ∧ (accMeta s row).fmt ≠ 3)
    (hx : pair = true ∨ (accMeta s row).fmt ≠ 1) (hn : 0 < n) (hn' : n ≤ 128) :
    let words := entryWords s pair row row2 n
    let x := totalStats oi (rowTotal s pair row row2) n
    x.2.1 = (treeSum oi words).1 ∧ ((∃ w ∈ words, (f32 w).isNan = true) → x.1 = 0x7FC00000) ∧
      ((∀ w ∈ words, (f32 w).isNan = false) → x.1 ∈ words ∧ ∀ w ∈ words, ltX (f32 x.1) (f32 w) = false) := by
  have hne : ∀ l, rowTotal s pair row row2 ≠ .i32 l := by
    have hi : ¬ (pair = false ∧ (accMeta s row).fmt = 1) := fun ⟨hp, h1⟩ => hx.elim (by simp [hp]) (absurd h1)
    intro l
    by_cases hw : pair = true ∧ (accMeta s row).fmt ∈ [1, 2, 3]
    · simp [rowTotal, totalOf_wide s hw]
    · simp [rowTotal, totalOf_float s hw hi hf]
  rw [← map_totalWord_rowTotal hf hn']
  exact totalStats_float hn hne

end Sys2Proof.Machine
end

section
/-! PROOFS. Drains (R97, R98, R105 to R108, R460): the lanes of what a drain writes, and the settled statement. -/
namespace Sys2Proof.Machine

variable {s t w : State} {uid pos j k row row2 : Nat} {b : Bench} {r : Rec} {pair : Bool}

theorem drVecResult_lanes (hf : pair = false → (accMeta s row).fmt ≠ 2 ∧ (accMeta s row).fmt ≠ 3) (b : Bench) (r : Rec) (k : Nat) :
    (drVecResult s b r k (rowTotal s pair row row2)).lanes = (entryWords s pair row row2 (drCols r)).map some := by
  rw [← map_totalWord_rowTotal hf (drCols_le r), List.map_map]
  rfl

theorem length_drAccWrite (s : State) (b : Bench) (r : Rec) (k : Nat) (t : Total) : (drAccWrite s b r k t).lanes.length = drCols r := by
  simp [drAccWrite]

/-- An accumulator row takes integers converted, and binary32 entries as they are. -/
theorem lget_drAccWrite (hf : pair = false → (accMeta s row).fmt ≠ 2 ∧ (accMeta s row).fmt ≠ 3) (b : Bench) (k : Nat) (hj : j < drCols r) :
    lget (drAccWrite s b r k (rowTotal s pair row row2)).lanes none j =
      if (pair = true ∧ (accMeta s row).fmt ∈ [1, 2, 3]) ∨ pair = false ∧ (accMeta s row).fmt = 1 then
        some (BitVec.ofNat 32 (fmtEncode 7 (benchRnd b b.arnd) b.ovfInf (accDraw s j) (entryVal s pair row row2 j)).bits)
      else some (accEntry s row j) := by
  rw [drAccWrite, lget_map_natsTo _ _ _ _ hj, accWord_rowTotal hf (Nat.lt_of_lt_of_le hj (drCols_le r))]
  split <;> rfl

theorem length_drStatWrite (s : State) (b : Bench) (r : Rec) (k : Nat) (t : Total) : (drStatWrite s b r k t).lanes.length = 128 := by
  simp [drStatWrite]

/-- Total k gives its maximum to entry 2k of the statistics row. -/
theorem lget_drStatWrite_top (s : State) (b : Bench) (r : Rec) (t : Total) (hk : 2 * k < 128) :
    lget (drStatWrite s b r k t).lanes none (2 * k) = some (totalStats b.ovfInf t (drCols r)).1 := by
  rw [drStatWrite, lget_map_natsTo _ _ _ _ hk, if_pos rfl]

/-- Total k gives its sum to entry 2k + 1 of the statistics row. -/
theorem lget_drStatWrite_sum (s : State) (b : Bench) (r : Rec) (t : Total) (hk : 2 * k < 128) :
    lget (drStatWrite s b r k t).lanes none (2 * k + 1) = some (totalStats b.ovfInf t (drCols r)).2.1 := by
  rw [drStatWrite, lget_map_natsTo _ _ _ _ (by omega), if_neg (by omega), if_pos rfl]

/-- The entries behind those of the last total are written with zeros, and those of other totals are kept. -/
theorem lget_drStatWrite_other (s : State) (b : Bench) (r : Rec) (t : Total) (hj : j < 128) (h : j ≠ 2 * k) (h' : j ≠ 2 * k + 1) :
    lget (drStatWrite s b r k t).lanes none j = if 2 * drRows r ≤ j then some 0 else none := by
  rw [drStatWrite, lget_map_natsTo _ _ _ _ hj, if_neg h, if_neg h']

/-- The codes of a total's row at the writer. -/
theorem drBytes_rowTotal (hf : pair = false → (accMeta s row).fmt ≠ 2 ∧ (accMeta s row).fmt ≠ 3) (b : Bench) (r : Rec) :
    drBytes s b r (rowTotal s pair row row2) = packCodes (tdFmt b (drOtd r))
      ((natsTo (drCols r)).map fun j => convCode s b (tdFmt b (drOtd r)) (entryVal s pair row row2 j) j) := by
  refine congrArg (packCodes _) (List.map_congr_left fun j hj => ?_)
  rw [totalVal_rowTotal hf (Nat.lt_of_lt_of_le ((mem_natsTo _ j).mp hj) (drCols_le r))]

/-- Settles O47: the first read finds a malformed drain, a target without room makes it wait, a total without ports is lost, and one whose
rows pass their check is delivered, summarised and freed, entry by entry. -/
theorem drainsReadTheirTotals : Obligations.DrainsReadTheirTotals := by
  intro s uid pos b r h hn hd
  have hu := uid_of_recNow h
  have hp := pos_of_recNow h
  refine ⟨fun h0 hbad => drainRead_bad h hn hd h0 hbad, fun hok => ⟨fun hdest hblocked => drainRead_blocked h hn hd hok hdest hblocked,
    fun hfree => ?_, fun hdest hslot hfull => ?_, ?_⟩⟩
  · refine answers_drainTotal h hn hd hok hfree rfl fun hdr benches pins hrec => ⟨hrec, hdr.grows, ?_⟩
    generalize setAhead _ _ = w at hdr
    rw [hdr.frame]
    exact ⟨rfl, rfl, rfl, rfl, rfl⟩
  · refine drainRead_lost h hn hd hok (.inl hdest) ?_
    have hports : portsTaken s uid pos = s.acc.reads + (stagesAhead s uid pos + vecAhead s uid pos) := by rw [portsTaken, if_pos hslot]
    have hfull' : s.acc.reads + drPorts s b r > 4 := hfull
    omega
  · intro row row2 m m2 expect lo wide val word words codes out hports hflips hrow hrow2 hst hst2 hfmt hfmt2 hep hep2 hpo hpo2 hkind
    have hsound : TotalSound s uid pos b r := ⟨hports, hflips, ⟨hrow, hst, hfmt, hep, hpo⟩, ⟨hrow2, hst2, hfmt2, hep2, hpo2⟩⟩
    have hkind' : drPair s b r = false → (accMeta s (drRowOf s b r)).fmt ≠ 2 ∧ (accMeta s (drRowOf s b r)).fmt ≠ 3 := hkind
    refine ⟨fun hdest => ?_, fun hdest hblocked htd => ?_⟩
    · refine answers_drainTotal h hn hd hok (.inl hdest) rfl fun hdr benches pins hrec => ?_
      have ht := hsound.totalRead hdest
      generalize setAhead _ _ = w at ht hdr
      refine ⟨?_, ht.kept, drVecResult s b r r.n (drTotalOf s b r), drAccWrite s b r r.n (drTotalOf s b r),
        drStatWrite s b r r.n (drTotalOf s b r), ?_, ?_, ht.freed, rfl, rfl, drVecResult_lanes hkind' b r r.n, rfl, rfl, rfl, hu, hp, rfl,
        length_drAccWrite .., fun j hj => lget_drAccWrite hkind' b r.n hj, rfl, rfl, rfl, hu, hp, rfl, length_drStatWrite ..,
        fun j hj h₁ h₂ => lget_drStatWrite_other s b r _ hj h₁ h₂, _, _,
        fun hk => ⟨lget_drStatWrite_top s b r _ hk, lget_drStatWrite_sum s b r _ hk⟩,
        fun hi => totalStats_rowTotal_int hi (drCols_pos r) (drCols_le r),
        fun hx => totalStats_rowTotal_float hkind' hx (drCols_pos r) (drCols_le r)⟩
      · rw [ht.frame]
      · rw [ht.frame]
        rfl
      · rw [ht.frame, List.append_assoc]
        rfl
    · refine answers_drainTotal h hn hd hok (.inr hblocked) rfl fun hdr benches pins hrec => ?_
      have ht := hsound.totalStored (benchOf_of_recNow h) hdest htd
      generalize setAhead _ _ = w at ht hdr
      refine ⟨?_, ?_, ?_, ?_, ?_, fun hstat => ?_⟩
      all_goals rw [ht.frame]
      · show drSpad s b r r.n (drTotalOf s b r) = _
        rw [drSpad, drTotalOf, drBytes_rowTotal hkind', hu, hp]
        rfl
      · show s.acc.wq ++ drStatWrites s b r r.n (drTotalOf s b r) = s.acc.wq
        rw [drStatWrites, hstat, if_neg Bool.false_ne_true, List.append_nil]

end Sys2Proof.Machine
end

section
/-! PROOFS. Accesses to a register that have an operation of their own (R131, R202, R435): how a write and a read answer where no write to
the register came before in the PCLK cycle; and what the tile's update of an RW field leaves (R19). -/
namespace Sys2Proof.Machine

variable {s : State} {p : Port} {off o lo len : Nat} {c : Instr} {val m v : W32}

/-- A performed write whose order in its PCLK cycle does not matter. -/
theorem answers_performed {f : State → State} {P : State → Prop} (u : State) (hx : exec c s = act s (access p off f))
    (hp : Performed s p off) (hu : f s = u) (hq : u.pending = s.pending) (hv : u.variant = s.variant)
    (hP : ∀ pins, P { u with mb := ackedMb u p u.mb.rdata, pins := pins }) : Answers c s P :=
  answers_of_effect (portAck p u) hx ((access_performed s p off f hp).trans (congrArg (portAck p) hu)) hq hv hP

/-- A write that no write to its register came before: nothing but the record of the cycle is added to what the write does. -/
theorem answers_writeAlone {f : State → State} {P : State → Prop} (u : State) (hx : exec c s = act s (accessW p off val f))
    (hr : Reached s p off) (hu : f s = u) (hq : u.pending = s.pending) (hv : u.variant = s.variant)
    (hP : ∀ cyc pins, P { u with mb := ackedMb u p u.mb.rdata, cyc := cyc, pins := pins }) : Answers c s P := by
  have hw := accessW_reached s p off val f hr
  rw [hu] at hw
  exact answers_of_effect _ hx hw hq hv fun pins => hP _ pins

/-- A write that is refused with TABLE_BUSY changes nothing. -/
theorem answers_writeBusy {f : State → State} (hx : exec c s = act s (accessW p off val f)) (hr : Reached s p off)
    (hu : f s = tableBusy s) : Answers c s fun t =>
      t = { s with mb := ackedMb s p s.mb.rdata, ev := t.ev, cyc := t.cyc, pins := t.pins } ∧ Caused t 0x0D :=
  answers_writeAlone _ hx hr (hu.trans (tableBusy_eq s)) rfl rfl fun _ _ => ⟨rfl, caused_of_evWith rfl⟩

/-- A write without effect. -/
theorem answers_writeVoid {f : State → State} (hx : exec c s = act s (accessW p off val f)) (hr : Reached s p off) (hu : f s = s) :
    Answers c s fun t => t = { s with mb := ackedMb s p s.mb.rdata, cyc := t.cyc, pins := t.pins } :=
  answers_writeAlone _ hx hr hu rfl rfl fun _ _ => rfl

/-- A read that no write to its register came before returns `v`, and leaves `u`. -/
theorem answers_readAlone {f : State → State} {P : State → Prop} (u : State) (v : W32) (hx : exec c s = act s (accessR p off f))
    (hr : Reached s p off) (hf : f s = setRdata u p v) (hmb : u.mb = s.mb) (hq : u.pending = s.pending) (hv : u.variant = s.variant)
    (hP : ∀ mb pins, mb = ackedMb u p mb.rdata → Reads s { u with mb := mb, pins := pins } p v →
      P { u with mb := mb, pins := pins }) : Answers c s P :=
  answers_read u v hx hr.1 ((if_neg (by simpa [Alone] using hr.2)).trans hf) hmb hq hv hP

/-- A read of a data register whose address names no word returns 0. -/
theorem answers_readVoid {f : State → State} (hx : exec c s = act s (accessR p off f)) (hr : Reached s p off)
    (hf : f s = setRdata s p 0) :
    Answers c s fun t => t = { s with mb := ackedMb s p t.mb.rdata, pins := t.pins } ∧ Reads s t p 0 :=
  answers_readAlone s 0 hx hr hf rfl rfl rfl fun mb pins hmb hread => ⟨by rw [← hmb], hread⟩

-- The tile's update of an RW field (R19).

theorem reg_setRw (s : State) (o o' : Nat) (m v : W32) :
    reg (setRw s o m v) o' = if o' = o then (reg s o &&& ~~~m) ||| (v &&& m) else reg s o' := by
  simp [setRw]
  simp [reg, putReg]

theorem regsKept_setRw (s : State) (o : Nat) (m v : W32) : RegsKept s (setRw s o m v) [o] := by
  intro o' ho
  simp_all [reg_setRw]

theorem setRw_setRdata (s : State) (o : Nat) (m v w : W32) :
    setRw (setRdata s p w) o m v = setRdata (setRw s o m v) p w := by
  unfold setRw tileUpd
  split <;> rfl

theorem testBit_fieldN {n : Nat} (w : BitVec n) (lo len i : Nat) :
    (fieldN w lo len).testBit i = (decide (i < len) && w.getLsbD (lo + i)) := by
  simp [fieldN, BitVec.getLsbD]

/-- A field that the mask covers is that of the new word. -/
theorem regF_setRw (s : State) (hm : ∀ i < len, m.getLsbD (lo + i) = true) :
    regF (setRw s o m v) o lo len = fieldN v lo len := by
  refine Nat.eq_of_testBit_eq fun i => ?_
  rw [regF, testBit_fieldN, testBit_fieldN, reg_setRw, if_pos rfl]
  by_cases hi : i < len
  · simp [hm i hi]
  · simp [hi]

end Sys2Proof.Machine
end

section
/-! PROOFS. The gate tables (R131): the address after an access, and a write and a read of GP_TBL_DATA. -/
namespace Sys2Proof.Machine

variable {s : State} {p : Port} {v : W32}

/-- GP_TBL_ADDR goes through the 192 coefficients in order, and around after the last. -/
theorem gpAddrNext_addr (h : regF s 0x5C0C 0 2 ≠ 3) :
    regF (gpAddrNext s) 0x5C0C 2 6 * 3 + regF (gpAddrNext s) 0x5C0C 0 2 =
      (regF s 0x5C0C 2 6 * 3 + regF s 0x5C0C 0 2 + 1) % 192 := by
  have hseg : regF s 0x5C0C 2 6 < 64 := Nat.mod_lt _ (by decide)
  have hcoef : regF s 0x5C0C 0 2 < 4 := Nat.mod_lt _ (by decide)
  rw [gpAddrNext, regF_setRw s (by decide), regF_setRw s (by decide)]
  generalize regF s 0x5C0C 2 6 = k at *
  generalize regF s 0x5C0C 0 2 = c at *
  simp only [fieldN, BitVec.toNat_ofNat, Nat.shiftRight_eq_div_pow]
  split
  · omega
  · omega

theorem mget_gpTblPut (s : State) (tbl bank k c j : Nat) (v : W32) :
    mget (gpTblPut s tbl bank k c v).gate.tbl none j =
      if j = tbl * 512 + bank * 256 + k * 4 + c then some v else mget s.gate.tbl none j := by
  simp [gpTblPut]

/-- The address names the active bank of its table, or one whose switch is pending. -/
theorem gpTblBusy_iff (s : State) : gpTblBusy s = true ↔
    regF s 0x5C0C 8 1 = b2n (if regF s 0x5C0C 9 1 = 1 then s.gate.bankTnh else s.gate.bankSig) ∨
      (if regF s 0x5C0C 9 1 = 1 then s.gate.pendTnh else s.gate.pendSig) = true := by
  unfold gpTblBusy regF
  by_cases htanh : fieldN (reg s 0x5C0C) 9 1 = 1 <;> simp [htanh]

theorem gpTblWrite_busy (h : regF s 0x5C0C 0 2 ≠ 3) (hb : gpTblBusy s = true) : gpTblWrite s v = tableBusy s :=
  if_pos (by simpa [regF, hb] using h)

theorem gpTblWrite_open (h : regF s 0x5C0C 0 2 ≠ 3) (hb : ¬ gpTblBusy s = true) : gpTblWrite s v =
    gpAddrNext (gpTblPut s (regF s 0x5C0C 9 1) (regF s 0x5C0C 8 1) (regF s 0x5C0C 2 6) (regF s 0x5C0C 0 2) v) :=
  (if_neg (by simp [hb])).trans (if_neg h)

theorem gpTblWrite_void (h : regF s 0x5C0C 0 2 = 3) : gpTblWrite s v = s :=
  (if_neg (by simp [show fieldN (reg s 0x5C0C) 0 2 = 3 from h])).trans (if_pos h)

theorem gpTblRead_eq (h : regF s 0x5C0C 0 2 ≠ 3) : gpTblRead s p = setRdata (gpAddrNext s) p (gpTblWord s) :=
  (if_neg h).trans (setRw_setRdata s _ _ _ _)

/-- A write of a coefficient to a bank that is open. -/
theorem answers_gpTblStore (hr : Reached s p 0x5C10) (hc : regF s 0x5C0C 0 2 ≠ 3) (hb : ¬ gpTblBusy s = true) :
    let key := regF s 0x5C0C 9 1 * 512 + regF s 0x5C0C 8 1 * 256 + regF s 0x5C0C 2 6 * 4 + regF s 0x5C0C 0 2
    Answers (.gpTblDataAccess p (some v)) s fun t =>
      t = { s with mb := ackedMb s p s.mb.rdata, gate := { s.gate with tbl := t.gate.tbl, badTbl := t.gate.badTbl }, regs := t.regs
                   cyc := t.cyc, pins := t.pins } ∧
      mget t.gate.tbl none key = some v ∧ (∀ k, k ≠ key → mget t.gate.tbl none k = mget s.gate.tbl none k) ∧
      regF t 0x5C0C 2 6 * 3 + regF t 0x5C0C 0 2 = (regF s 0x5C0C 2 6 * 3 + regF s 0x5C0C 0 2 + 1) % 192 ∧
      RegsKept s t [0x5C0C] := by
  intro key
  refine answers_writeAlone _ rfl hr (gpTblWrite_open hc hb) rfl rfl fun cyc pins =>
    ⟨rfl, ?_, fun k hk => ?_, gpAddrNext_addr hc, regsKept_setRw _ _ _ _⟩
  · exact (mget_gpTblPut s _ _ _ _ _ v).trans (if_pos rfl)
  · exact (mget_gpTblPut s _ _ _ _ _ v).trans (if_neg hk)

/-- A read of a coefficient. -/
theorem answers_gpTblRead (hr : Reached s p 0x5C10) (hc : regF s 0x5C0C 0 2 ≠ 3) :
    Answers (.gpTblDataAccess p none) s fun t =>
      t = { s with mb := ackedMb s p t.mb.rdata, regs := t.regs, cyc := t.cyc, pins := t.pins } ∧ Reads s t p (gpTblWord s) ∧
      regF t 0x5C0C 2 6 * 3 + regF t 0x5C0C 0 2 = (regF s 0x5C0C 2 6 * 3 + regF s 0x5C0C 0 2 + 1) % 192 ∧
      RegsKept s t [0x5C0C] := by
  refine answers_readAlone _ _ rfl hr (gpTblRead_eq hc) rfl rfl rfl fun mb pins hmb hread =>
    ⟨?_, hread, gpAddrNext_addr hc, regsKept_setRw _ _ _ _⟩
  rw [hmb]
  rfl

end Sys2Proof.Machine
end

section
/-! PROOFS. The banks of the table slots (R202): the address after an access, a write and a read of SFU_TBL_DATA, and the settled
statement about the coefficient tables. -/
namespace Sys2Proof.Machine

variable {s : State} {p : Port} {v : W32}

/-- WORD of SFU_TBL_ADDR goes up to 774, and around. -/
theorem sfuAddrNext_word (h : regF s 0x5008 0 10 < 775) :
    regF (sfuAddrNext s) 0x5008 0 10 = if regF s 0x5008 0 10 = 774 then 0 else regF s 0x5008 0 10 + 1 := by
  have hnext : fieldN (reg s 0x5008 + 1) 0 10 = (fieldN (reg s 0x5008) 0 10 + 1) % 1024 := by simp [fieldN]
  rw [sfuAddrNext, regF_setRw s (by decide)]
  unfold regF at *
  split
  · rfl
  · rw [hnext]
    omega

theorem sfuStored_sfuPut (s : State) (slot bank n : Nat) (v : W32) : sfuStored (sfuPut s slot bank n v) slot bank n = v := by
  simp [sfuStored, sfuPut]

theorem sfuTblWrite_busy (hn : regF s 0x5008 0 10 < 775)
    (hb : regF s 0x5008 10 1 = sfuBank s (regF s 0x5008 11 4) ∨ s.sfu.pend.testBit (regF s 0x5008 11 4) = true) :
    sfuTblWrite s v = tableBusy s :=
  if_pos (by simpa [hn] using hb)

theorem sfuTblWrite_open (hn : regF s 0x5008 0 10 < 775)
    (hb : ¬ (regF s 0x5008 10 1 = sfuBank s (regF s 0x5008 11 4) ∨ s.sfu.pend.testBit (regF s 0x5008 11 4) = true)) :
    sfuTblWrite s v = sfuAddrNext (sfuPut s (regF s 0x5008 11 4) (regF s 0x5008 10 1) (regF s 0x5008 0 10) v) :=
  (if_neg (by simpa [hn] using hb)).trans (if_neg (by omega))

theorem sfuTblWrite_void (hn : 775 ≤ regF s 0x5008 0 10) : sfuTblWrite s v = s :=
  (if_neg (by simp; omega)).trans (if_pos hn)

theorem sfuTblRead_eq (hn : regF s 0x5008 0 10 < 775) : sfuTblRead s p =
    setRdata (sfuAddrNext s) p (sfuStored s (regF s 0x5008 11 4) (regF s 0x5008 10 1) (regF s 0x5008 0 10)) :=
  (if_neg (by omega)).trans (setRw_setRdata s _ _ _ _)

/-- A write of a word to a bank that is open. -/
theorem answers_sfuTblStore (hr : Reached s p 0x500C) (hn : regF s 0x5008 0 10 < 775)
    (hb : ¬ (regF s 0x5008 10 1 = sfuBank s (regF s 0x5008 11 4) ∨ s.sfu.pend.testBit (regF s 0x5008 11 4) = true)) :
    let n := regF s 0x5008 0 10
    Answers (.sfuTblDataAccess p (some v)) s fun t =>
      t = { s with mb := ackedMb s p s.mb.rdata, sfu := { s.sfu with tbl := t.sfu.tbl, badTbl := t.sfu.badTbl }, regs := t.regs
                   cyc := t.cyc, pins := t.pins } ∧
      sfuStored t (regF s 0x5008 11 4) (regF s 0x5008 10 1) n = v ∧ regF t 0x5008 0 10 = (if n = 774 then 0 else n + 1) ∧
      RegsKept s t [0x5008] := by
  intro n
  refine answers_writeAlone _ rfl hr (sfuTblWrite_open hn hb) rfl rfl fun cyc pins =>
    ⟨rfl, sfuStored_sfuPut s _ _ n v, sfuAddrNext_word hn, regsKept_setRw _ _ _ _⟩

/-- A read of a word. -/
theorem answers_sfuTblRead (hr : Reached s p 0x500C) (hn : regF s 0x5008 0 10 < 775) :
    let n := regF s 0x5008 0 10
    Answers (.sfuTblDataAccess p none) s fun t =>
      t = { s with mb := ackedMb s p t.mb.rdata, regs := t.regs, cyc := t.cyc, pins := t.pins } ∧
      Reads s t p (sfuStored s (regF s 0x5008 11 4) (regF s 0x5008 10 1) n) ∧
      regF t 0x5008 0 10 = (if n = 774 then 0 else n + 1) ∧ RegsKept s t [0x5008] := by
  intro n
  refine answers_readAlone _ _ rfl hr (sfuTblRead_eq hn) rfl rfl rfl fun mb pins hmb hread =>
    ⟨?_, hread, sfuAddrNext_word hn, regsKept_setRw _ _ _ _⟩
  rw [hmb]
  rfl

/-- Settles O13: a data register's write is refused, stored, or without effect, as its address says, and its read returns the word. -/
theorem coefficientTablesKeepTheActiveBank : Obligations.CoefficientTablesKeepTheActiveBank := by
  refine fun s p v => ⟨fun hr hc => ⟨fun hb => ?_, fun hb => ?_, answers_gpTblRead hr hc⟩, fun hr hc => ⟨?_, ?_⟩,
    fun hr hn => ⟨fun hb => ?_, answers_sfuTblStore hr hn, answers_sfuTblRead hr hn⟩, fun hr hn => ⟨?_, ?_⟩⟩
  · exact answers_writeBusy rfl hr (gpTblWrite_busy hc ((gpTblBusy_iff s).mpr hb))
  · exact answers_gpTblStore hr hc fun h => hb ((gpTblBusy_iff s).mp h)
  · exact answers_writeVoid rfl hr (gpTblWrite_void hc)
  · exact answers_readVoid rfl hr (if_pos hc)
  · exact answers_writeBusy rfl hr (sfuTblWrite_busy hn hb)
  · exact answers_writeVoid rfl hr (sfuTblWrite_void hn)
  · exact answers_readVoid rfl hr (if_pos hn)

end Sys2Proof.Machine
end

section
/-! PROOFS. Requests that wait for a boundary (R131, R190, R202): the switches of banks, and the arm and the retirement of a recipe. -/
namespace Sys2Proof.Machine

variable {s : State} {p : Port} {v : W32}

/-- The slots that a write of SFU_SWAP asks to switch are added to those that wait. -/
theorem testBit_sfuSwapReq (s : State) (v : W32) (k : Nat) :
    (sfuSwapReq s v).sfu.pend.testBit k = (s.sfu.pend.testBit k || (decide (k < 16) && v.getLsbD k)) := by
  simp [sfuSwapReq, testBit_fieldN]

theorem mget_setDir (s : State) (n k : Nat) (e : RcpEntry) :
    mget (setDir s n e).vec.dir {} k = if k = n then e else mget s.vec.dir {} k := by
  simp [setDir]

theorem exec_recipeArm (h : bitB v 27 = true) : exec (.recipeArm p v) s = act s (accessW p 0x4818 v (rcpArm · v)) := by
  have hany : (rcpDirAny · v) = (rcpArm · v) := funext fun _ => if_pos h
  rw [← hany]
  exact congrArg (act s) (if_pos h)

theorem exec_recipeRetire (h26 : bitB v 26 = true) (h27 : bitB v 27 = false) :
    exec (.recipeRetire p v) s = act s (accessW p 0x4818 v (rcpRetire · v)) := by
  have hany : (rcpDirAny · v) = (rcpRetire · v) := funext fun _ => (if_neg (by simp [h27])).trans (if_pos h26)
  rw [← hany]
  exact congrArg (act s) (if_pos (by simp [h26, h27]))

/-- The arm of a recipe entry: refused while the entry is in use, and else its check begins. -/
theorem answers_recipeArm (hr : Reached s p 0x4818) (h27 : bitB v 27 = true) :
    let n := regF s 0x4814 0 6
    let e := mget s.vec.dir {} n
    let busy := e.valid = true ∨ e.pend = true ∨ e.checking = true
    (busy → Answers (.recipeArm p v) s fun t =>
      t = { s with mb := ackedMb s p s.mb.rdata, ev := t.ev, cyc := t.cyc, pins := t.pins } ∧ Caused t 0x0D) ∧
    (¬ busy → Answers (.recipeArm p v) s fun t =>
      t = { s with mb := ackedMb s p s.mb.rdata
                   vec := { s.vec with dir := t.vec.dir, checking := s.vec.checking ++ [n], checkT := t.vec.checkT }
                   cyc := t.cyc, pins := t.pins } ∧
      mget t.vec.dir {} n = { start := fieldN v 0 9, len := fieldN v 9 10, checking := true } ∧
      ∀ k, k ≠ n → mget t.vec.dir {} k = mget s.vec.dir {} k) := by
  intro n e busy
  refine ⟨fun hb => ?_, fun hb => ?_⟩
  · exact answers_writeBusy (exec_recipeArm h27) hr (if_pos (by simpa [busy, e, n, dirEntry, or_assoc] using hb))
  · have hidle : rcpArm s v = _ := if_neg (by simpa [busy, e, n, dirEntry, and_assoc] using hb)
    have hdir (k : Nat) := mget_setDir s n k { start := fieldN v 0 9, len := fieldN v 9 10, checking := true }
    exact answers_writeAlone _ (exec_recipeArm h27) hr hidle rfl rfl fun cyc pins =>
      ⟨rfl, (hdir n).trans (if_pos rfl), fun k hk => (hdir k).trans (if_neg hk)⟩

/-- The retirement of a recipe entry that is VALID. -/
theorem answers_recipeRetire (hr : Reached s p 0x4818) (h26 : bitB v 26 = true) (h27 : bitB v 27 = false)
    (hvalid : (mget s.vec.dir {} (regF s 0x4814 0 6)).valid = true) :
    Answers (.recipeRetire p v) s fun t =>
      t = { s with mb := ackedMb s p s.mb.rdata, vec := { s.vec with dir := t.vec.dir }, cyc := t.cyc, pins := t.pins } ∧
      let n := regF s 0x4814 0 6
      mget t.vec.dir {} n = { mget s.vec.dir {} n with retire := true } ∧
      ∀ k, k ≠ n → mget t.vec.dir {} k = mget s.vec.dir {} k := by
  refine answers_writeAlone _ (exec_recipeRetire h26 h27) hr (if_pos hvalid) rfl rfl fun cyc pins => ⟨rfl, ?_, fun k hk => ?_⟩
  · exact (mget_setDir s _ _ _).trans (if_pos rfl)
  · exact (mget_setDir s _ _ _).trans (if_neg hk)

/-- Settles O14: each request sets its mark, and touches neither a bank nor a recipe that is VALID. -/
theorem switchesAndRecipesWaitForABoundary : Obligations.SwitchesAndRecipesWaitForABoundary := by
  refine fun s p v => ⟨fun hp => ⟨?_, ?_⟩, fun hp => ?_, answers_recipeArm, answers_recipeRetire⟩
  · exact answers_performed _ rfl hp rfl rfl rfl fun _ => rfl
  · exact answers_performed _ rfl hp rfl rfl rfl fun _ => rfl
  · exact answers_performed _ rfl hp rfl rfl rfl fun _ => ⟨rfl, testBit_sfuSwapReq s v⟩

end Sys2Proof.Machine
end

section
/-! PROOFS. The mask instructions (R170, R174, R182, R187): the comparison codes, results on their way to a mask or a K register, and the
lanes' copies of the flags. -/
namespace Sys2Proof.Machine

variable {s u v : State} {run : Running} {b : Bench} {r : Rec} {w : W64} {c : Instr} {op lam : Nat} {dst : VDst}

-- Comparisons (R182).

/-- Of two values at most one is below the other. -/
theorem ltX_asymm (a b : FVal) (h : ltX a b = true) : ltX b a = false := by
  cases a <;> cases b
  case fin.fin na ma ea nb mb eb =>
    simp only [ltX, decide_eq_true_eq, decide_eq_false_iff_not] at h ⊢
    rw [min_comm eb ea]
    omega
  all_goals simp_all [ltX]

/-- A comparison code on LT and EQ alone. -/
def codeHolds (cc : Nat) (lt eq : Bool) : Bool :=
  match cc with | 0 => eq | 1 => !eq | 2 => lt | 3 => lt || eq | 4 => !(lt || eq) | _ => !lt

/-- GT and GE are the converses of LE and LT, where of `lt` and `gt` at most one holds, and EQ where none does. -/
theorem ccHolds_eq_codeHolds {lt eq gt : Bool} (cc : Nat) (h : lt = true → gt = false) (he : eq = (!lt && !gt)) :
    ccHolds cc lt eq gt = codeHolds cc lt eq := by
  have hgt : gt = !(lt || eq) := by revert h he; cases lt <;> cases eq <;> cases gt <;> decide
  have hge : (gt || eq) = !lt := by revert h he; cases lt <;> cases eq <;> cases gt <;> decide
  match cc with
  | 0 | 1 | 2 | 3 => rfl
  | 4 => exact hgt
  | _ + 5 => exact hge

theorem decide_eq_word (a b : W32) : decide (a = b) = (!decide (a.toInt < b.toInt) && !decide (b.toInt < a.toInt)) := by
  rw [Bool.eq_iff_iff]
  simp only [← BitVec.toInt_inj, decide_eq_true_eq, Bool.and_eq_true, Bool.not_eq_true', decide_eq_false_iff_not]
  omega

theorem cmpInt_eq (cc : Nat) (x y : W32) : cmpInt cc x y = (codeHolds cc (decide (x.toInt < y.toInt)) (decide (x = y)), 0) := by
  have hasymm : decide (i32 x < i32 y) = true → decide (i32 y < i32 x) = false := by
    simp only [decide_eq_true_eq, decide_eq_false_iff_not]
    omega
  exact Prod.ext (ccHolds_eq_codeHolds cc hasymm (decide_eq_word x y)) rfl

theorem cmpFloat_eq (cc : Nat) (x y : W32) : cmpFloat cc x y =
    if (f32 x).isNan || (f32 y).isNan then (decide (cc = 1), fNAN)
    else (codeHolds cc (ltX (f32 x) (f32 y)) (!ltX (f32 x) (f32 y) && !ltX (f32 y) (f32 x)), 0) := by
  unfold cmpFloat
  split
  · rfl
  · next hn =>
    have heq : eqX (f32 x) (f32 y) = (!ltX (f32 x) (f32 y) && !ltX (f32 y) (f32 x)) := by
      simp only [Bool.or_eq_true, not_or, Bool.not_eq_true] at hn
      simp [eqX, hn]
    rw [ccHolds_eq_codeHolds cc (ltX_asymm _ _) heq, heq]

-- Results on their way (R174).

/-- A result to a register of an instruction that leaves the generators and its lanes' flags changed. -/
theorem vFrame_pushRes {g : SMap W32} {fl : Nat → Flg} (h : FlagsSet { v with gen := g } u fl) (lanes : List (Option W32)) (pins : Pins) :
    VFrame { vGo (pushRes u b r lam dst lanes) run with pins := pins } v run :=
  vFrame_of_frame (u := pushRes u b r lam dst lanes) (by rw [h.frame]; rfl) h.kept pins

/-- The bit that a comparison gives lane k, and its flags. -/
def compareBit (f : Nat → W32 → W32 → Bool × Flg) (w : W64) (l : List (List W32)) (k : Nat) : W32 × Flg :=
  let x := f (vF w 0 3) (vIn l 0 k) (vIn l 1 k)
  (BitVec.ofNat 32 (b2n x.1), x.2)

theorem vCompare_lost {f : Nat → W32 → W32 → Bool × Flg} (h : (vSrcs s b r w 2).1 = none) :
    vCompare f s b r w = (vSrcs s b r w 2).2 := by
  simp [vCompare, h]

/-- A comparison whose sources are read sends the bit of every acting lane to its mask. -/
theorem vCompare_sends {f : Nat → W32 → W32 → Bool × Flg} {l : List (List W32)} (h : (vSrcs s b r w 2).1 = some l) :
    ∃ g, vCompare f s b r w =
      pushRes (vFlags { (vSrcs s b r w 2).2 with gen := g } (actFlags (vSrcs s b r w 2).2 w (compareBit f w l))) b r 2
        (.m (vF w 44 10 % 8)) (actValues (vSrcs s b r w 2).2 w (compareBit f w l)) := by
  have hval (k : Nat) : laneGives (vSrcs s b r w 2).2 b k (laneFlag (f (vF w 0 3) (vIn l 0 k) (vIn l 1 k)).2 >>= fun _ =>
      pure (BitVec.ofNat 32 (b2n (f (vF w 0 3) (vIn l 0 k) (vIn l 1 k)).1))) = compareBit f w l k := laneGives_flag ..
  obtain ⟨g, hg⟩ := vLanes_eq (vSrcs s b r w 2).2 b w fun k => laneFlag (f (vF w 0 3) (vIn l 0 k) (vIn l 1 k)).2 >>= fun _ =>
    pure (BitVec.ofNat 32 (b2n (f (vF w 0 3) (vIn l 0 k) (vIn l 1 k)).1))
  simp only [hval] at hg
  simp only [vIn] at hg
  exact ⟨g, by simp only [vCompare, h, hg]⟩

/-- A comparison: without a source it does nothing, and else every acting lane has its bit and its flags. -/
theorem answers_vCompare {f : Nat → W32 → W32 → Bool × Flg} (hx : ∀ s, exec c s = act s (vIssue op (vCompare f)))
    (hf : ∀ cc x y, (f cc x y).2 &&& 0x3F = (f cc x y).2) (h : VNow s op run b r) :
    let w := vWord s run
    let x := vSrcs (vTurn s b r) b r w 2
    (x.1 = none → Answers c s fun t => t = { vGo x.2 run with pins := t.pins }) ∧
    (∀ l, x.1 = some l → Answers c s fun t =>
      let v := x.2
      let val (k : Nat) : Bool × Flg := f (vF w 0 3) (vIn l 0 k) (vIn l 1 k)
      VFrame t v run ∧ t.acc = v.acc ∧
      (∀ k, k < 128 → BitVec.ofNat 8 (mget t.vec.flags 0 k) =
        BitVec.ofNat 8 (mget v.vec.flags 0 k) ||| (if vActs v w k then (val k).2 else 0)) ∧
      ∃ y : VRes, t.vec.res = v.vec.res ++ [y] ∧ y.due = v.clk.slot + 2 ∧ y.dst = .m (vF w 44 10 % 8) ∧
        ∀ k, k < 128 → lget y.lanes none k = if vActs v w k then some (BitVec.ofNat 32 (b2n (val k).1)) else none) := by
  intro w x
  have hsrc : EngineStep (vTurn s b r) x.2 := (sourceReads_vSrcs ..).engineStep
  refine ⟨fun hl => answers_vIssue _ h (hx s) (vCompare_lost hl) hsrc fun _ => rfl, fun l hl => ?_⟩
  obtain ⟨g, hg⟩ := vCompare_sends (f := f) hl
  obtain ⟨u, hu⟩ : ∃ u, u = vFlags { x.2 with gen := g } (actFlags x.2 w (compareBit f w l)) := ⟨_, rfl⟩
  have hset := hu ▸ flagsSet_vFlags { x.2 with gen := g } (actFlags x.2 w (compareBit f w l))
  have hstep : EngineStep x.2 u := hu ▸ EngineStep.trans (t := { x.2 with gen := g }) rfl (engineStep_vFlags ..)
  have hres : u.vec.res = x.2.vec.res := by rw [hset.frame]
  have hclk : u.clk = x.2.clk := by rw [hset.frame]
  refine answers_vIssue (pushRes u b r 2 (.m (vF w 44 10 % 8)) (actValues x.2 w (compareBit f w l))) h (hx s) (hu ▸ hg)
    (hsrc.trans (hstep.trans rfl)) fun pins => ⟨vFrame_pushRes hset _ pins, ?_, fun k hk => ?_,
      ⟨u.clk.slot + 2, u.vec.ord + 1, .m (vF w 44 10 % 8), actValues x.2 w (compareBit f w l), b.uid, r.pos⟩, ?_, ?_, rfl, fun k hk => ?_⟩
  · show u.acc = x.2.acc
    rw [hset.frame]
  · have hlane : lget (actFlags x.2 w (compareBit f w l)) 0 k = if vActs x.2 w k then (compareBit f w l k).2 else 0 :=
      lget_map_natsTo _ 0 128 k hk
    refine (hset.copies k).trans ?_
    rw [hlane]
    split
    · rw [compareBit, hf]
    · rfl
  · exact congrArg (· ++ _) hres
  · show u.clk.slot + 2 = _
    rw [hclk]
  · exact lget_map_natsTo (fun k => if vActs x.2 w k then some (compareBit f w l k).1 else none) none 128 k hk

-- Mask logic, counts and the copies of the flags.

/-- A result of an instruction that changes nothing else. -/
theorem answers_vIssue_pushRes {f : VFn} {lanes : List (Option W32)} (h : VNow s op run b r) (hx : exec c s = act s (vIssue op f))
    (hf : f (vTurn s b r) b r (vWord s run) = pushRes (vTurn s b r) b r lam dst lanes) : Answers c s fun t =>
      VFrame t (vTurn s b r) run ∧ t.acc = (vTurn s b r).acc ∧ t.regs = (vTurn s b r).regs ∧ t.vec.flags = (vTurn s b r).vec.flags ∧
      ∃ y : VRes, t.vec.res = (vTurn s b r).vec.res ++ [y] ∧ y.due = (vTurn s b r).clk.slot + lam ∧ y.dst = dst ∧ y.lanes = lanes :=
  answers_vIssue _ h hx hf rfl fun pins => ⟨vFrame_of_frame (u := pushRes (vTurn s b r) b r lam dst lanes) rfl (fun _ _ => rfl) pins,
    rfl, rfl, rfl, _, rfl, rfl, rfl, rfl⟩

theorem answers_maskLanes {f : VFn} {m : State → W64 → BitVec 128} (hx : ∀ s, exec c s = act s (vIssue op f))
    (hf : ∀ s b r w, f s b r w = pushRes s b r 1 (.m (vF w 44 10 % 8)) (maskLanes s w (m s w))) (h : VNow s op run b r) :
    let w := vWord s run
    let u := vTurn s b r
    Answers c s fun t =>
      VFrame t u run ∧ t.acc = u.acc ∧ t.regs = u.regs ∧ t.vec.flags = u.vec.flags ∧
      ∃ y : VRes, t.vec.res = u.vec.res ++ [y] ∧ y.due = u.clk.slot + 1 ∧ y.dst = .m (vF w 44 10 % 8) ∧
        ∀ k, k < 128 → lget y.lanes none k = if vActs u w k then some (BitVec.ofNat 32 (b2n ((m u w).getLsbD k))) else none := by
  obtain ⟨t, hnext, hframe, hacc, hregs, hflags, y, hres, hdue, hdst, hlanes⟩ := answers_vIssue_pushRes h (hx s) (hf ..)
  exact ⟨t, hnext, hframe, hacc, hregs, hflags, y, hres, hdue, hdst, fun k hk => by rw [hlanes]; exact lget_map_natsTo _ none 128 k hk⟩

/-- Bits set one by one, and powers of two added one by one. -/
theorem foldl_setBits (p : Nat → Bool) (n : Nat) :
    let sum := (natsTo n).foldl (fun m k => m + (if p k then 2 ^ k else 0)) 0
    (natsTo n).foldl (fun m k => if p k then m ||| (1#128 <<< k) else m) 0 = BitVec.ofNat 128 sum ∧ sum < 2 ^ n := by
  induction n with
  | zero => exact ⟨rfl, Nat.one_pos⟩
  | succ n ih =>
    obtain ⟨heq, hlt⟩ := ih
    have hbit : 1#128 <<< n = BitVec.ofNat 128 (2 ^ n) := BitVec.eq_of_toNat_eq (BitVec.toNat_twoPow 128 n)
    have hor := Nat.two_pow_add_eq_or_of_lt hlt 1
    simp only [natsTo_succ, List.foldl_append, List.foldl_cons, List.foldl_nil, heq, hbit]
    rw [mul_one] at hor
    split
    · rw [add_comm, ← BitVec.ofNat_or, Nat.or_comm, ← hor]
      exact ⟨rfl, by omega⟩
    · exact ⟨rfl, by omega⟩

theorem vFlagMask_eq (s : State) (b : Bench) (r : Rec) (w : W64) : vFlagMask s b r w =
    pushRes s b r 1 (.m (vF w 44 10 % 8)) (maskLanes s w (BitVec.ofNat 128 ((natsTo 128).foldl (fun m k =>
      m + (if (mget s.vec.flags 0 k).testBit (vF w 0 3) then 2 ^ k else 0)) 0))) :=
  congrArg (fun m => pushRes s b r 1 _ (maskLanes s w m)) (foldl_setBits (fun k => (mget s.vec.flags 0 k).testBit (vF w 0 3)) 128).1

/-- State `t` is `s` with the copies of the flags of the acting lanes below `n` cleared. -/
def CopiesCleared (s t : State) (w : W64) (n : Nat) : Prop :=
  ∃ fl, t = { s with vec := { s.vec with flags := fl } } ∧
    ∀ k, mget fl 0 k = if k < n ∧ vActs s w k = true then 0 else mget s.vec.flags 0 k

theorem copiesCleared_vFlagClear (s : State) (b : Bench) (r : Rec) (w : W64) : CopiesCleared s (vFlagClear s b r w) w 128 := by
  refine foldTo_induction (fun n t => CopiesCleared s t w n) 128 ⟨s.vec.flags, rfl, by simp⟩ ?_
  rintro n _ - ⟨fl, rfl, hfl⟩
  have hlt {k : Nat} (hk : k ≠ n) : k < n + 1 ↔ k < n := by omega
  by_cases ha : vActs s w n = true
  · refine ⟨mset fl 0 n 0, if_pos ha, fun k => ?_⟩
    rw [mget_mset, hfl]
    by_cases hk : k = n
    · simp [hk, ha]
    · simp [hk, hlt hk]
  · refine ⟨fl, if_neg ha, fun k => ?_⟩
    rw [hfl]
    by_cases hk : k = n
    · simp [hk, ha]
    · simp [hlt hk]

/-- Settles O55: a comparison sends the bits of its lanes, the others act on masks and copies of flags as they stand. -/
theorem maskInstructions : Obligations.MaskInstructions := by
  have hfloat (cc : Nat) (x y : W32) : (cmpFloat cc x y).2 &&& 0x3F = (cmpFloat cc x y).2 := by
    unfold cmpFloat
    split
    · exact (by decide : fNAN &&& 0x3F = fNAN)
    · exact (by decide : (0 : Flg) &&& 0x3F = 0)
  have hlogic {c : Instr} {op : Nat} {f : BitVec 128 → BitVec 128 → BitVec 128}
      (hx : ∀ s, exec c s = act s (vIssue op (vMaskLogic f))) {s : State} {run : Running} {b : Bench} {r : Rec} (h : VNow s op run b r) :=
    answers_maskLanes (m := fun s w => f (vMaskOp s (vF w 34 10)) (vMaskOp s (vF w 24 10))) hx (fun _ _ _ _ => rfl) h
  refine ⟨fun s run b r h => ?_, fun s run b r h => ?_, fun s run b r h => hlogic (fun _ => rfl) h,
    fun s run b r h => hlogic (fun _ => rfl) h, fun s run b r h => hlogic (fun _ => rfl) h,
    fun s run b r h => hlogic (f := fun x _ => ~~~x) (fun _ => rfl) h, fun s run b r h => ?_, fun s run b r => ⟨fun h => ?_, fun h => ?_⟩⟩
  · have hcmp := answers_vCompare (c := .vcmpi) (fun _ => rfl) (fun _ _ _ => (by decide : (0 : Flg) &&& 0x3F = 0)) h
    simp only [cmpInt_eq] at hcmp
    exact hcmp
  · have hcmp := answers_vCompare (c := .vcmpf) (fun _ => rfl) hfloat h
    simp only [cmpFloat_eq] at hcmp
    exact hcmp
  · exact answers_maskLanes (c := .mflg) (m := fun s w => BitVec.ofNat 128 ((natsTo 128).foldl (fun m k =>
      m + (if (mget s.vec.flags 0 k).testBit (vF w 0 3) then 2 ^ k else 0)) 0)) (fun _ => rfl) vFlagMask_eq h
  · obtain ⟨t, hnext, hframe, hacc, hregs, hflags, y, hres, hdue, hdst, hlanes⟩ :=
      answers_vIssue_pushRes (c := .mcnt) (f := vCount) h rfl rfl
    exact ⟨t, hnext, hframe, hacc, hregs, hflags, y, hres, hdue, hdst, by rw [hlanes]; rfl⟩
  · obtain ⟨fl, heq, hfl⟩ := copiesCleared_vFlagClear (vTurn s b r) b r (vWord s run)
    exact answers_vIssue _ h rfl heq rfl fun pins => ⟨rfl, fun k hk => (hfl k).trans (by simp [hk])⟩

end Sys2Proof.Machine
end

section
/-! PROOFS. What a read through a descriptor may change (R251, R256, R269, R419, R420): sectors and columns of the scratchpad, rows of a
ring, and rows that come through a window. -/
namespace Sys2Proof.Machine

variable {s t u : State} {b : Bench} {r : Rec} {td row n cons : Nat}

/-- State `t` is `s` but for what a read through a descriptor may change: the scratchpad, the fabric, the sequencer's benches, halts and
freezes, causes of events, registers, and the free values used. -/
def FeedReads (s t : State) : Prop :=
  t = { s with spad := t.spad, fab := t.fab, seq := t.seq, ev := t.ev, regs := t.regs, cyc := t.cyc, free := t.free }

theorem FeedReads.refl (s : State) : FeedReads s s := rfl

theorem FeedReads.trans (h : FeedReads s t) (k : FeedReads t u) : FeedReads s u := Eq.trans k (by rw [h])

theorem FeedReads.ite {c : Prop} [Decidable c] (h : FeedReads s t) (k : FeedReads s u) : FeedReads s (if c then t else u) := by
  split <;> assumption

theorem FeedReads.vec_eq (h : FeedReads s t) : t.vec = s.vec := by rw [h]

theorem feedReads_setReg (s : State) (o : Nat) (v : W32) : FeedReads s (setReg s o v) := (setReg_frame s o v).trans (by rw [setReg_frame])

theorem feedReads_raise (s : State) (code arg : Nat) : FeedReads s (raise s code arg) := (raise_frame s code arg).trans (by rw [raise_frame])

theorem Slips.feedReads (h : Slips s t) : FeedReads s t := h.frame.trans (by rw [h.frame])

theorem feedReads_badFormat (s : State) (b : Bench) (pos : Nat) : FeedReads s (badFormat s b pos) :=
  (feedReads_raise ..).trans (slips_reqHalt ..).feedReads

-- Sectors (R246 to R249, R419, R422).

theorem feedReads_countCorr (s : State) (cls : Nat) : FeedReads s (countCorr s cls) := .ite (feedReads_setReg ..) (feedReads_setReg ..)

theorem feedReads_corrected (s : State) (sec cls : Nat) (slotted : Bool) : FeedReads s (corrected s sec cls slotted) := by
  have h : FeedReads s (touchLine (countCorr s cls) (sec / 2)) := (feedReads_countCorr s cls).trans rfl
  exact .ite (h.trans rfl) h

theorem feedReads_poisonSector (s : State) (sec cls : Nat) (slotted : Bool) : FeedReads s (poisonSector s sec cls slotted) := by
  unfold poisonSector
  extract_lets sd u v w
  have hv : FeedReads s v := FeedReads.trans (t := u) rfl (feedReads_setReg ..)
  have hw : FeedReads v w := .ite (.refl v) (feedReads_setReg ..)
  exact .ite (.refl s) (hv.trans (hw.trans (feedReads_raise ..)))

theorem feedReads_turnWord (s : State) (wd : Nat) (f : W64) : FeedReads s (turnWord s wd f) := by
  unfold turnWord
  exact foldTo_keeps (FeedReads s) _ (fun i t ht => ht.trans (u := setSpadByte t _ _) rfl) 8 s (.refl s)

theorem feedReads_decodeWord (s : State) (wd : Nat) (slotted : Bool) : FeedReads s (decodeWord s wd slotted) := by
  unfold decodeWord
  extract_lets f cls u
  refine .ite (.refl s) ?_
  have hu : FeedReads s u.2 := rfl
  split
  · exact .refl s
  · exact FeedReads.trans (t := setFlips s wd 0) rfl (feedReads_corrected ..)
  · exact feedReads_poisonSector ..
  · split
    · exact hu
    · exact (FeedReads.trans (t := setFlips u.2 wd 0) rfl (feedReads_turnWord ..)).trans (feedReads_corrected ..)
    · exact hu.trans (feedReads_poisonSector ..)

theorem feedReads_decodeSide (s : State) (sec : Nat) (slotted : Bool) : FeedReads s (decodeSide s sec slotted) := by
  unfold decodeSide
  extract_lets sd u
  have hu : FeedReads s u.2 := rfl
  have hside (v : State) (x : Side) (hv : FeedReads s v) : FeedReads s (corrected (setSide v sec x) sec 0 slotted) :=
    (hv.trans (t := v) (u := setSide v sec x) rfl).trans (feedReads_corrected ..)
  split
  · exact .refl s
  · exact hside s _ (.refl s)
  · exact feedReads_poisonSector ..
  · split
    · exact hu
    · exact hside u.2 _ hu
    · exact hu.trans (feedReads_poisonSector ..)

theorem feedReads_decodeSector (s : State) (sec : Nat) (slotted : Bool) : FeedReads s (decodeSector s sec slotted) := by
  unfold decodeSector
  exact foldTo_keeps (FeedReads s) _ (fun _ t ht => ht.trans (feedReads_decodeWord t ..)) 4 _ (feedReads_decodeSide ..)

theorem feedReads_readSector (s : State) (sec : Nat) (slotted : Bool) : FeedReads s (readSector s sec slotted).2 := by
  unfold readSector
  split
  · dsimp only
    exact feedReads_decodeSector ..
  · dsimp only
    exact feedReads_raise ..

theorem feedReads_slotRead (s : State) (sec : Nat) : FeedReads s (slotRead s sec).2 := by
  unfold slotRead
  split
  · exact FeedReads.trans (t := touchRead s (sec / 2)) (.ite (.refl s) rfl) (feedReads_readSector ..)
  · exact feedReads_readSector ..

theorem feedReads_checkFail (s : State) (p q : Bool) (cons : Nat) : FeedReads s (checkFail s p q cons) :=
  (feedReads_raise ..).trans (feedReads_setReg ..)

theorem feedReads_feedSectors (s : State) (sec cons n : Nat) : FeedReads s (feedSectors s sec cons n).2.2 := by
  induction n generalizing s sec with
  | zero => exact .refl s
  | succ n ih => exact ((feedReads_slotRead s sec).trans (.ite (.refl _) (feedReads_checkFail ..))).trans (ih ..)

theorem feedReads_feedAt (s : State) (off n cons : Nat) : FeedReads s (feedAt s off n cons).2 := feedReads_feedSectors ..

-- Columns of a transposed region (R251, R252).

theorem feedReads_xLoadSector (k : Nat) (x : XBuf × State) : FeedReads x.2 (xLoadSector k x).2 := by
  unfold xLoadSector
  dsimp only
  split
  · exact feedReads_readSector ..
  · exact (feedReads_readSector ..).trans (feedReads_checkFail ..)

theorem feedReads_xLoad (s : State) (blk : Nat) : FeedReads s (xLoad s blk).2 := by
  have hcount (u : State) : FeedReads u { incReg u 0x6060 0 32 with
      seq := { u.seq with frzNext := { u.seq.frzNext with bank := max 16 u.seq.frzNext.bank } } } := (feedReads_setReg ..).trans rfl
  have hload : FeedReads s (foldTo 512 xLoadSector ({ valid := true, blk := blk }, s)).2 :=
    foldTo_keeps (fun x : XBuf × State => FeedReads s x.2) _ (fun k x hx => hx.trans (feedReads_xLoadSector k x)) 512 _ (.refl s)
  unfold xLoad
  dsimp only
  rw [incReg_seq]
  exact hload.trans (hcount _)

theorem feedReads_xposeRead (s : State) (w : W32) (a : Nat) (derrick : Bool) : FeedReads s (xposeRead s w a derrick).2 := by
  unfold xposeRead
  extract_lets v blk col b0 x
  have hx : FeedReads s x.2 := by
    unfold x
    split
    · exact feedReads_xLoad ..
    · exact .refl s
  exact .ite (hx.trans rfl) (hx.trans rfl)

theorem feedReads_feedSpad (s : State) (b : Bench) (td row n : Nat) (derrick : Bool) (cons : Nat) :
    FeedReads s (feedSpad s b td row n derrick cons).2 := by
  unfold feedSpad feedXpose
  dsimp only
  split
  · exact (feedReads_xposeRead ..).trans (.ite (feedReads_checkFail ..) (.refl _))
  · exact feedReads_feedAt ..

-- Rings (R256, R258).

theorem feedReads_feedRing (s : State) (b : Bench) (r : Rec) (td row n : Nat) (strict : Bool) (cons : Nat) :
    FeedReads s (feedRing s b r td row n strict cons).2 := by
  unfold feedRing
  extract_lets k q g get
  have hget (t : State) : FeedReads t (get t).2 := FeedReads.trans (t := noteRing t b.uid k q) rfl (feedReads_feedAt ..)
  have hslip (cause expect found : Nat) : FeedReads s (slip s b r cause expect found) := (slips_slip ..).feedReads
  split
  · exact feedReads_badFormat ..
  · split
    · exact feedReads_badFormat ..
    · rfl
    · split
      · exact .refl s
      · exact (hslip ..).trans (hget _)
    · split
      · exact hget s
      · exact (hslip ..).trans (hget _)

-- Windows (R269, R271, R316).

theorem feedReads_updRead (s : State) (rd : Nat) (f : RRead → RRead) : FeedReads s (updRead s rd f) := rfl

/-- A read that is answered with a failing status. -/
theorem feedReads_answerFail {q : FReq} (hc : q.isCmd = false) (s : State) (status : Nat) : FeedReads s (answerFail s q status) := by
  unfold answerFail
  refine .ite rfl ?_
  dsimp only
  rw [if_neg (by simp [hc])]
  exact .ite ((feedReads_raise ..).trans (feedReads_updRead ..)) (feedReads_raise ..)

theorem feedReads_sendTagged (s : State) (tag port : Nat) (q : FReq) (h : Head) (body : List Sector) :
    FeedReads s (sendTagged s tag port q h body) := .ite rfl rfl

theorem feedReads_sendReqOn {q : FReq} (hc : q.isCmd = false) (s : State) (port : Option Nat) (h : Head) (body : List Sector) :
    FeedReads s (sendReqOn s port q h body) := by
  unfold sendReqOn
  extract_lets f w e
  have hw : FeedReads s w := rfl
  refine .ite (.ite (feedReads_answerFail hc ..) (.ite (feedReads_answerFail hc ..) ?_)) (.ite (feedReads_answerFail hc ..) hw)
  split
  · exact feedReads_sendTagged ..
  · exact hw

theorem feedReads_sendSplit {q : FReq} (hc : q.isCmd = false) (s : State) (h : Head) (n : Nat) (body : List Sector) :
    FeedReads s (sendSplit s q h n body) := by
  unfold sendSplit
  extract_lets e ports m packets v
  have hv : FeedReads s v := .ite (feedReads_updRead ..) (.refl s)
  exact foldTo_keeps (FeedReads s) _ (fun j _ ht => ht.trans (feedReads_sendReqOn (q := { q with off := q.off + j, step := m }) hc ..))
    packets v hv

theorem feedReads_startRemote (s : State) (w off n : Nat) : FeedReads s (startRemote s w off n).2 := by
  unfold startRemote
  dsimp only
  split
  · rfl
  · exact FeedReads.trans (t := updRead { s with fab := { s.fab with nextRead := s.fab.nextRead + 1 } } s.fab.nextRead _) rfl
      (feedReads_sendSplit rfl ..)

theorem feedReads_remoteSectors (s : State) (x : RRead) (off cons n : Nat) : FeedReads s (remoteSectors s x off cons n).2.2 := by
  induction n generalizing s off with
  | zero => exact .refl s
  | succ n ih => exact FeedReads.trans (.ite (.refl s) (feedReads_checkFail ..)) (ih ..)

theorem feedReads_feedWindow (s : State) (b : Bench) (r : Rec) (td row n cons : Nat) :
    FeedReads s (feedWindow s b r td row n cons).2 := by
  unfold feedWindow
  extract_lets a off k w x y z v
  have hx : FeedReads s x.2 := feedReads_startRemote ..
  have hz : FeedReads s z.2.2 := feedReads_remoteSectors ..
  split
  · exact feedReads_badFormat ..
  · split
    · exact hx.trans rfl
    · split
      · rfl
      · exact hz.trans rfl

/-- A read through a descriptor, whatever it delivers. -/
theorem feedReads_feedRow (s : State) (b : Bench) (r : Rec) (td row n : Nat) (strict derrick : Bool) (cons : Nat) :
    FeedReads s (feedRow s b r td row n strict derrick cons).2 := by
  unfold feedRow
  split
  · exact feedReads_feedSpad ..
  · exact feedReads_feedRing ..
  · exact feedReads_feedWindow ..

end Sys2Proof.Machine
end

section
/-! PROOFS. Copies, selects and reductions, and the instructions that pack and spread lanes (R182, R184 to R186): the rank of a lane among
those of a mask, and what each of them leaves. -/
namespace Sys2Proof.Machine

variable {s t u v : State} {run : Running} {b : Bench} {r : Rec} {w : W64} {c : Instr} {op n lam d : Nat} {l : List (List W32)}

/-- The read of the sources leaves which lanes act. -/
theorem vActs_vSrcs (s : State) (b : Bench) (r : Rec) (w : W64) (n k : Nat) : vActs (vSrcs s b r w n).2 w k = vActs s w k := by
  rw [vActs, vActs, vMaskReg, vMaskReg, (sourceReads_vSrcs s b r w n).vec_eq]

/-- The values that take part, as they are before and after the read of the sources. -/
theorem vTaking_vSrcs (s : State) (b : Bench) (r : Rec) (w : W64) (n : Nat) (l : List (List W32)) :
    vTaking (vSrcs s b r w n).2 w l = (natsTo 128).map fun k => if vActs s w k then some (lget (lget l [] 0) 0 k) else none :=
  List.map_congr_left fun k _ => by rw [vActs_vSrcs]; rfl

-- The select (R182).

theorem vSelect_lost (h : (vSrcs s b r w 2).1 = none) : vSelect s b r w = (vSrcs s b r w 2).2 := by
  simp [vSelect, h]

/-- The lane of a select, by the mask that its third operand names. -/
def selectLane (s : State) (w : W64) (l : List (List W32)) (k : Nat) : W32 × Flg :=
  (vIn l (if (vMaskOp s (vF w 14 10)).getLsbD k then 0 else 1) k, 0)

theorem vSelect_sends (h : (vSrcs s b r w 2).1 = some l) : ∃ g, vSelect s b r w =
    vResult { (vSrcs s b r w 2).2 with gen := g } b r 2 none w
      (actValues (vSrcs s b r w 2).2 w (selectLane s w l)) (actFlags (vSrcs s b r w 2).2 w (selectLane s w l)) := by
  obtain ⟨g, hg⟩ := vLanes_eq (vSrcs s b r w 2).2 b w fun k => pure (vIn l (if (vMaskOp s (vF w 14 10)).getLsbD k then 0 else 1) k)
  have hval (k : Nat) : laneGives (vSrcs s b r w 2).2 b k (pure (vIn l (if (vMaskOp s (vF w 14 10)).getLsbD k then 0 else 1) k)) =
      selectLane s w l k := laneGives_pure ..
  simp only [hval] at hg
  simp only [vIn] at hg
  exact ⟨g, by simp only [vSelect, h, hg]⟩

theorem vIssues_vSelect (hx : ∀ s, exec c s = act s (vIssue op vSelect)) :
    VIssues c op 2 2 none fun v _ w l k => (vIn l (if (vMaskOp v (vF w 14 10)).getLsbD k then 0 else 1) k, 0) := by
  intro s run b r h
  have hsrc := sourceReads_vSrcs (vTurn s b r) b r (vWord s run) 2
  refine ⟨fun hl => ?_, fun l hl => ?_⟩
  · exact answers_vIssue _ h (hx s) (vSelect_lost hl) hsrc.engineStep fun _ => rfl
  · obtain ⟨g, hg⟩ := vSelect_sends hl
    have hmask : selectLane (vTurn s b r) (vWord s run) l = selectLane (vSrcs (vTurn s b r) b r (vWord s run) 2).2 (vWord s run) l := by
      funext k
      rw [selectLane, selectLane, vMaskOp, vMaskOp, vMaskReg, vMaskReg, hsrc.vec_eq]
    rw [hmask] at hg
    exact answers_vIssue _ h (hx s) hg (hsrc.engineStep.trans (EngineStep.trans (t := { (vSrcs _ b r _ 2).2 with gen := g }) rfl
      (engineStep_vResult ..))) fun pins => vDone_vResult ..

-- Ranks (R184, R185).

/-- The rank of a number among those below n of which `p` holds. -/
theorem findIdx?_filter_natsTo (p : Nat → Bool) (n j : Nat) : ((natsTo n).filter p).findIdx? (· == j) =
    if j < n ∧ p j = true then some ((natsTo j).filter p).length else none := by
  induction n with
  | zero => simp [natsTo, natsFrom]
  | succ n ih =>
    rw [natsTo_succ, List.filter_append, List.findIdx?_append, ih]
    rcases Nat.lt_trichotomy j n with hlt | rfl | hgt
    · by_cases hp : p j = true
      · simp [hlt, hp, Nat.lt_succ_of_lt hlt]
      · cases hn : p n <;> simp [hp, hn, hlt.ne']
    · by_cases hp : p j = true <;> simp [hp]
    · have hnot : ¬ j < n := by omega
      have hnot' : ¬ j < n + 1 := by omega
      cases hn : p n <;> simp [hnot, hnot', hn, hgt.ne]

/-- The lanes that VEXPD gives a value, each the next element of its source. -/
theorem vExpand_lane (s : State) (m : BitVec 128) (x : List W32) (j : Nat) :
    (match (takenLanes s m).findIdx? (· == j) with | some k => some (lget x 0 k) | none => none) =
      if j < 128 ∧ (decide (j < s.vec.vl) && m.getLsbD j) = true
        then some (lget x 0 ((natsTo j).filter fun i => decide (i < s.vec.vl) && m.getLsbD i).length) else none := by
  rw [takenLanes, findIdx?_filter_natsTo]
  by_cases h : j < 128 ∧ (decide (j < s.vec.vl) && m.getLsbD j) = true
  · rw [if_pos h, if_pos h]
  · rw [if_neg h, if_neg h]

theorem vExpand_sends (h : (vSrcs s b r w 1).1 = some l) : vExpand s b r w =
    vDst (vSrcs s b r w 1).2 b r 3 none (vF w 44 10) ((natsTo 128).map fun j =>
      if j < 128 ∧ (decide (j < s.vec.vl) && (vMaskOp s (vF w 24 10)).getLsbD j) = true
        then some (vIn l 0 ((natsTo j).filter fun i => decide (i < s.vec.vl) && (vMaskOp s (vF w 24 10)).getLsbD i).length)
        else none) false := by
  simp only [vExpand, h]
  exact congrArg (vDst _ b r 3 none _ · false) (List.map_congr_left fun j _ => vExpand_lane s (vMaskOp s (vF w 24 10)) (lget l [] 0) j)

/-- A result of the instructions that send no flags: the recipe goes on, and the result reaches its destination. -/
theorem vWrites_vGo_vDst {fmt : Option Nat} (v : State) (run : Running) (b : Bench) (r : Rec) (w : W64) (lam : Nat)
    (g : Nat → Option W32) (pins : Pins) :
    let t : State := { vGo (vDst v b r lam fmt (vF w 44 10) ((natsTo 128).map g) false) run with pins := pins }
    t.vec.run = (vGo v run).vec.run ∧ (vF w 44 10 / 256 < 2 → VFrame t v run) ∧ VWrites t v b r w lam fmt g := by
  refine ⟨vGo_run (engineStep_vDst ..) run, fun hd => ?_, vWrites_vDst v b r w lam fmt g false⟩
  have hfr := vDst_frame (b := b) (r := r) (lam := lam) (fmt := fmt) (sat := false) hd v ((natsTo 128).map g)
  exact vFrame_of_frame (hfr.trans (by rw [hfr])) (fun o _ => by rw [hfr]; rfl) pins

-- VCPRS (R184).

/-- The lanes that VCPRS packs: those of its mask, from lane `k0` on. -/
def packedLanes (l : List (List W32)) (ls : List Nat) (k0 : Nat) : List (Option W32) :=
  (natsTo 128).map fun j => if k0 ≤ j && j < k0 + ls.length then some (vIn l 0 (lget ls 0 (j - k0))) else none

/-- The count of the elements that fell out, and the flag of it. -/
def dropNoted (s : State) (drop : Nat) : State := if drop = 0 then s else orReg (addReg s 0x4824 0 32 drop) 0x4804 0x40

theorem addReg_frame (s : State) (o lo len n : Nat) :
    addReg s o lo len n = { s with regs := (addReg s o lo len n).regs, cyc := (addReg s o lo len n).cyc } := setReg_frame ..

theorem dropNoted_frame (s : State) (drop : Nat) :
    dropNoted s drop = { s with regs := (dropNoted s drop).regs, cyc := (dropNoted s drop).cyc } := by
  unfold dropNoted
  split
  · rfl
  · rw [orReg_frame, addReg_frame]

theorem regsKept_dropNoted (s : State) (drop : Nat) : RegsKept s (dropNoted s drop) [0x4804, 0x4824] := by
  intro o ho
  simp only [List.mem_cons, List.not_mem_nil, or_false, not_or] at ho
  unfold dropNoted
  split
  · rfl
  · simp [ho.1, addReg, reg_setRegF _ _ _ _ _ _ ho.2]

/-- A count that fills its register, advanced by any number. -/
theorem regF_addReg_word (s : State) (o n : Nat) : regF (addReg s o 0 32 n) o 0 32 = min 0xFFFFFFFF (regF s o 0 32 + n) := by
  have hlt : min 0xFFFFFFFF (regF s o 0 32 + n) < 4294967296 := by omega
  have hreg : reg (addReg s o 0 32 n) o = putN (reg s o) 0 32 (min 0xFFFFFFFF (regF s o 0 32 + n)) := by
    simp [addReg, setRegF, satAdd]
  rw [regF, hreg]
  generalize min 0xFFFFFFFF (regF s o 0 32 + n) = v at hlt
  simp [fieldN, putN]
  omega

theorem regF_dropNoted (s : State) (drop : Nat) :
    regF (dropNoted s drop) 0x4824 0 32 = min 0xFFFFFFFF (regF s 0x4824 0 32 + drop) := by
  unfold dropNoted
  split
  · next h =>
    have hlt : regF s 0x4824 0 32 < 2 ^ 32 := Nat.mod_lt _ (by norm_num)
    omega
  · rw [regF_of_reg (s := addReg s 0x4824 0 32 drop) (by simp), regF_addReg_word]

theorem bitB_eq_getLsbD {n : Nat} (x : BitVec n) (i : Nat) : bitB x i = x.getLsbD i := by
  simp [bitB, fieldN, BitVec.getLsbD, Nat.testBit, Nat.shiftRight_eq_div_pow, beq_eq_decide]

theorem dropNoted_sticky (s : State) {drop : Nat} (h : drop ≠ 0) : bitB (reg (dropNoted s drop) 0x4804) 6 = true := by
  simp [dropNoted, h, bitB_eq_getLsbD]

theorem vCompress_sends (h : (vSrcs s b r w 1).1 = some l) (hd : vF w 44 10 / 256 = 0) :
    let kn := vF w 14 10 % 4
    let k0 := lget (vSrcs s b r w 1).2.vec.k 0 kn
    let ls := takenLanes s (vMaskOp s (vF w 24 10))
    vCompress s b r w =
      pushRes (pushRes (dropNoted (vSrcs s b r w 1).2 (k0 + ls.length - 128)) b r 3 (.v (vF w 44 10 % 32)) (packedLanes l ls k0)) b r 3
        (.k kn) [some (BitVec.ofNat 32 (min 128 (k0 + ls.length)))] := by
  simp only [vCompress, h, vDst_register hd, dropNoted, packedLanes, vIn, (sourceReads_vSrcs s b r w 1).vec_eq]

theorem engineStep_pushRes (s : State) (b : Bench) (r : Rec) (lam : Nat) (d : VDst) (lanes : List (Option W32)) :
    EngineStep s (pushRes s b r lam d lanes) := rfl

theorem engineStep_dropNoted (s : State) (drop : Nat) : EngineStep s (dropNoted s drop) :=
  (dropNoted_frame s drop).trans (by rw [dropNoted_frame])

theorem engineStep_vCompress (h : (vSrcs s b r w 1).1 = some l) (hd : vF w 44 10 / 256 = 0) :
    EngineStep (vSrcs s b r w 1).2 (vCompress s b r w) := by
  rw [vCompress_sends h hd]
  exact (engineStep_dropNoted ..).trans ((engineStep_pushRes ..).trans (engineStep_pushRes ..))

end Sys2Proof.Machine
end

section
/-! PROOFS. Requests of a recipe to the special function unit, and its loads and stores (R188, R189, R193, R423). -/
namespace Sys2Proof.Machine

variable {s t u v : State} {run : Running} {b : Bench} {r : Rec} {w : W64} {c : Instr} {op n lam d : Nat} {l : List (List W32)}

-- VSFU (R189, R193).

/-- The request that a VSFU makes. -/
def vSfuReq (v : State) (b : Bench) (r : Rec) (w : W64) (l : List (List W32)) : SfuReq :=
  let x := sfuEval v (vF w 0 4) true b.ovfInf (vTaking v w l)
  { who := .vec (vF w 44 10), uid := b.uid, pos := r.pos, due := v.clk.slot + 12, ord := v.vec.ord + 1, row := vRow v b r (vF w 44 10)
    lanes := x.1, fls := x.2.1, off := x.2.2.1, clamp := x.2.2.2 }

theorem vSfu_asks (h : (vSrcs s b r w 1).1 = some l) (hfree : ∀ q ∈ (vSrcs s b r w 1).2.sfu.reqs, q.due ≠ (vSrcs s b r w 1).2.clk.slot + 12) :
    let v := (vSrcs s b r w 1).2
    vSfu s b r w = { v with sfu := { v.sfu with reqs := v.sfu.reqs ++ [vSfuReq v b r w l] }, vec := { v.vec with ord := v.vec.ord + 1 } } := by
  have hfind : (vSrcs s b r w 1).2.sfu.reqs.find? (fun q => q.due == (vSrcs s b r w 1).2.clk.slot + 12) = none := by
    simpa using hfree
  have hfilter : (vSrcs s b r w 1).2.sfu.reqs.filter (fun q => q.due != (vSrcs s b r w 1).2.clk.slot + 12) = (vSrcs s b r w 1).2.sfu.reqs := by
    simpa using hfree
  simp only [vSfu, h, sfuAsk, hfind, hfilter, vSfuReq, vTaking_vSrcs]

theorem vSfu_loses {q : SfuReq} (h : (vSrcs s b r w 1).1 = some l)
    (hold : (vSrcs s b r w 1).2.sfu.reqs.find? (fun q => q.due == (vSrcs s b r w 1).2.clk.slot + 12) = some q)
    (hq : startedBefore q.uid q.pos b.uid r.pos = true) : vSfu s b r w = slip (vSrcs s b r w 1).2 b r 4 0 0 := by
  simp only [vSfu, h, sfuAsk, hold, hq, if_true]

-- Words that fail their parity (R423).

/-- State `t` is `s` after words that failed their parity: each is the cause of RAM_PARITY and counted, and asks for a halt. -/
structure ParityFails (s t : State) : Prop where
  frame : t = { s with seq := { s.seq with haltReq := t.seq.haltReq }, ev := t.ev, regs := t.regs, cyc := t.cyc }
  kept : RegsKept s t [0xE040]
  caused : Caused t 0x11
  halts : HaltsFor s t 4
  standing : s.seq.haltReq.isSome = true → t.seq.haltReq = s.seq.haltReq

theorem parityFails_ramParity (s : State) (mem : Nat) : ParityFails s (ramParity s mem) := by
  obtain ⟨v, hv⟩ : ∃ v, v = incReg (raise s 0x11 mem) 0xE040 0 32 := ⟨_, rfl⟩
  have hfr : v = { s with ev := evWith s 0x11 (mem % 65536), regs := v.regs, cyc := v.cyc } := by
    rw [hv, incReg, addReg_frame, raise_eq _ _ _ (by decide)]
  have hkept : RegsKept s v [0xE040] := fun o ho => by
    rw [hv, reg_incReg _ _ _ _ _ (by simpa using ho), raise_frame]
    rfl
  have hcaused : Caused v 0x11 := caused_of_evWith (s := s) (by rw [hfr])
  have hseq : v.seq = s.seq := by rw [hfr]
  have hact : seqActive v = seqActive s := by rw [seqActive, hseq, seqActive]
  have hx : ramParity s mem = reqHaltSeq v 4 := by rw [hv]; rfl
  rw [hx]
  unfold reqHaltSeq
  split
  · next hno =>
    rw [hact, hseq] at hno
    refine ⟨hfr.trans (by rw [hfr]), hkept, hcaused, fun ha hreq => ?_, fun _ => by rw [hseq]⟩
    simp [ha, hreq] at hno
  · next hyes =>
    rw [hact, hseq] at hyes
    refine ⟨by rw [hfr], hkept, hcaused, fun _ _ => ?_, fun hreq => ?_⟩
    · cases lastBench v <;> rfl
    · simp [hreq] at hyes

theorem ParityFails.trans (h : ParityFails s t) (k : ParityFails t u) : ParityFails s u where
  frame := k.frame.trans (by rw [h.frame])
  kept o ho := (k.kept o ho).trans (h.kept o ho)
  caused := k.caused
  halts hact hreq := by
    have hcause := h.halts hact hreq
    rw [k.standing (by cases hh : t.seq.haltReq <;> simp [hh] at hcause ⊢)]
    exact hcause
  standing hreq := by
    have hkeep := h.standing hreq
    rw [k.standing (hkeep ▸ hreq), hkeep]

theorem parityFails_ramParities (s : State) (mem : Nat) {l : List Nat} (hl : l ≠ []) : ParityFails s (ramParities s mem l) := by
  obtain ⟨x, l, rfl⟩ := List.exists_cons_of_ne_nil hl
  have h0 : ParityFails s (ramParity s mem) := parityFails_ramParity s mem
  exact eachS_keeps (P := ParityFails s) (fun _ t ht => ht.trans (parityFails_ramParity t mem)) l h0

/-- The engine goes on after words of an instruction's descriptor that failed their parity. -/
theorem ParityFails.goesOn (h : ParityFails u v) (run : Running) (pins : Pins) :
    let t : State := { vGo v run with pins := pins }
    t = { vGo u run with seq := t.seq, ev := t.ev, regs := t.regs, cyc := t.cyc, pins := t.pins } ∧ Caused t 0x11 ∧ HaltsFor u t 4 ∧
      RegsKept u t [0xE040] := by
  refine ⟨?_, h.caused, h.halts, h.kept⟩
  rw [h.frame]
  rfl

-- VLD (R175, R188).

/-- An instruction that may wait answers with what it leaves, and the recipe goes on if it has issued. -/
theorem answers_vIssueWith {f : State → Bench → Rec → W64 → Bool × State} {P : State → Prop} (done : Bool) (u : State) (h : VNow s op run b r)
    (hx : exec c s = act s (onInstr op fun s run => vIssueWith s run f)) (hu : f (vTurn s b r) b r (vWord s run) = (done, u))
    (hq : u.pending = s.pending) (hv : u.variant = s.variant)
    (hP : ∀ pins, P { (if done then vGo u run else u) with pins := pins }) : Answers c s P := by
  obtain ⟨hrun, hop, hbad, hnext, hact, hfrz, hrec⟩ := h
  refine answers_of_effect (if done then vGo u run else u) hx ?_ (by cases done <;> exact hq) (by cases done <;> exact hv) hP
  rw [onInstr, inSlot_now s _ _ run.next (by simp [instrDue, hrun, hact, hop, dueIf]) hnext hfrz]
  simp [hrun, vIssueWith, hbad, hrec, hu, vGo]

theorem vLoad_fails (h : vTdFails b (vF w 38 6) ≠ []) :
    vLoad s b r w = (true, ramParities s 1 (vTdFails b (vF w 38 6))) := by
  simp [vLoad, h]

theorem vLoad_bad (h : vTdFails b (vF w 38 6) = []) (hbad : vldBad s b (vF w 38 6) (vTdRow s w) = true) :
    vLoad s b r w = (true, badFormat s b r.pos) := by
  simp [vLoad, h, hbad]

theorem vLoad_empty (h : vTdFails b (vF w 38 6) = []) (hgood : vldBad s b (vF w 38 6) (vTdRow s w) = false) (hvl : s.vec.vl = 0) :
    vLoad s b r w = (true, vDst s b r 2 none (vF w 44 10) ((natsTo 128).map fun _ => none) false) := by
  simp [vLoad, h, hgood, hvl]

/-- The read of a VLD's row. -/
def vldFed (s : State) (b : Bench) (r : Rec) (w : W64) : Fed × State :=
  feedRow s b r (vF w 38 6) (vTdRow s w) (s.vec.vl * (fmtBits (vF w 34 4) / 8)) false false 2

/-- A VLD whose descriptor it may read, of at least one lane: by what the read delivers. -/
theorem vLoad_fed (h : vTdFails b (vF w 38 6) = []) (hgood : vldBad s b (vF w 38 6) (vTdRow s w) = false) (hvl : s.vec.vl ≠ 0) :
    vLoad s b r w = match (vldFed s b r w).1 with
      | .wait => (false, (vldFed s b r w).2)
      | .nothing => (true, (vldFed s b r w).2)
      | .row bs bad =>
        if bad then (true, reqHalt (vldFed s b r w).2 4 b r.pos)
        else (true, vDst (vldFed s b r w).2 b r 2 (some (if fmtIsInt (vF w 34 4) then 1 else 4)) (vF w 44 10)
          ((natsTo 128).map fun l => if l < s.vec.vl then some (vldLane (vF w 34 4) bs l) else none) false) := by
  simp only [vLoad, h, hgood, hvl]
  rfl

-- VST (R181, R188).

theorem vStore_fails (h : vTdFails b (vF w 38 6) ≠ []) : vStore s b r w = ramParities s 1 (vTdFails b (vF w 38 6)) := by
  simp [vStore, h]

theorem vStore_bad (h : vTdFails b (vF w 38 6) = []) (hbad : tdKind b (vF w 38 6) = 0 ∨ 4 < tdKind b (vF w 38 6)) :
    vStore s b r w = badFormat s b r.pos := by
  simp [vStore, h, hbad]

theorem vStore_lost (h : vTdFails b (vF w 38 6) = []) (hk : tdKind b (vF w 38 6) ≠ 0) (hk' : tdKind b (vF w 38 6) ≤ 4)
    (hx : (vSrc s b r w (vF w 44 10)).1 = none) : vStore s b r w = (vSrc s b r w (vF w 44 10)).2 := by
  simp [vStore, h, hk, hx, Nat.not_lt.mpr hk']

/-- A row of a held seam, or of no lanes, is not written. -/
theorem vStore_void (h : vTdFails b (vF w 38 6) = []) (hk : tdKind b (vF w 38 6) ≠ 0) (hk' : tdKind b (vF w 38 6) ≤ 4) {x : List W32}
    (hx : (vSrc s b r w (vF w 44 10)).1 = some x)
    (hvoid : vHeldSeam (vSrc s b r w (vF w 44 10)).2 b r = true ∨ s.vec.vl = 0) :
    vStore s b r w = (vSrc s b r w (vF w 44 10)).2 := by
  simp [vStore, h, hk, hx, Nat.not_lt.mpr hk', hvoid]

/-- The row that a VST leaves to the writer, of elements with the codes `l`. -/
def vstRow (s : State) (b : Bench) (r : Rec) (w : W64) (l : List Nat) : HeldVst where
  seams := vOpenSeams s b r
  td := vF w 38 6
  row := vTdRow s w
  bytes := packCodes (vstPlace b (vF w 38 6) (vF w 34 4)) l
  uid := b.uid
  pos := r.pos
  due := s.clk.slot + 1

/-- State `t` is `s` but for the generators. -/
def GenOnly (s t : State) : Prop := t = { s with gen := t.gen }

theorem GenOnly.trans (h : GenOnly s t) (k : GenOnly t u) : GenOnly s u := Eq.trans k (by rw [h])

theorem genOnly_rnd (s : State) (site lane : Nat) (f : Nat → NumR) : GenOnly s (rnd s site lane f).2 := by
  unfold rnd
  dsimp only
  split <;> rfl

theorem genOnly_vstCodes (s : State) (b : Bench) (fmt n : Nat) (l : List W32) : GenOnly s (vstCodes s b fmt n l).2.2 :=
  List.foldlRecOn (motive := fun a : List Nat × List Flg × State => GenOnly s a.2.2) _ _ rfl fun a ha i _ => by
    dsimp only
    exact ha.trans (genOnly_rnd ..)

/-- An int32 that is stored as int32 keeps its bits. -/
theorem fmtEncode_int32 (md : RMode) (oi : Bool) (q : Nat) (x : W32) :
    (fmtEncode 8 md oi q (FVal.ofInt (i32 x))).bits = x.toNat := by
  have hexact : (roundAt md q x.toInt.natAbs 0 0).1 = x.toInt.natAbs := by
    have h := roundAt_shift md q x.toInt.natAbs 0
    have hle := shiftRounded_le md q 0 x.toInt.natAbs
    simp only [shiftRounded, pow_zero, Nat.div_one] at h hle
    simp only [Int.natCast_zero, neg_zero] at h
    omega
  have hcond := BitVec.toInt_eq_toNat_cond x
  have hlt := x.isLt
  show (intEncode 32 md q (.fin (decide (x.toInt < 0)) x.toInt.natAbs 0)).bits = _
  simp only [intEncode, hexact, wrapN]
  split at hcond
  · rw [if_neg (by simp; omega), if_neg (by omega)]
    dsimp only
    omega
  · rw [if_pos (by simp; omega), if_neg (by omega)]
    dsimp only
    omega

theorem vstCodes_int32 (s : State) (b : Bench) (n : Nat) (l : List W32) :
    (vstCodes s b 8 n l).1 = (natsTo n).map fun i => (lget l 0 i).toNat := by
  suffices h : ∀ a : List Nat × List Flg × State, ∀ is : List Nat, (is.foldl (fun (a : List Nat × List Flg × State) i =>
      let y := rnd a.2.2 siteWr i fun q => fmtEncode 8 (benchRnd b b.crnd) b.ovfInf q (FVal.ofInt (i32 (lget l 0 i)))
      (y.1.bits :: a.1, y.1.fl :: a.2.1, y.2)) a).1 = (is.map fun i => (lget l 0 i).toNat).reverse ++ a.1 by
    exact (congrArg List.reverse (h ([], [], s) (natsTo n))).trans (by simp)
  intro a is
  induction is generalizing a with
  | nil => rfl
  | cons i is ih =>
    rw [List.foldl_cons, ih]
    simp [rnd, fmtEncode_int32]

/-- A row that is written leaves to the writer, with the flags of its lanes. -/
theorem vStore_sends (h : vTdFails b (vF w 38 6) = []) (hk : tdKind b (vF w 38 6) ≠ 0) (hk' : tdKind b (vF w 38 6) ≤ 4) {x : List W32}
    (hx : (vSrc s b r w (vF w 44 10)).1 = some x) (hheld : vHeldSeam (vSrc s b r w (vF w 44 10)).2 b r = false) (hvl : s.vec.vl ≠ 0) :
    let v := (vSrc s b r w (vF w 44 10)).2
    let y := vstCodes v b (vF w 34 4) s.vec.vl x
    ∃ g u, FlagsSet { v with gen := g } u (lget y.2.1 0) ∧
      vStore s b r w = { u with vec := { u.vec with vsts := u.vec.vsts ++ [vstRow v b r w y.1] } } := by
  intro v y
  have hgen : GenOnly v y.2.2 := genOnly_vstCodes ..
  have hset := flagsSet_vFlags y.2.2 y.2.1
  refine ⟨y.2.2.gen, vFlags y.2.2 y.2.1, hgen ▸ hset, ?_⟩
  have hrow : vstRow (vFlags y.2.2 y.2.1) b r w y.1 = vstRow v b r w y.1 := by
    rw [hset.frame, hgen]
    rfl
  have hk0 : (decide (tdKind b (vF w 38 6) = 0) || decide (4 < tdKind b (vF w 38 6))) = false := by simp [hk, hk']
  have hgoes : (vHeldSeam v b r || decide (s.vec.vl = 0)) = false := by simp [v, hheld, hvl]
  simp only [vStore, h, hx, hk0, List.isEmpty_nil, Bool.not_true, Bool.false_eq_true, if_false]
  rw [← hrow, if_neg (Bool.eq_false_iff.mp hgoes)]
  rfl

end Sys2Proof.Machine
end

section
/-! PROOFS. Rows through the vector engine (R182, R184 to R189): how each instruction answers, and the settled statement. -/
namespace Sys2Proof.Machine

variable {s : State} {run : Running} {b : Bench} {r : Rec} {l : List (List W32)}

/-- The recipe goes on with two results on their way, where of the rest only registers have changed. -/
theorem vGo_pushRes_pushRes {u v : State} (hu : u = { v with regs := u.regs, cyc := u.cyc }) (lam : Nat) (d d' : VDst)
    (lanes lanes' : List (Option W32)) (pins : Pins) :
    let t : State := { vGo (pushRes (pushRes u b r lam d lanes) b r lam d' lanes') run with pins := pins }
    t = { v with vec := t.vec, regs := t.regs, cyc := t.cyc, pins := t.pins } ∧ t.regs = u.regs ∧ t.vec.run = (vGo v run).vec.run ∧
      t.vec.flags = v.vec.flags ∧
      t.vec.res = v.vec.res ++ [⟨v.clk.slot + lam, v.vec.ord + 1, d, lanes, b.uid, r.pos⟩,
        ⟨v.clk.slot + lam, v.vec.ord + 2, d', lanes', b.uid, r.pos⟩] := by
  refine ⟨?_, ?_, ?_, ?_, ?_⟩ <;> rw [hu]
  · rfl
  · rfl
  · rfl
  · rfl
  · exact List.append_assoc ..

/-- What VCPRS leaves behind the rows its two results stand in: `v` after the sources, `k0` its count before, `ls` the packed lanes. -/
theorem vGo_packed (v : State) (run : Running) (b : Bench) (r : Rec) (l : List (List W32)) (ls : List Nat) (k0 d kn : Nat) (pins : Pins) :
    let t : State := { vGo (pushRes (pushRes (dropNoted v (k0 + ls.length - 128)) b r 3 (.v d) (packedLanes l ls k0)) b r 3 (.k kn)
      [some (BitVec.ofNat 32 (min 128 (k0 + ls.length)))]) run with pins := pins }
    t = { v with vec := t.vec, regs := t.regs, cyc := t.cyc, pins := t.pins } ∧ RegsKept v t [0x4804, 0x4824] ∧
      t.vec.run = (vGo v run).vec.run ∧ t.vec.flags = v.vec.flags ∧
      regF t 0x4824 0 32 = min 0xFFFFFFFF (regF v 0x4824 0 32 + (k0 + ls.length - 128)) ∧
      (128 < k0 + ls.length → bitB (reg t 0x4804) 6 = true) ∧ (k0 + ls.length ≤ 128 → reg t 0x4804 = reg v 0x4804) ∧
      ∃ x y, t.vec.res = v.vec.res ++ [x, y] ∧ y.due = v.clk.slot + 3 ∧ y.dst = .k kn ∧
        lget y.lanes none 0 = some (BitVec.ofNat 32 (min 128 (k0 + ls.length))) ∧
        x.due = v.clk.slot + 3 ∧ x.dst = .v d ∧
        ∀ j, j < 128 → lget x.lanes none j =
          if k0 ≤ j ∧ j < k0 + ls.length then some (vIn l 0 (lget ls 0 (j - k0))) else none := by
  intro t
  obtain ⟨ht, hword, hrun, hflags, hres⟩ := vGo_pushRes_pushRes (b := b) (r := r) (run := run) (dropNoted_frame v (k0 + ls.length - 128)) 3
    (.v d) (.k kn) (packedLanes l ls k0) [some (BitVec.ofNat 32 (min 128 (k0 + ls.length)))] pins
  have hregs : ∀ o, reg t o = reg (dropNoted v (k0 + ls.length - 128)) o := fun o => reg_of_regs hword
  refine ⟨ht, fun o ho => (hregs o).trans (regsKept_dropNoted _ _ o ho), hrun, hflags, (regF_of_reg (hregs _)).trans (regF_dropNoted ..),
    fun hdrop => ?_, fun hfit => ?_,
    _, _, hres, rfl, rfl, rfl, rfl, rfl, fun j hj => ?_⟩
  · rw [hregs]
    exact dropNoted_sticky _ (by omega)
  · rw [hregs, dropNoted, if_pos (by omega)]
  · show lget (packedLanes l ls k0) none j = _
    rw [packedLanes, lget_map_natsTo _ none 128 j hj]
    simp

/-- VCPRS to a register: the packed lanes and the new count are on their way, and what falls out is noted. -/
theorem answers_vcprs (h : VNow s 0x3A run b r) (hl : (vSrcs (vTurn s b r) b r (vWord s run) 1).1 = some l)
    (hd : vF (vWord s run) 44 10 < 256) : Answers .vcprs s fun t =>
      let w := vWord s run
      let u := vTurn s b r
      let v := (vSrcs u b r w 1).2
      let kn := vF w 14 10 % 4
      let k0 := lget v.vec.k 0 kn
      let ls := (natsTo 128).filter fun i => decide (i < u.vec.vl) && (vMaskOp u (vF w 24 10)).getLsbD i
      t = { v with vec := t.vec, regs := t.regs, cyc := t.cyc, pins := t.pins } ∧ RegsKept v t [0x4804, 0x4824] ∧
      t.vec.run = (vGo v run).vec.run ∧ t.vec.flags = v.vec.flags ∧
      regF t 0x4824 0 32 = min 0xFFFFFFFF (regF v 0x4824 0 32 + (k0 + ls.length - 128)) ∧
      (128 < k0 + ls.length → bitB (reg t 0x4804) 6 = true) ∧ (k0 + ls.length ≤ 128 → reg t 0x4804 = reg v 0x4804) ∧
      ∃ x y, t.vec.res = v.vec.res ++ [x, y] ∧ y.due = v.clk.slot + 3 ∧ y.dst = .k kn ∧
        lget y.lanes none 0 = some (BitVec.ofNat 32 (min 128 (k0 + ls.length))) ∧
        x.due = v.clk.slot + 3 ∧ x.dst = .v (vF w 44 10 % 32) ∧
        ∀ j, j < 128 → lget x.lanes none j =
          if k0 ≤ j ∧ j < k0 + ls.length then some (vIn l 0 (lget ls 0 (j - k0))) else none := by
  have hd0 : vF (vWord s run) 44 10 / 256 = 0 := by omega
  have hsrc := sourceReads_vSrcs (vTurn s b r) b r (vWord s run) 1
  have hsend := vCompress_sends hl hd0
  have hstep := engineStep_vCompress hl hd0
  rw [hsend] at hstep
  exact answers_vIssue _ h rfl hsend (hsrc.engineStep.trans hstep) fun pins => vGo_packed ..

-- VEXPD and VSFU.

theorem answers_vexpd (h : VNow s 0x3B run b r) (hl : (vSrcs (vTurn s b r) b r (vWord s run) 1).1 = some l) : Answers .vexpd s fun t =>
    let w := vWord s run
    let u := vTurn s b r
    let v := (vSrcs u b r w 1).2
    let taken (i : Nat) : Bool := decide (i < u.vec.vl) && (vMaskOp u (vF w 24 10)).getLsbD i
    t.vec.run = (vGo v run).vec.run ∧ (vF w 44 10 / 256 < 2 → VFrame t v run) ∧
      VWrites t v b r w 3 none fun j => if j < 128 ∧ taken j = true then some (vIn l 0 ((natsTo j).filter taken).length) else none :=
  answers_vIssue _ h rfl (vExpand_sends hl) ((sourceReads_vSrcs ..).engineStep.trans (engineStep_vDst ..)) fun _ => vWrites_vGo_vDst ..

/-- A request of a slot that no request holds is made. -/
theorem answers_vsfu_asks (h : VNow s 0x3F run b r) (hl : (vSrcs (vTurn s b r) b r (vWord s run) 1).1 = some l) :
    let w := vWord s run
    let v := (vSrcs (vTurn s b r) b r w 1).2
    (∀ q ∈ v.sfu.reqs, q.due ≠ v.clk.slot + 12) → Answers .vsfu s fun t =>
      t = { vGo v run with sfu := t.sfu, vec := { (vGo v run).vec with ord := v.vec.ord + 1 }, pins := t.pins } ∧
      ∃ q : SfuReq, t.sfu = { v.sfu with reqs := v.sfu.reqs ++ [q] } ∧ q.who = .vec (vF w 44 10) ∧ q.due = v.clk.slot + 12 ∧
        q.uid = b.uid ∧ q.pos = r.pos ∧ q.row = vRow v b r (vF w 44 10) ∧
        q.lanes = (sfuEval v (vF w 0 4) true b.ovfInf (vTaking v w l)).1 ∧
        q.fls = (sfuEval v (vF w 0 4) true b.ovfInf (vTaking v w l)).2.1 :=
  fun hfree => answers_vIssue _ h rfl (vSfu_asks hl hfree) ((sourceReads_vSrcs ..).engineStep.trans rfl) fun _ =>
    ⟨rfl, vSfuReq (vSrcs (vTurn s b r) b r (vWord s run) 1).2 b r (vWord s run) l, rfl, rfl, rfl, rfl, rfl, rfl, rfl, rfl⟩

/-- A request of a slot that an older request holds is lost, as SLOT_SLIP. -/
theorem answers_vsfu_slips (h : VNow s 0x3F run b r) (hl : (vSrcs (vTurn s b r) b r (vWord s run) 1).1 = some l) {q : SfuReq} :
    let v := (vSrcs (vTurn s b r) b r (vWord s run) 1).2
    v.sfu.reqs.find? (fun q => q.due == v.clk.slot + 12) = some q → startedBefore q.uid q.pos b.uid r.pos = true →
      Answers .vsfu s fun t =>
        t = { vGo v run with seq := t.seq, ev := t.ev, regs := t.regs, cyc := t.cyc, pins := t.pins } ∧ Caused t 0x05 ∧ t.sfu = v.sfu := by
  intro v hq hbefore
  have hfr := (slips_slip v b r 4 0 0).frame
  refine answers_vIssue _ h rfl (vSfu_loses hl hq hbefore) ((sourceReads_vSrcs ..).engineStep.trans (hfr.trans (by rw [hfr])))
    fun pins => ⟨?_, caused_slip v b r 4 0 0, ?_⟩
  · rw [hfr]
    rfl
  · show (slip v b r 4 0 0).sfu = v.sfu
    rw [hfr]

-- VLD and VST.

/-- The recipe goes on after BAD_FORMAT. -/
theorem vGo_badFormat (v : State) (run : Running) (b : Bench) (pos : Nat) (pins : Pins) :
    let t : State := { vGo (badFormat v b pos) run with pins := pins }
    t = { vGo v run with seq := t.seq, ev := t.ev, pins := t.pins } ∧ Caused t 0x04 ∧ HaltsFor v t 2 := by
  have hfr := badFormat_frame v b pos
  refine ⟨?_, caused_of_evWith (congrArg State.ev hfr), haltsFor_badFormat v b pos⟩
  rw [hfr]
  rfl

/-- The recipe goes on with a row that a failed check asks to halt for. -/
theorem vGo_reqHalt (v : State) (run : Running) (cause : Nat) (b : Bench) (pos : Nat) (pins : Pins) :
    let t : State := { vGo (reqHalt v cause b pos) run with pins := pins }
    t = { vGo v run with seq := t.seq, pins := t.pins } ∧ HaltsFor v t cause := by
  refine ⟨?_, fun hact hreq => ?_⟩
  · simp only [reqHalt]
    split <;> rfl
  · simp [reqHalt, hact, hreq, vGo, vAdvance]

theorem answers_vld_stops (h : VNow s 0x08 run b r) :
    let u := vTurn s b r
    let w := vWord s run
    let td := vF w 38 6
    (vTdFails b td ≠ [] → Answers .vld s fun t =>
      t = { vGo u run with seq := t.seq, ev := t.ev, regs := t.regs, cyc := t.cyc, pins := t.pins } ∧ Caused t 0x11 ∧ HaltsFor u t 4 ∧
      RegsKept u t [0xE040]) ∧
    (vTdFails b td = [] → vldBad u b td (vTdRow u w) = true → Answers .vld s fun t =>
      t = { vGo u run with seq := t.seq, ev := t.ev, pins := t.pins } ∧ Caused t 0x04 ∧ HaltsFor u t 2) := by
  intro u w td
  have hturn : EngineStep s u := engineStep_vTurn s b r
  refine ⟨fun hf => ?_, fun hf hbad => ?_⟩
  · have hp := parityFails_ramParities u 1 hf
    exact answers_vIssueWith true _ h rfl (vLoad_fails hf) (by rw [hp.frame, hturn]) (by rw [hp.frame, hturn]) fun pins => hp.goesOn run pins
  · have hfr := badFormat_frame u b r.pos
    exact answers_vIssueWith true _ h rfl (vLoad_bad hf hbad) (by rw [hfr, hturn]) (by rw [hfr, hturn]) fun pins => vGo_badFormat ..

theorem answers_vld_reads (h : VNow s 0x08 run b r) :
    let u := vTurn s b r
    let w := vWord s run
    let td := vF w 38 6
    let fmt := vF w 34 4
    let x := feedRow u b r td (vTdRow u w) (u.vec.vl * (fmtBits fmt / 8)) false false 2
    vTdFails b td = [] → vldBad u b td (vTdRow u w) = false → u.vec.vl ≠ 0 →
      (x.1 = .wait → Answers .vld s fun t => t = { x.2 with pins := t.pins } ∧ t.vec = u.vec) ∧
      (x.1 = .nothing → Answers .vld s fun t => t = { vGo x.2 run with pins := t.pins }) ∧
      (∀ bs, x.1 = .row bs true → Answers .vld s fun t =>
        t = { vGo x.2 run with seq := t.seq, pins := t.pins } ∧ HaltsFor x.2 t 4) ∧
      (∀ bs, x.1 = .row bs false → Answers .vld s fun t =>
        t.vec.run = (vGo x.2 run).vec.run ∧ (vF w 44 10 / 256 < 2 → VFrame t x.2 run) ∧
        VWrites t x.2 b r w 2 (some (if fmtIsInt fmt then 1 else 4)) fun j =>
          if j < u.vec.vl then some (vldLane fmt bs j) else none) := by
  intro u w td fmt x hf hgood hvl
  have hturn : EngineStep s u := engineStep_vTurn s b r
  have hread : FeedReads u x.2 := feedReads_feedRow ..
  have hcase := vLoad_fed hf hgood hvl (r := r)
  have hq : x.2.pending = s.pending := by rw [hread, hturn]
  have hv : x.2.variant = s.variant := by rw [hread, hturn]
  refine ⟨fun hx => ?_, fun hx => ?_, fun bs hx => ?_, fun bs hx => ?_⟩ <;> rw [show (vldFed u b r w).1 = _ from hx] at hcase
  · exact answers_vIssueWith false _ h rfl hcase hq hv fun pins => ⟨rfl, hread.vec_eq⟩
  · exact answers_vIssueWith true _ h rfl hcase hq hv fun pins => rfl
  · have hslip := (slips_reqHalt (s := x.2) 4 b r.pos).frame
    exact answers_vIssueWith true _ h rfl hcase ((congrArg State.pending hslip).trans hq) ((congrArg State.variant hslip).trans hv)
      fun pins => vGo_reqHalt ..
  · exact answers_vIssueWith true _ h rfl hcase ((congrArg State.pending (engineStep_vDst ..)).trans hq)
      ((congrArg State.variant (engineStep_vDst ..)).trans hv) fun pins => vWrites_vGo_vDst ..

theorem answers_vld_empty (h : VNow s 0x08 run b r) :
    let u := vTurn s b r
    let w := vWord s run
    vTdFails b (vF w 38 6) = [] → vldBad u b (vF w 38 6) (vTdRow u w) = false → u.vec.vl = 0 → Answers .vld s fun t =>
      t.vec.run = (vGo u run).vec.run ∧ (vF w 44 10 / 256 < 2 → VFrame t u run) ∧ VWrites t u b r w 2 none fun _ => none := by
  intro u w hf hgood hvl
  have hstep := (engineStep_vTurn s b r).trans (engineStep_vDst (vTurn s b r) b r 2 none (vF w 44 10) ((natsTo 128).map fun _ => none) false)
  exact answers_vIssueWith true _ h rfl (vLoad_empty hf hgood hvl) (by rw [hstep]) (by rw [hstep]) fun pins => vWrites_vGo_vDst ..

theorem answers_vst_stops (h : VNow s 0x09 run b r) :
    let u := vTurn s b r
    let w := vWord s run
    let td := vF w 38 6
    (vTdFails b td ≠ [] → Answers .vst s fun t =>
      t = { vGo u run with seq := t.seq, ev := t.ev, regs := t.regs, cyc := t.cyc, pins := t.pins } ∧ Caused t 0x11 ∧ HaltsFor u t 4 ∧
      RegsKept u t [0xE040]) ∧
    (vTdFails b td = [] → tdKind b td = 0 ∨ 4 < tdKind b td → Answers .vst s fun t =>
      t = { vGo u run with seq := t.seq, ev := t.ev, pins := t.pins } ∧ Caused t 0x04 ∧ HaltsFor u t 2) := by
  intro u w td
  refine ⟨fun hf => ?_, fun hf hbad => ?_⟩
  · have hp := parityFails_ramParities u 1 hf
    exact answers_vIssue _ h rfl (vStore_fails hf) (hp.frame.trans (by rw [hp.frame])) fun pins => hp.goesOn run pins
  · have hfr := badFormat_frame u b r.pos
    exact answers_vIssue _ h rfl (vStore_bad hf hbad) (hfr.trans (by rw [hfr])) fun pins => vGo_badFormat ..

/-- The recipe goes on with the row `y` left to the writer. -/
theorem vGo_vsts {u v : State} {g : SMap W32} {fl : Nat → Flg} (hset : FlagsSet { v with gen := g } u fl) (run : Running) (y : HeldVst)
    (pins : Pins) :
    let t : State := { vGo { u with vec := { u.vec with vsts := u.vec.vsts ++ [y] } } run with pins := pins }
    t = { v with vec := t.vec, gen := t.gen, regs := t.regs, cyc := t.cyc, pins := t.pins } ∧ RegsKept v t [0x4804] ∧
      t.vec.run = (vGo v run).vec.run ∧ t.vec.vsts = v.vec.vsts ++ [y] := by
  refine ⟨?_, hset.kept, ?_, ?_⟩ <;> rw [hset.frame] <;> rfl

theorem answers_vst_writes (h : VNow s 0x09 run b r) :
    let u := vTurn s b r
    let w := vWord s run
    let td := vF w 38 6
    let x := vSrc u b r w (vF w 44 10)
    vTdFails b td = [] → tdKind b td ≠ 0 → tdKind b td ≤ 4 →
      (x.1 = none → Answers .vst s fun t => t = { vGo x.2 run with pins := t.pins }) ∧
      ∀ l, x.1 = some l →
        (vHeldSeam x.2 b r = true ∨ x.2.vec.vl = 0 → Answers .vst s fun t => t = { vGo x.2 run with pins := t.pins }) ∧
        (vHeldSeam x.2 b r = false → x.2.vec.vl ≠ 0 → Answers .vst s fun t =>
          t = { x.2 with vec := t.vec, gen := t.gen, regs := t.regs, cyc := t.cyc, pins := t.pins } ∧ RegsKept x.2 t [0x4804] ∧
          t.vec.run = (vGo x.2 run).vec.run ∧
          ∃ y : HeldVst, t.vec.vsts = x.2.vec.vsts ++ [y] ∧ y.td = td ∧ y.row = vTdRow u w ∧ y.due = s.clk.slot + 1 ∧
            y.uid = b.uid ∧ y.pos = r.pos ∧ y.seams = vOpenSeams x.2 b r ∧
            (vF w 34 4 = 8 → tdFmt b td = 8 → y.bytes = (natsTo x.2.vec.vl).flatMap fun i => bytesLE 4 (lget l 0 i).toNat)) := by
  intro u w td x hf hk hk'
  have hsrc : SourceReads u x.2 := sourceReads_vSrc ..
  have hvec : x.2.vec = u.vec := hsrc.vec_eq
  refine ⟨fun hx => ?_, fun l hx => ⟨fun hvoid => ?_, fun hheld hvl => ?_⟩⟩
  · exact answers_vIssue _ h rfl (vStore_lost hf hk hk' hx) hsrc.engineStep fun _ => rfl
  · exact answers_vIssue _ h rfl (vStore_void hf hk hk' hx (hvec ▸ hvoid)) hsrc.engineStep fun _ => rfl
  · obtain ⟨g, z, hset, hy⟩ := vStore_sends hf hk hk' hx hheld (hvec ▸ hvl) (r := r)
    have hz : EngineStep x.2 z := hset.frame.trans (by rw [hset.frame])
    refine answers_vIssue _ h rfl hy (hsrc.engineStep.trans (hz.trans rfl)) fun pins => ?_
    obtain ⟨ht, hkept, hrun, hvsts⟩ := vGo_vsts hset run (vstRow x.2 b r w (vstCodes x.2 b (vF w 34 4) u.vec.vl l).1) pins
    refine ⟨ht, hkept, hrun, _, hvsts, rfl, ?_, ?_, rfl, rfl, rfl, fun hfmt hfd => ?_⟩
    · show vTdRow x.2 w = vTdRow u w
      rw [vTdRow, vTdRow, hvec]
    · show x.2.clk.slot + 1 = s.clk.slot + 1
      rw [hsrc, (engineStep_vTurn s b r).clk_eq]
    · show packCodes (vstPlace b td (vF w 34 4)) (vstCodes x.2 b (vF w 34 4) u.vec.vl l).1 = _
      rw [vstPlace, if_pos (by omega), hfd, hfmt, vstCodes_int32, hvec]
      exact List.flatMap_map ..

/-- Settles O52: lane-wise instructions and reductions by their lanes, and the others by what each of them leaves. -/
theorem rowsMoveThroughTheVectorEngine : Obligations.RowsMoveThroughTheVectorEngine := by
  refine ⟨vIssues_vOp (fun _ => rfl) fun v b w l k => laneGives_pure v b k _, vIssues_vSelect fun _ => rfl,
    vIssues_vReduce (f := redSumI) fun _ => rfl, vIssues_vReduce (f := redMaxI) fun _ => rfl, vIssues_vReduce (f := treeLanes) fun _ => rfl,
    fun s run b r => ⟨fun h l hl hd => answers_vcprs h hl hd, fun h l hl => answers_vexpd h hl,
      fun h l hl => ⟨answers_vsfu_asks h hl, fun q => answers_vsfu_slips h hl⟩, fun h => ?_, fun h => ?_⟩⟩
  · obtain ⟨hfails, hbad⟩ := answers_vld_stops h
    exact ⟨hfails, hbad, answers_vld_reads h, answers_vld_empty h⟩
  · obtain ⟨hfails, hbad⟩ := answers_vst_stops h
    exact ⟨hfails, hbad, fun hf hk hk' => (answers_vst_writes h hf hk hk').1,
      fun l hf hk hk' hx => (answers_vst_writes h hf hk hk').2 l hx⟩

end Sys2Proof.Machine
end

section
/-! PROOFS. The recipes: their start and end, loops, the vector length, commits, and words that fail their parity (R173, R180 to R183, R423). -/
namespace Sys2Proof.Machine

variable {s t u v : State} {run : Running} {b : Bench} {r : Rec} {w : W64} {c : Instr} {op uid pos : Nat}

-- The start of a recipe (R173).

/-- A record after a change that keeps its position. -/
theorem recIn_updRec_at {f : Rec → Rec} (hf : ∀ r, (f r).pos = r.pos ∧ (f r).fin = r.fin) (h : recIn s uid pos = some r) :
    recIn (updRec s uid pos f) uid pos = some (f r) := by
  rw [recIn_updRec hf, h]
  rfl

/-- A recipe is not over: one runs, or the slot of its END has not passed. -/
def VecBusy (s : State) : Prop := s.vec.run.isSome = true ∨ s.vec.hasEnd = true ∧ s.clk.slot ≤ s.vec.endSlot

theorem vStart_busy (h : VecBusy s) : vStart s b r = updRec (slip s b r 5 0 0) b.uid r.pos fun r => { r with n := 1 } :=
  if_pos (by simpa [VecBusy] using h)

/-- The engine at the first instruction of a recipe. -/
def recipeBegun (s : State) (b : Bench) (r : Rec) : Vec :=
  { s.vec with
    run := some ⟨b.uid, r.pos, vRcp r, (mget s.vec.dir {} (vRcp r)).start, s.clk.slot, []⟩
    vl := 128, k := [0, 0, 0, 0], li := [0, 0], flags := [], lastEntry := vRcp r }

theorem vStart_free (h : ¬ VecBusy s) :
    vStart s b r = { updRec s b.uid r.pos fun r => { r with slipped := true } with vec := recipeBegun s b r } :=
  if_neg (by simpa [VecBusy] using h)

theorem answers_recipeStart_busy (h : RecNow s uid pos 6 b r) (hn : r.n = 0) (hslipped : r.slipped = false) (hdue : vDue b r ≤ s.clk.slot)
    (hbusy : VecBusy s) : Answers (.recipeStart uid pos) s fun t =>
      t = { s with seq := t.seq, ev := t.ev, regs := t.regs, cyc := t.cyc, pins := t.pins } ∧ Caused t 0x05 ∧
      RegsKept s t [0x3014, 0x3018] ∧ RecAtN t uid pos 1 := by
  have hslip := slips_slip (inTurn s uid pos) b r 5 0 0
  obtain ⟨v, hv⟩ : ∃ v, v = slip (inTurn s uid pos) b r 5 0 0 := ⟨_, rfl⟩
  rw [← hv] at hslip
  have hcaused : Caused v 0x05 := hv ▸ caused_slip ..
  have hfr : setAhead v s.acc.ahead =
      { s with seq := { s.seq with haltReq := v.seq.haltReq }, ev := v.ev, regs := v.regs, cyc := v.cyc } := by
    rw [hslip.frame]
    rfl
  have hrec : recIn (updRec v uid pos fun r => { r with n := 1 }) uid pos = some { r with n := 1 } := by
    have hbenches : v.seq.benches = s.seq.benches := by rw [hslip.frame]; rfl
    exact recIn_updRec_at (f := fun r => { r with n := 1 }) (fun _ => ⟨rfl, rfl⟩) ((recIn_of_benches hbenches).trans (recIn_of_recNow h))
  have hu : vStart (inTurn s uid pos) b r = updRec v uid pos fun r => { r with n := 1 } := by
    rw [vStart_busy (s := inTurn s uid pos) hbusy, ← hv, uid_of_recNow h, pos_of_recNow h]
  refine answers_onRec (updRec (setAhead v s.acc.ahead) uid pos fun r => { r with n := 1 }) h rfl (dueIf_of_true (by simp [hn, hslipped]) _) hdue
    (by rw [hu, setAhead_updRec]) (by rw [hfr]; rfl) (by rw [hfr]; rfl) fun pins => ⟨?_, hcaused, hslip.kept, map_recOf Rec.n hrec⟩
  rw [hfr]
  rfl

theorem answers_recipeStart_free (h : RecNow s uid pos 6 b r) (hn : r.n = 0) (hslipped : r.slipped = false) (hdue : vDue b r ≤ s.clk.slot)
    (hfree : ¬ VecBusy s) : Answers (.recipeStart uid pos) s fun t =>
      t = { s with pins := t.pins, seq := { s.seq with benches := t.seq.benches }, vec := { s.vec with
        run := some ⟨uid, pos, vRcp r, (mget s.vec.dir {} (vRcp r)).start, s.clk.slot, []⟩
        vl := 128, k := [0, 0, 0, 0], li := [0, 0], flags := [], lastEntry := vRcp r } } ∧
      ∃ q, recOf t uid pos = some q ∧ q.2.slipped = true := by
  have hrec : recIn (updRec s uid pos fun r => { r with slipped := true }) uid pos = some { r with slipped := true } :=
    recIn_updRec_at (f := fun r => { r with slipped := true }) (fun _ => ⟨rfl, rfl⟩) (recIn_of_recNow h)
  refine answers_onRec _ h rfl (dueIf_of_true (by simp [hn, hslipped]) _) hdue (congrArg (setAhead · _) (vStart_free (s := inTurn s uid pos) hfree))
    rfl rfl fun pins => ?_
  rw [uid_of_recNow h, pos_of_recNow h]
  obtain ⟨y, hy⟩ := exists_recOf hrec
  exact ⟨by rw [recipeBegun, uid_of_recNow h, pos_of_recNow h]; rfl, _, hy, rfl⟩

-- The end of a recipe (R173, R180), and instructions that read no operand.

/-- An instruction whose word is good does what `f` says. -/
theorem answers_onInstr {f : State → Running → State} {P : State → Prop} (u : State) (hx : exec c s = act s (onInstr op f))
    (hrun : s.vec.run = some run) (hop : vF (vWord s run) 58 6 = op) (hnext : run.next ≤ s.clk.slot) (hact : seqActive s = true)
    (hfrz : s.seq.frozen = false) (hu : f s run = u) (hq : u.pending = s.pending) (hv : u.variant = s.variant)
    (hP : ∀ pins, P { u with pins := pins }) : Answers c s P := by
  refine answers_of_effect u hx ?_ hq hv hP
  rw [onInstr, inSlot_now s _ _ run.next (by simp [instrDue, hrun, hact, hop, dueIf]) hnext hfrz]
  simp [hrun, hu]

/-- The engine after the END of a recipe. -/
def recipeEnded (s : State) (run : Running) : Vec :=
  { s.vec with
    run := none, endSlot := s.clk.slot, hasEnd := true, lastEntry := run.entry, lastPc := run.pc, li := [0, 0]
    ending := s.vec.ending ++ [(run.uid, run.pos)] }

theorem incReg_frame (s : State) (o lo len : Nat) :
    incReg s o lo len = { s with regs := (incReg s o lo len).regs, cyc := (incReg s o lo len).cyc } := addReg_frame ..

theorem vFinish_eq (s : State) (run : Running) : vFinish s run =
    { updRec s run.uid run.pos fun r => { r with n := 1 } with
      vec := recipeEnded s run, regs := (incReg s 0x4820 0 32).regs, cyc := (incReg s 0x4820 0 32).cyc } := by
  rw [vFinish, incReg_frame]
  rfl

theorem answers_recipeEnd (h : VNow s 0x00 run b r) : Answers .recipeEnd s fun t =>
    t = { s with pins := t.pins, regs := t.regs, cyc := t.cyc, seq := { s.seq with benches := t.seq.benches }, vec := { s.vec with
      run := none, endSlot := s.clk.slot, hasEnd := true, lastEntry := run.entry, lastPc := run.pc, li := [0, 0]
      ending := s.vec.ending ++ [(run.uid, run.pos)] } } ∧
    RecAtN t run.uid run.pos 1 ∧ RegsKept s t [0x4820] ∧
    regF t 0x4820 0 32 = min 0xFFFFFFFF (regF s 0x4820 0 32 + 1) := by
  obtain ⟨hrun, hop, hgood, hnext, hact, hfrz, hrec⟩ := h
  have hrecN : recIn (updRec s run.uid run.pos fun r => { r with n := 1 }) run.uid run.pos = some { r with n := 1 } :=
    recIn_updRec_at (f := fun r => { r with n := 1 }) (fun _ => ⟨rfl, rfl⟩) (by rw [recIn_eq_map, hrec]; rfl)
  refine answers_onInstr _ rfl hrun hop hnext hact hfrz ((if_neg (by simp [hgood])).trans (vFinish_eq s run)) rfl rfl fun pins =>
    ⟨rfl, map_recOf Rec.n hrecN, fun o ho => ?_, ?_⟩
  · exact reg_incReg _ _ _ _ _ (by simpa using ho)
  · exact regF_incReg_word ..

-- Loops (R183).

/-- A loop that is entered stays at its first instruction. -/
theorem loopNext_entered (fuel : Nat) (l : List VLoop) (pc body count : Nat) (hbody : 0 < body) :
    loopNext (fuel + 1) (l ++ [⟨pc, body, count, 0⟩]) pc = (l ++ [⟨pc, body, count, 0⟩], pc) := by
  simp [loopNext, hbody.ne']

/-- The count of a LOOP, from its word or its record. -/
def loopCount (r : Rec) (w : W64) : Nat := if vF w 46 2 = 0 then vF w 48 10 else if vF w 46 2 = 1 then rf r 3 22 10 else rf r 3 12 10

theorem vLoopStart_skips (h : loopCount r w = 0) : vLoopStart s run r w = vAdvance s run run.loops (run.pc + 1 + vF w 37 9) := if_pos h

theorem vLoopStart_enters (h : 0 < loopCount r w) :
    vLoopStart s run r w = vAdvance s run (run.loops ++ [⟨run.pc + 1, vF w 37 9, loopCount r w, 0⟩]) (run.pc + 1) := if_neg (by exact h.ne')

theorem answers_recipeLoop {P : State → Prop} (h : VNow s 0x02 run b r) (hu : vLoopStart s run r (vWord s run) = u) (hq : u.pending = s.pending)
    (hv : u.variant = s.variant) (hP : ∀ pins, P { u with pins := pins }) : Answers .recipeLoop s P := by
  obtain ⟨hrun, hop, hgood, hnext, hact, hfrz, hrec⟩ := h
  exact answers_onInstr u rfl hrun hop hnext hact hfrz (by simp [hgood, hrec, hu]) hq hv hP

theorem answers_recipeLoop_enters (h : VNow s 0x02 run b r) :
    let w := vWord s run
    0 < loopCount r w → 0 < vF w 37 9 → run.pc < 511 → Answers .recipeLoop s fun t =>
      t = { s with pins := t.pins, vec := { s.vec with
        run := some { run with pc := run.pc + 1, loops := run.loops ++ [⟨run.pc + 1, vF w 37 9, loopCount r w, 0⟩]
                               next := s.clk.slot + 1 }
        li := loopIdx (run.loops ++ [⟨run.pc + 1, vF w 37 9, loopCount r w, 0⟩]), lastPc := run.pc, lastEntry := run.entry } } := by
  intro w hcount hbody hpc
  refine answers_recipeLoop h (vLoopStart_enters hcount) rfl rfl fun pins => ?_
  have hmod : (run.pc + 1) % 512 = run.pc + 1 := Nat.mod_eq_of_lt (by omega)
  simp only [vAdvance, loopNext_entered 2 run.loops (run.pc + 1) (vF w 37 9) (loopCount r w) hbody, hmod, w]

-- VCOMMIT (R180, R181).

theorem vCommit_skips (h : mget b.skips 0 (vSeam r (vF w 48 1)) ≠ 0) : let k := vSeam r (vF w 48 1)
    vCommit s b r w = updBench s b.uid fun y => { y with
      skips := mset y.skips 0 k (mget b.skips 0 k - 1)
      held := if mget b.skips 0 k = 1 then y.held.filter (· != k) else y.held } := if_pos h

theorem vCommit_commits (h : mget b.skips 0 (vSeam r (vF w 48 1)) = 0) (hd : ∃ y, benchOf s b.uid = some y ∧ vSeam r (vF w 48 1) ∈ y.disp) :
    vCommit s b r w = { s with vec := { s.vec with commits := s.vec.commits ++ [⟨s.clk.slot + 1, b.uid, r.pos, vSeam r (vF w 48 1)⟩] } } := by
  simp [vCommit, h, seamAccess_dispatched hd]

theorem vCommit_held (h : mget b.skips 0 (vSeam r (vF w 48 1)) = 0)
    (hd : ∃ y, benchOf s b.uid = some y ∧ vSeam r (vF w 48 1) ∉ y.disp ∧ vSeam r (vF w 48 1) ∈ y.held) : vCommit s b r w = s := by
  obtain ⟨y, hy, hdisp, hheld⟩ := hd
  simp [vCommit, h, seamAccess, hy, hdisp, hheld]

theorem answers_vcommit_skips (h : VNow s 0x04 run b r) :
    let u := vTurn s b r
    let k := vSeam r (vF (vWord s run) 48 1)
    mget b.skips 0 k ≠ 0 → Answers .vcommit s fun t =>
      t = { vGo u run with seq := { u.seq with benches := t.seq.benches }, pins := t.pins } ∧
      t.vec.commits = u.vec.commits ∧
      ∀ y, benchOf u b.uid = some y → ∃ z, benchOf t b.uid = some z ∧ mget z.skips 0 k = mget b.skips 0 k - 1 := by
  intro u k hskip
  refine answers_vIssue _ h rfl (vCommit_skips hskip) rfl fun pins => ⟨rfl, rfl, fun y hy => ?_⟩
  refine ⟨_, (benchOf_updBench (by exact fun _ => rfl)).trans (by rw [hy, Option.map_some, if_pos rfl]), ?_⟩
  simp [mget_mset, k]

-- Words that fail their parity (R423).

/-- An instruction with a word that fails its parity issues nothing, and the recipe goes on. -/
theorem answers_wordFails {f : State → Running → State} (hx : exec c s = act s (onInstr op f)) (run : Running)
    (hf : vWordBad s run = true → f s run = vGo (ramParity s 2) run)
    (hrun : s.vec.run = some run) (hop : vF (vWord s run) 58 6 = op) (hbad : vWordBad s run = true) (hnext : run.next ≤ s.clk.slot)
    (hact : seqActive s = true) (hfrz : s.seq.frozen = false) : Answers c s fun t =>
      Caused t 0x11 ∧ HaltsFor s t 4 ∧ RegsKept s t [0xE040] ∧ t.vec = (vGo s run).vec ∧ t.acc = s.acc ∧ t.seams = s.seams := by
  have hp := parityFails_ramParity s 2
  refine answers_onInstr _ hx hrun hop hnext hact hfrz (hf hbad) ?_ ?_ fun pins => ⟨hp.caused, hp.halts, hp.kept, ?_, ?_, ?_⟩ <;>
    rw [hp.frame] <;> rfl

theorem vIssueWith_wordFails {f : State → Bench → Rec → W64 → Bool × State} (h : vWordBad s run = true) :
    vIssueWith s run f = vGo (ramParity s 2) run := if_pos h

/-- `answers_wordFails` for an instruction that always issues. -/
theorem answers_vIssue_wordFails {f : VFn} (hx : exec c s = act s (vIssue op f)) (run : Running) (hrun : s.vec.run = some run)
    (hop : vF (vWord s run) 58 6 = op) (hbad : vWordBad s run = true) (hnext : run.next ≤ s.clk.slot) (hact : seqActive s = true)
    (hfrz : s.seq.frozen = false) : Answers c s fun t =>
      Caused t 0x11 ∧ HaltsFor s t 4 ∧ RegsKept s t [0xE040] ∧ t.vec = (vGo s run).vec ∧ t.acc = s.acc ∧ t.seams = s.seams :=
  answers_wordFails hx run (fun h => vIssueWith_wordFails h) hrun hop hbad hnext hact hfrz

/-- Settles O51: the start and the end of a recipe, and what each instruction that moves no lanes leaves. -/
theorem recipesStartGoOnAndEnd : Obligations.RecipesStartGoOnAndEnd := by
  refine fun s => ⟨fun uid pos b r h hn hslipped hdue => ⟨answers_recipeStart_busy h hn hslipped hdue, answers_recipeStart_free h hn hslipped hdue⟩,
    fun run b r h => answers_recipeEnd h, fun run b r h => answers_vIssue _ h rfl rfl (.refl _) fun _ => rfl,
    fun run b r h => ⟨fun hcount => answers_recipeLoop h (vLoopStart_skips hcount) rfl rfl fun _ => rfl, answers_recipeLoop_enters h⟩,
    fun run b r h => answers_vIssue _ h rfl rfl rfl fun _ => ⟨rfl, rfl⟩,
    fun run b r h => ⟨answers_vcommit_skips h, fun hskip hd => answers_vIssue _ h rfl (vCommit_commits hskip hd) rfl fun _ => rfl,
      fun hskip hd => answers_vIssue _ h rfl (vCommit_held hskip hd) (.refl _) fun _ => rfl⟩, ?_⟩
  refine ⟨fun run => answers_wordFails rfl run fun h => if_pos h, answers_vIssue_wordFails rfl,
    fun run => answers_wordFails rfl run fun h => if_pos h,
    answers_vIssue_wordFails rfl, answers_vIssue_wordFails rfl, fun run => answers_wordFails rfl run fun h => vIssueWith_wordFails h,
    answers_vIssue_wordFails rfl, answers_vIssue_wordFails rfl, answers_vIssue_wordFails rfl, answers_vIssue_wordFails rfl,
    answers_vIssue_wordFails rfl, answers_vIssue_wordFails rfl, answers_vIssue_wordFails rfl, answers_vIssue_wordFails rfl⟩

end Sys2Proof.Machine
end

section
/-! PROOFS. The delivery of a result of the special function unit: its status, and where its lanes go (R168, R174, R193, R195, R199). -/
namespace Sys2Proof.Machine

variable {s t u v : State} {b : Bench} {r : Rec} {q : SfuReq} {uid pos k : Nat}

theorem EvGrows.of_eq (h : t.ev = s.ev) : EvGrows s t := ⟨[], by simp [h]⟩

theorem EvGrows.trans (h : EvGrows s t) (k : EvGrows t u) : EvGrows s u := by
  obtain ⟨l, hl⟩ := h
  obtain ⟨m, hm⟩ := k
  exact ⟨l ++ m, by rw [hm, hl, List.append_assoc]⟩

-- What SFU_STICKY holds.

/-- Every sticky flag of the unit that was set stays set. -/
def SfuSticks (s t : State) : Prop := ∀ k, (reg s 0x5004).getLsbD k = true → (reg t 0x5004).getLsbD k = true

theorem SfuSticks.of_eq (h : reg t 0x5004 = reg s 0x5004) : SfuSticks s t := fun _ hk => h ▸ hk

theorem sfuSticks_orReg (s : State) (o : Nat) (m : W32) : SfuSticks s (orReg s o m) := by
  intro k hk
  rw [reg_orReg]
  split
  next h => simp [← h, hk]
  next => exact hk

-- The status of a result.

/-- State `t` is `s` after status of a record or a result: flags, counts, events, and a halt that they may ask for. -/
structure Notes (s t : State) : Prop where
  frame : t = { s with seq := { s.seq with haltReq := t.seq.haltReq }, ev := t.ev, regs := t.regs, cyc := t.cyc }
  grows : EvGrows s t
  sticks : SfuSticks s t

theorem Notes.refl (s : State) : Notes s s := ⟨rfl, .of_eq rfl, .of_eq rfl⟩

theorem Notes.trans (h : Notes s t) (k : Notes t u) : Notes s u where
  frame := k.frame.trans (by rw [h.frame])
  grows := h.grows.trans k.grows
  sticks n hn := k.sticks n (h.sticks n hn)

theorem Notes.ite {c : Prop} [Decidable c] (h : Notes s t) (k : Notes s u) : Notes s (if c then t else u) := by
  split <;> assumption

theorem Notes.engineStep (h : Notes s t) : EngineStep s t := h.frame.trans (by rw [h.frame])

theorem notes_orReg (s : State) (o : Nat) (m : W32) : Notes s (orReg s o m) where
  frame := (orReg_frame s o m).trans (by rw [orReg_frame])
  grows := .of_eq (by rw [orReg_frame])
  sticks := sfuSticks_orReg s o m

theorem notes_stick (s : State) (o : Nat) (fl : Flg) (mask : Nat) : Notes s (stick s o fl mask) := .ite (.refl s) (notes_orReg ..)

theorem notes_setReg (s : State) {o : Nat} (v : W32) (ho : o ≠ 0x5004) : Notes s (setReg s o v) where
  frame := (setReg_frame s o v).trans (by rw [setReg_frame])
  grows := .of_eq (by rw [setReg_frame])
  sticks := .of_eq (by simp [ho.symm])

theorem notes_raise (s : State) (code arg : Nat) : Notes s (raise s code arg) where
  frame := (raise_frame s code arg).trans (by rw [raise_frame])
  grows := raise_grows s code arg
  sticks := .of_eq (by rw [raise_frame, reg, reg])

theorem notes_ramParity (s : State) (mem : Nat) : Notes s (ramParity s mem) := by
  refine ((notes_raise s 0x11 mem).trans (notes_setReg _ _ (by decide))).trans (t := incReg (raise s 0x11 mem) 0xE040 0 32) ?_
  unfold ramParity reqHaltSeq
  exact .ite (.refl _) ⟨rfl, .of_eq rfl, .of_eq rfl⟩

theorem notes_sfuStatus (s : State) (q : SfuReq) (off : Nat) : Notes (stick s 0x5004 (sfuFlags q) 0x17) (sfuStatus s q off) := by
  unfold sfuStatus lanePar
  extract_lets fl s₁ s₂ s₃ s₄
  have h₁ : Notes (stick s 0x5004 fl 0x17) s₁ := notes_stick ..
  have h₂ : Notes s₁ s₂ := .ite (notes_orReg ..) (.refl _)
  have h₃ : Notes s₂ s₃ := .ite (notes_setReg _ _ (by decide)) (.refl _)
  have h₄ : Notes s₃ s₄ := .ite (.refl _) (notes_ramParity ..)
  exact ((h₁.trans h₂).trans (h₃.trans h₄)).trans (.ite (.refl _) (notes_ramParity ..))

/-- The flags of a result are set in SFU_STICKY. -/
theorem sfuStatus_flags (s : State) (q : SfuReq) (off : Nat) (hk : k < 5) (hk3 : k ≠ 3) (h : (sfuFlags q).getLsbD k = true) :
    (reg (sfuStatus s q off) 0x5004).getLsbD k = true := by
  refine (notes_sfuStatus s q off).sticks k ?_
  have hne : sfuFlags q ≠ 0 := by
    intro h0
    simp [h0] at h
  rw [stick, if_neg hne, reg_orReg, if_pos rfl]
  obtain rfl | rfl | rfl | rfl : k = 0 ∨ k = 1 ∨ k = 2 ∨ k = 4 := by omega
  all_goals simp [h]

theorem sfuStatus_off (s : State) (off : Nat) (h : q.off = true) : (reg (sfuStatus s q off) 0x5004).getLsbD 6 = true := by
  unfold sfuStatus lanePar
  extract_lets fl s₁ s₂ s₃ s₄
  have h₂ : (reg s₂ 0x5004).getLsbD 6 = true := by simp [s₂, h]
  have h₃ : Notes s₂ s₃ := .ite (notes_setReg _ _ (by decide)) (.refl _)
  have h₄ : Notes s₃ s₄ := .ite (.refl _) (notes_ramParity ..)
  exact ((h₃.trans h₄).trans (.ite (.refl _) (notes_ramParity ..))).sticks 6 h₂

-- The destination of a result.

/-- State `t` is `s` after the delivery of lanes, whatever their destination: no request and no vector register changes. -/
structure Delivers (s t : State) : Prop where
  frame : EngineStep s t
  reqs : t.sfu = s.sfu
  v : t.vec.v = s.vec.v
  grows : EvGrows s t
  sticks : SfuSticks s t

theorem Delivers.refl (s : State) : Delivers s s := ⟨.refl s, rfl, rfl, .of_eq rfl, .of_eq rfl⟩

theorem Delivers.trans (h : Delivers s t) (k : Delivers t u) : Delivers s u where
  frame := h.frame.trans k.frame
  reqs := k.reqs.trans h.reqs
  v := k.v.trans h.v
  grows := h.grows.trans k.grows
  sticks n hn := k.sticks n (h.sticks n hn)

theorem Delivers.ite {c : Prop} [Decidable c] (h : Delivers s t) (k : Delivers s u) : Delivers s (if c then t else u) := by
  split <;> assumption

theorem Notes.delivers (h : Notes s t) : Delivers s t := ⟨h.engineStep, by rw [h.frame], by rw [h.frame], h.grows, h.sticks⟩

/-- A change of what the engine sends its results to. -/
theorem delivers_of_frame (h : t = { s with acc := t.acc, seams := t.seams, seq := t.seq, free := t.free, gen := t.gen, scan := t.scan
                                            vec := { t.vec with v := s.vec.v } }) : Delivers s t := by
  refine ⟨h.trans (by rw [h]), ?_, ?_, .of_eq ?_, .of_eq (reg_of_regs ?_)⟩ <;> rw [h]

theorem delivers_vFlags (s : State) (fls : List Flg) : Delivers s (vFlags s fls) := by
  have hf := flagsSet_vFlags s fls
  exact ⟨engineStep_vFlags s fls, by rw [hf.frame], by rw [hf.frame], .of_eq (by rw [hf.frame]), .of_eq (hf.kept _ (by decide))⟩

theorem notes_reqHalt (s : State) (cause : Nat) (b : Bench) (pos : Nat) : Notes s (reqHalt s cause b pos) :=
  .ite (.refl s) ⟨rfl, .of_eq rfl, .of_eq rfl⟩

theorem notes_slip (s : State) (b : Bench) (r : Rec) (cause expect found : Nat) : Notes s (slip s b r cause expect found) where
  frame := (slips_slip ..).frame
  grows := evGrows_of_evWith (slip_ev ..)
  sticks := .of_eq ((slips_slip ..).kept _ (by decide))

theorem delivers_triggerReload (s : State) (k : Nat) : Delivers s (triggerReload s k) := by
  unfold triggerReload
  refine .ite (delivers_of_frame rfl) ?_
  split
  · dsimp only
    split
    · exact delivers_of_frame rfl
    · split <;> exact delivers_of_frame rfl
  · exact delivers_of_frame rfl

theorem delivers_dispatch (s : State) (b : Bench) (r : Rec) (k : Nat) : Delivers s (dispatch s b r k) := by
  unfold dispatch
  extract_lets m bad old s₁ s₂ s₃ s₄
  refine .ite (delivers_of_frame rfl) ?_
  have h₁ : Delivers s s₁ := .ite ((notes_raise ..).trans (notes_reqHalt ..)).delivers (.refl s)
  have h₂ : Delivers s₁ s₂ := .ite (notes_slip ..).delivers (.refl _)
  have h₃ : Delivers s₂ s₃ := delivers_of_frame rfl
  have h₄ : Delivers s₃ s₄ := .ite (delivers_triggerReload ..) (.refl _)
  exact .ite (h₁.trans (delivers_of_frame rfl)) ((h₁.trans h₂).trans ((h₃.trans h₄).trans (delivers_of_frame rfl)))

theorem delivers_seamAccess (s : State) (b : Bench) (r : Rec) (k : Nat) : Delivers s (seamAccess s b r k).2 := by
  unfold seamAccess
  split
  · exact .refl s
  · split
    · exact .refl s
    · split
      · exact .refl s
      · exact delivers_dispatch ..

theorem delivers_runLane {α : Type} (s : State) (site l : Nat) (md : RMode) (oi : Bool) (f : LaneM α) :
    Delivers s (runLane s site l md oi f).2.2 := .ite (.refl s) (delivers_of_frame rfl)

theorem delivers_vMirror (s : State) (b : Bench) (m : Seam) (i : Nat) (lanes : List (Option W32)) : Delivers s (vMirror s b m i lanes).2.2 := by
  unfold vMirror
  split
  · exact .refl s
  · refine List.foldlRecOn (motive := fun a : List (Option W32) × List Flg × State => Delivers s a.2.2) _ _ (.refl s) fun a ha i _ => ?_
    split
    · split
      · exact ha.trans (delivers_runLane ..)
      · exact ha
    · exact ha

theorem delivers_vHalf (s : State) (b : Bench) (m : Seam) (hi : Bool) (lanes : List (Option W32)) : Delivers s (vHalf s b m hi lanes).2.2 := by
  unfold vHalf
  refine List.foldlRecOn (motive := fun a : List (Option W32) × List Flg × State => Delivers s a.2.2) _ _ (.refl s) fun a ha i _ => ?_
  split
  · split
    · exact ha
    · exact ha.trans (delivers_runLane ..)
  · exact ha

theorem delivers_vSeamWrite (s : State) (b : Bench) (r : Rec) (lam op ord : Nat) (lanes : List (Option W32)) :
    Delivers s (vSeamWrite s b r lam op ord lanes) := by
  unfold vSeamWrite
  extract_lets k i a m w
  have ha : Delivers s a.2 := delivers_seamAccess ..
  refine .ite ha (.ite (ha.trans (delivers_of_frame rfl)) ?_)
  split
  · exact (ha.trans (delivers_vMirror ..)).trans ((delivers_vFlags ..).trans (delivers_of_frame rfl))
  · exact (ha.trans (delivers_vHalf ..)).trans ((delivers_vFlags ..).trans (delivers_of_frame rfl))

theorem delivers_vDstAt (s : State) (b : Bench) (r : Rec) (lam : Nat) (fmt : Option Nat) (op row ord : Nat) (lanes : List (Option W32))
    (sat : Bool) : Delivers s (vDstAt s b r lam fmt op row ord lanes sat) := by
  unfold vDstAt
  split
  · exact delivers_of_frame rfl
  · dsimp only
    split <;> exact delivers_of_frame rfl
  · exact delivers_vSeamWrite ..
  · exact .refl s

theorem delivers_scanDeliver (s : State) (q : SfuReq) : Delivers s (scanDeliver s q) := by
  unfold scanDeliver
  split
  · exact delivers_of_frame rfl
  · split
    · exact delivers_of_frame rfl
    · exact .refl s
  · split
    · exact delivers_of_frame rfl
    · exact .refl s
  · exact .refl s

/-- The sticky register that a result's flags go to beside SFU_STICKY: its requester's. -/
def sfuStickyOf (q : SfuReq) : Nat :=
  match q.who with
  | .vec _ => 0x4804
  | _ => 0x4F00

theorem delivers_sfuDeliver (s : State) (q : SfuReq) : Delivers (sfuStatus s q (sfuStickyOf q)) (sfuDeliver s q) := by
  cases hq : q.who with
  | vec d =>
    simp only [sfuDeliver, sfuStickyOf, hq]
    refine (delivers_vFlags ..).trans (.ite (delivers_of_frame rfl) ?_)
    split
    · exact delivers_vDstAt ..
    · exact .refl _
  | _ =>
    simp only [sfuDeliver, sfuStickyOf, hq]
    exact delivers_scanDeliver ..

-- Where the lanes go.

/-- The state after the flags of a result for the vector engine: the engine's registers and every other unit as they were. -/
theorem Notes.frame_flags {fl : Nat → Flg} (h : Notes s v) (hf : FlagsSet v t fl) :
    t = { s with seq := { s.seq with haltReq := t.seq.haltReq }, ev := t.ev, regs := t.regs, cyc := t.cyc
                 vec := { s.vec with flags := t.vec.flags } } := hf.frame.trans (by rw [hf.frame, h.frame])

theorem vFlags_sfuStatus_frame (s : State) (q : SfuReq) (off : Nat) (fls : List Flg) : let t := vFlags (sfuStatus s q off) fls
    t = { s with seq := { s.seq with haltReq := t.seq.haltReq }, ev := t.ev, regs := t.regs, cyc := t.cyc
                 vec := { s.vec with flags := t.vec.flags } } :=
  ((notes_stick ..).trans (notes_sfuStatus s q off)).frame_flags (flagsSet_vFlags ..)

/-- A result for a register is on its way. -/
theorem sfuDeliver_register {d : Nat} (hq : q.who = .vec d) (hd : d < 256) : let t := sfuDeliver s q
    t.vec.res = s.vec.res ++ [⟨q.due, q.ord, .v (d % 32), q.lanes, q.uid, q.pos⟩] ∧ t.scan = s.scan ∧ t.acc = s.acc ∧ t.seams = s.seams := by
  have hd0 : d / 256 = 0 := by omega
  have hfr := vFlags_sfuStatus_frame s q 0x4804 (q.fls.map fun f => f &&& 0x17)
  simp only [sfuDeliver, hq, hd0, if_true]
  refine ⟨?_, ?_, ?_, ?_⟩ <;> rw [hfr]

/-- A result for an accumulator row is a write of the row. -/
theorem sfuDeliver_row {d : Nat} (hq : q.who = .vec d) (hd : d / 256 = 1) (hrec : recOf s q.uid q.pos = some (b, r)) : let t := sfuDeliver s q
    t.vec.res = s.vec.res ∧ t.scan = s.scan ∧ t.seams = s.seams ∧
    ∃ x : AccWrite, t.acc = { s.acc with wq := s.acc.wq ++ [x] } ∧ x.due = s.clk.slot ∧ x.row = q.row ∧ x.kind = .row ∧
      x.uid = q.uid ∧ x.pos = r.pos ∧ x.lanes = q.lanes ∧ x.md = { fmt := 4, epoch := vEp b r (d / 64 % 4), stale := false } := by
  have hfr := vFlags_sfuStatus_frame s q 0x4804 (q.fls.map fun f => f &&& 0x17)
  obtain ⟨v, hv⟩ : ∃ v, v = vFlags (sfuStatus s q 0x4804) (q.fls.map fun f => f &&& 0x17) := ⟨_, rfl⟩
  rw [← hv] at hfr
  have hrec' : recOf v q.uid q.pos = some (b, r) := by
    rw [hfr]
    exact hrec
  have huid : b.uid = q.uid := uid_of_benchOf (recOf_eq_some.mp hrec).1
  simp only [sfuDeliver, hq, hd, ← hv, hrec', vDstAt, pushWrite, Option.isNone_some]
  rw [hfr]
  exact ⟨rfl, rfl, rfl, _, rfl, rfl, rfl, rfl, huid, rfl, rfl, rfl⟩

/-- A chunk in flight after a change that keeps what names it. -/
theorem chunkOf_updChunk {c : ScanChunk} {f : ScanChunk → ScanChunk} (hf : ∀ x, (f x).uid = x.uid ∧ (f x).pos = x.pos ∧ (f x).k = x.k)
    (hc : chunkOf s uid pos k = some c) : chunkOf (updChunk s c f) uid pos k = some (f c) := by
  have hname : c.uid = uid ∧ c.pos = pos ∧ c.k = k := by
    have h := List.find?_some hc
    simpa [isChunk, and_assoc] using h
  obtain ⟨huid, hpos, hk⟩ := hname
  have hp : (isChunk uid pos k ∘ fun x => if isChunk uid pos k x then f x else x) = isChunk uid pos k := by
    funext x
    simp only [Function.comp_apply]
    split <;> simp [isChunk, hf]
  have hcis : isChunk uid pos k c = true := List.find?_some hc
  show List.find? _ (List.map _ _) = _
  rw [huid, hpos, hk, List.find?_map, hp]
  show (chunkOf s uid pos k).map _ = _
  rw [hc, Option.map_some, if_pos hcis]

/-- A step of a chunk in flight changed by `f`, after status. -/
theorem Notes.updScanStep {c : ScanChunk} {n : Nat} (h : Notes s v) (hc : chunkOf s uid pos k = some c) (hn : n < c.steps.length)
    (f : ScanStep → ScanStep) : let t := updScanStep v c n f
    t.acc = s.acc ∧ t.seams = s.seams ∧ t.vec = s.vec ∧ t.scan.setups = s.scan.setups ∧
    ∃ x, chunkOf t uid pos k = some x ∧ x.steps.length = c.steps.length ∧
      (∀ i, i ≠ n → lget x.steps { r := 0 } i = lget c.steps { r := 0 } i) ∧ lget x.steps { r := 0 } n = f (lget c.steps { r := 0 } n) := by
  have hfr := h.frame
  have hcv : chunkOf v uid pos k = some c := by
    rw [hfr]
    exact hc
  refine ⟨?_, ?_, ?_, ?_, _, chunkOf_updChunk (fun x => ⟨rfl, rfl, rfl⟩) hcv, length_lupd .., fun i hi => ?_, ?_⟩
  · rw [hfr]
    rfl
  · rw [hfr]
    rfl
  · rw [hfr]
    rfl
  · rw [hfr]
    rfl
  · rw [lget_lupd, if_neg (by simp [hi])]
  · rw [lget_lupd, if_pos ⟨rfl, hn⟩]

/-- A result for a step of the scan stage goes to that step. -/
theorem sfuDeliver_step {n : Nat} {c : ScanChunk} (hq : q.who = .scanSoft k n ∨ q.who = .scanExp k n)
    (hc : chunkOf s q.uid q.pos k = some c) (hn : n < c.steps.length) : let t := sfuDeliver s q
    t.acc = s.acc ∧ t.seams = s.seams ∧ t.vec = s.vec ∧ t.scan.setups = s.scan.setups ∧
    ∃ x, chunkOf t q.uid q.pos k = some x ∧ x.steps.length = c.steps.length ∧
      (∀ i, i ≠ n → lget x.steps { r := 0 } i = lget c.steps { r := 0 } i) ∧
      (q.who = .scanSoft k n → (lget x.steps { r := 0 } n).dlt = q.lanes.map fun v => v.getD 0) ∧
      (q.who = .scanExp k n → (lget x.steps { r := 0 } n).a = q.lanes.map fun v => v.getD 0) := by
  have hnotes : Notes s (sfuStatus s q 0x4F00) := (notes_stick ..).trans (notes_sfuStatus ..)
  have hcv : chunkOf (sfuStatus s q 0x4F00) q.uid q.pos k = some c := by
    rw [hnotes.frame]
    exact hc
  rcases hq with hq | hq
  · obtain ⟨hacc, hseams, hvec, hsetups, x, hx, hlen, hothers, hstep⟩ :=
      hnotes.updScanStep hc hn fun st => { st with dlt := q.lanes.map fun x => x.getD 0 }
    simp only [sfuDeliver, scanDeliver, hq, hcv]
    exact ⟨hacc, hseams, hvec, hsetups, x, hx, hlen, hothers, by simp [hstep]⟩
  · obtain ⟨hacc, hseams, hvec, hsetups, x, hx, hlen, hothers, hstep⟩ :=
      hnotes.updScanStep hc hn fun st => { st with a := q.lanes.map fun x => x.getD 0 }
    simp only [sfuDeliver, scanDeliver, hq, hcv]
    exact ⟨hacc, hseams, hvec, hsetups, x, hx, hlen, hothers, by simp [hstep]⟩

-- SFU_RESULT.

theorem sfuTake_frame (h : sfuTake s = some (q, u)) : u = { s with sfu := { s.sfu with reqs := s.sfu.reqs.filter (· != q) } } := by
  unfold sfuTake at h
  split at h
  · cases h
  · cases h
    rfl

/-- The next result answers with its delivery. -/
theorem answers_sfuResult {P : State → Prop} (h : sfuTake s = some (q, u)) (hdue : q.due ≤ s.clk.slot) (hfrz : s.seq.frozen = false)
    (hP : ∀ pins, P { sfuDeliver u q with pins := pins }) : Answers .sfuResult s P := by
  have hstep : EngineStep s (sfuDeliver u q) := (engineStep_of_sfuTake h).trans (engineStep_sfuDeliver ..)
  refine answers_of_effect (sfuDeliver u q) rfl ?_ (by rw [hstep]) (by rw [hstep]) hP
  rw [inSlot_now s _ _ q.due (by rw [sfuDue, h]; rfl) hdue hfrz]
  simp only [sfuOut, h]

/-- What every delivery leaves: the requests without the one delivered, its flags set, and the units that take no results. -/
theorem sfuDeliver_sound (h : sfuTake s = some (q, u)) : let t := sfuDeliver u q
    t.sfu = { s.sfu with reqs := s.sfu.reqs.filter (· != q) } ∧ t.arr = s.arr ∧ t.gate = s.gate ∧ t.spad = s.spad ∧
      t.rings = s.rings ∧ t.vec.v = s.vec.v ∧ EvGrows s t ∧
      (∀ k, k < 5 → k ≠ 3 → (sfuFlags q).getLsbD k = true → (reg t 0x5004).getLsbD k = true) ∧
      (q.off = true → (reg t 0x5004).getLsbD 6 = true) ∧ (∀ k, (reg s 0x5004).getLsbD k = true → (reg t 0x5004).getLsbD k = true) := by
  intro t
  have hu := sfuTake_frame h
  have hnotes : Notes u (sfuStatus u q (sfuStickyOf q)) := (notes_stick ..).trans (notes_sfuStatus ..)
  have hlast : Delivers (sfuStatus u q (sfuStickyOf q)) t := delivers_sfuDeliver u q
  have hall : Delivers u t := hnotes.delivers.trans hlast
  refine ⟨?_, ?_, ?_, ?_, ?_, ?_, ?_, fun k hk hk3 hf => hlast.sticks k (sfuStatus_flags u q _ hk hk3 hf),
    fun hoff => hlast.sticks 6 (sfuStatus_off u _ hoff), fun k hk => hall.sticks k ?_⟩
  · rw [hall.reqs, hu]
  · rw [hall.frame, hu]
  · rw [hall.frame, hu]
  · rw [hall.frame, hu]
  · rw [hall.frame, hu]
  · rw [hall.v, hu]
  · exact (EvGrows.of_eq (by rw [hu])).trans hall.grows
  · rw [hu]
    exact hk

/-- Settles O50: the status of a delivery, and each destination. -/
theorem specialFunctionsDeliverInTheirSlot : Obligations.SpecialFunctionsDeliverInTheirSlot := by
  intro s u q h hdue hfrz
  have hu := sfuTake_frame h
  refine ⟨answers_sfuResult h hdue hfrz fun _ => sfuDeliver_sound h, fun d hq hd => answers_sfuResult h hdue hfrz fun _ => ?_,
    fun d b r hq hd hrec => answers_sfuResult h hdue hfrz fun _ => ?_, fun k n c hq hc hn => answers_sfuResult h hdue hfrz fun _ => ?_⟩
  · have hx := sfuDeliver_register (s := u) hq hd
    rw [hu] at hx ⊢
    exact hx
  · have hx := sfuDeliver_row (s := u) hq hd (by rw [hu]; exact hrec)
    rw [hu] at hx ⊢
    exact hx
  · have hx := sfuDeliver_step (s := u) hq (by rw [hu]; exact hc) hn
    rw [hu] at hx ⊢
    exact hx

end Sys2Proof.Machine
end

section
/-! PROOFS. The checks of programs and armed recipes: what each outcome leaves (R190, R223, R236, R423). -/
namespace Sys2Proof.Machine

variable {s t u v : State} {m n : Nat} {o : Origin} {e : RcpEntry}

-- Words that fail their parity in a check (R423).

theorem notes_ramParities (s : State) (mem : Nat) (l : List Nat) : Notes s (ramParities s mem l) :=
  eachS_keeps (P := Notes s) (fun _ t ht => ht.trans (notes_ramParity t mem)) l (.refl s)

theorem regsKept_ramParities (s : State) (mem : Nat) (l : List Nat) : RegsKept s (ramParities s mem l) [0xE040] := by
  rcases eq_or_ne l [] with rfl | hl
  · exact fun _ _ => rfl
  · exact (parityFails_ramParities s mem hl).kept

-- The check of a program (R223).

theorem checkProg_of_pram (h : t.seq.pram = s.seq.pram) (fuel a : Nat) (l : List CheckLoop) (recs : Bool) :
    checkProg t fuel a l recs = checkProg s fuel a l recs := by
  have hw : pramWord t = pramWord s := by
    funext a
    rw [pramWord, h, pramWord]
  induction fuel generalizing a l recs with
  | zero => rfl
  | succ fuel ih => simp only [checkProg, hw, ih]

/-- The words of the program to be run that fail their parity. -/
def runFailed (s : State) : List Nat :=
  let a := progStart s s.seq.prog
  (natsFrom a (progStop s 16385 a 0 - a)).filter s.seq.badPram.contains

theorem runFailed_of_good (h : s.seq.badPram = []) : runFailed s = [] := by simp [runFailed, h]

/-- The sequencer of `v` as a program begins to run at `a` in the slot `slot`. -/
def seqRuns (v : State) (a slot : Nat) : State :=
  { v with seq := { v.seq with
      st := 2, pc := a, bep := 0, frames := [], idx := [0, 0, 0, 0], recs := [], cur := none, staged := none, started := false
      nextRead := slot, replay := none, matchSkips := [], runCli := none } }

/-- The sequencer of `v` as a program fails its check. -/
def seqRejects (v : State) : State := raise { v with seq := { v.seq with st := 0, runCli := none } } 0x03 0

/-- The state in which RUN completes with OKAY. -/
def runAccepted (s : State) : State := seqRuns (setReg (ramParities s 0 (runFailed s)) 0x300C 0) (progStart s s.seq.prog) s.clk.slot

theorem runChecked_good (hm : mboxOf o = some m) (hcli : s.seq.runCli = some { o := o })
    (h : checkProg s 16385 (progStart s s.seq.prog) [] false = true) : runChecked s =
      if (runFailed s).isEmpty then mboxDone (runAccepted s) m 0 0 else reqHaltSeq (mboxDone (runAccepted s) m 0 0) 4 := by
  have hfr := (notes_ramParities s 0 (runFailed s)).frame
  have hpram : (ramParities s 0 (runFailed s)).seq.pram = s.seq.pram := by rw [hfr]
  have hslot : (setReg (ramParities s 0 (runFailed s)) 0x300C 0).clk.slot = s.clk.slot := by
    rw [setReg_frame, hfr]
  have hcheck := (checkProg_of_pram hpram 16385 (progStart s s.seq.prog) [] false).trans h
  have hdone : ∀ v, completeOpt v s.seq.runCli 0 = mboxDone v m 0 0 := fun v => by
    rw [hcli]
    exact complete_mbox _ _ _ _ _ hm
  simp only [runFailed] at hcheck hslot
  simp only [runChecked, hcheck, if_true, hdone, hslot]
  rfl

theorem runChecked_bad (hm : mboxOf o = some m) (hcli : s.seq.runCli = some { o := o })
    (h : checkProg s 16385 (progStart s s.seq.prog) [] false = false) :
    runChecked s = mboxDone (seqRejects (ramParities s 0 (runFailed s))) m 2 0 := by
  have hpram : (ramParities s 0 (runFailed s)).seq.pram = s.seq.pram := by rw [(notes_ramParities s 0 (runFailed s)).frame]
  have hcheck := (checkProg_of_pram hpram 16385 (progStart s s.seq.prog) [] false).trans h
  have hdone : ∀ v, completeOpt v s.seq.runCli 2 = mboxDone v m 2 0 := fun v => by
    rw [hcli]
    exact complete_mbox _ _ _ _ _ hm
  simp only [runFailed] at hcheck
  simp only [runChecked, hcheck, hdone]
  rfl

/-- The step of start-up that waits for a RUN is not in progress. -/
theorem bootRunOver_idle (h : s.boot.run0 = false) : bootRunOver s = s := by simp [bootRunOver, h]

/-- What a RUN that completes with OKAY leaves. -/
theorem runAccepted_frame (s : State) : let v := runAccepted s
    v = { s with seq := { (seqRuns s (progStart s s.seq.prog) s.clk.slot).seq with haltReq := v.seq.haltReq }
                 ev := v.ev, regs := v.regs, cyc := v.cyc } ∧
      (s.seq.badPram = [] → v.ev = s.ev ∧ v.seq.haltReq = s.seq.haltReq) := by
  have hfr := (notes_ramParities s 0 (runFailed s)).frame
  refine ⟨?_, fun hgood => ?_⟩
  · simp only [runAccepted, seqRuns]
    rw [setReg_frame, hfr]
  · simp only [runAccepted, seqRuns, runFailed_of_good hgood]
    rw [setReg_frame]
    exact ⟨rfl, rfl⟩

/-- A program that passes its check: it begins to run, and the mailbox of its RUN has OKAY. -/
theorem runChecked_passes (hm : mboxOf o = some m) (hcli : s.seq.runCli = some { o := o })
    (hgood : checkProg s 16385 (progStart s s.seq.prog) [] false = true) : let t := runChecked s
    t = { s with seq := { (seqRuns s (progStart s s.seq.prog) s.clk.slot).seq with haltReq := t.seq.haltReq }
                 ev := t.ev, regs := t.regs, mb := t.mb, cyc := t.cyc } ∧
      (∀ pins, MbDone { t with pins := pins } m 0) ∧ (s.seq.badPram = [] → t.ev = s.ev ∧ t.seq.haltReq = s.seq.haltReq) := by
  obtain ⟨hfr, hclean⟩ := runAccepted_frame s
  obtain ⟨v, hv⟩ : ∃ v, v = runAccepted s := ⟨_, rfl⟩
  have hrun := runChecked_good hm hcli hgood
  rw [← hv] at hfr hclean hrun
  have hdone := mboxDone_frame (s := v) m 0 0
  intro t
  have ht : t = { mboxDone v m 0 0 with seq := { v.seq with haltReq := t.seq.haltReq } } := by
    show runChecked s = _
    simp only [t]
    rw [hrun, hdone]
    split
    · rfl
    · rw [reqHaltSeq]
      split <;> rfl
  refine ⟨?_, fun pins => mbDone_mboxDone (s := v) (mboxOf_lt hm) 0 0 (by decide) ?_ ?_, fun hwords => ⟨?_, ?_⟩⟩
  · rw [ht, hdone, hfr]
  · rw [ht]
  · rw [ht]
  · rw [ht, hdone]
    exact (hclean hwords).1
  · obtain ⟨-, hhalt⟩ := hclean hwords
    rw [runFailed_of_good hwords] at hrun
    have h0 : t = mboxDone v m 0 0 := hrun
    rw [h0, hdone]
    exact hhalt

/-- A program that fails its check: the sequencer is idle, BENCH_BAD has a cause, and the mailbox of the RUN has BAD_ARG. -/
theorem runChecked_fails (hm : mboxOf o = some m) (hcli : s.seq.runCli = some { o := o })
    (hbad : checkProg s 16385 (progStart s s.seq.prog) [] false = false) : let t := runChecked s
    t = { s with seq := { s.seq with st := 0, runCli := none, haltReq := t.seq.haltReq }, ev := t.ev, regs := t.regs, mb := t.mb, cyc := t.cyc } ∧
      (∀ pins, MbDone { t with pins := pins } m 2) ∧ Caused t 0x03 := by
  obtain ⟨v, hv⟩ : ∃ v, v = seqRejects (ramParities s 0 (runFailed s)) := ⟨_, rfl⟩
  have hrun := runChecked_bad hm hcli hbad
  rw [← hv] at hrun
  have hcaused : Caused v 0x03 := hv ▸ raise_caused _ _ _ rfl
  have hfr : v = { s with seq := { s.seq with st := 0, runCli := none, haltReq := v.seq.haltReq }, ev := v.ev, regs := v.regs, cyc := v.cyc } := by
    rw [hv, seqRejects, raise_frame, (notes_ramParities s 0 (runFailed s)).frame]
  have hdone := mboxDone_frame (s := v) m 2 0
  simp only [hrun]
  refine ⟨?_, fun pins => mbDone_mboxDone (mboxOf_lt hm) 2 0 (by decide) rfl rfl, ?_⟩
  · rw [hdone, hfr]
  · rw [hdone]
    exact hcaused

/-- The end of a program's check answers with what the check leaves, where start-up does not wait for it. -/
theorem answers_runCheckDone {P : State → Prop} {q : Seq} (hst : s.seq.st = 1) (hrun0 : s.boot.run0 = false)
    (hfr : runChecked s = { s with seq := q, ev := (runChecked s).ev, regs := (runChecked s).regs, mb := (runChecked s).mb
                                   cyc := (runChecked s).cyc })
    (hP : ∀ pins, P { runChecked s with pins := pins }) : Answers .runCheckDone s P := by
  refine answers_of_effect (runChecked s) rfl ?_ (by rw [hfr]) (by rw [hfr]) hP
  have hboot : (runChecked s).boot = s.boot := by rw [hfr]
  simp only [hst, beq_self_eq_true, guardS_true, runCheckEnd]
  exact bootRunOver_idle (by rw [hboot, hrun0])

theorem answers_runCheckDone_good (hm : mboxOf o = some m) (hst : s.seq.st = 1) (hcli : s.seq.runCli = some { o := o })
    (hrun0 : s.boot.run0 = false) (hgood : checkProg s 16385 (progStart s s.seq.prog) [] false = true) : Answers .runCheckDone s fun t =>
      t.seq.st = 2 ∧ t.seq.pc = progStart s s.seq.prog ∧ t.seq.bep = 0 ∧ t.seq.frames = [] ∧ t.seq.idx = [0, 0, 0, 0] ∧
      t.seq.nextRead = s.clk.slot ∧ MbDone t m 0 ∧ t.spad = s.spad ∧ t.acc = s.acc ∧ t.seq.pram = s.seq.pram ∧
      (s.seq.badPram = [] → t.ev = s.ev ∧ t.seq.haltReq = s.seq.haltReq) := by
  obtain ⟨hfr, hdone, hclean⟩ := runChecked_passes hm hcli hgood
  refine answers_runCheckDone hst hrun0 hfr fun pins => ⟨?_, ?_, ?_, ?_, ?_, ?_, hdone pins, ?_, ?_, ?_, hclean⟩ <;> rw [hfr] <;> rfl

theorem answers_runCheckDone_bad (hm : mboxOf o = some m) (hst : s.seq.st = 1) (hcli : s.seq.runCli = some { o := o })
    (hrun0 : s.boot.run0 = false) (hbad : checkProg s 16385 (progStart s s.seq.prog) [] false = false) : Answers .runCheckDone s fun t =>
      t.seq.st = 0 ∧ Caused t 0x03 ∧ MbDone t m 2 ∧ t.spad = s.spad ∧ t.acc = s.acc ∧ t.seq.pram = s.seq.pram := by
  obtain ⟨hfr, hdone, hcaused⟩ := runChecked_fails hm hcli hbad
  refine answers_runCheckDone hst hrun0 hfr fun pins => ⟨?_, hcaused, hdone pins, ?_, ?_, ?_⟩ <;> rw [hfr]

-- The check of a recipe (R190).

theorem checkRecipe_of_recipe (h : t.vec.recipe = s.vec.recipe) (e : RcpEntry) : checkRecipe t e = checkRecipe s e := by
  simp only [checkRecipe, h]

/-- The words of a recipe that fail their parity. -/
def rcpFailed (s : State) (e : RcpEntry) : List Nat := (natsFrom e.start (min e.len (512 - e.start))).filter fun k => s.vec.badRcp.contains k

/-- The state as the check of the first armed recipe ends. -/
def rcpCheckOver (s : State) (e : RcpEntry) : State :=
  let u := ramParities s 2 (rcpFailed s e)
  { u with vec := { u.vec with checking := u.vec.checking.drop 1, checkT := pclkOf u } }

theorem rcpCheckOver_frame (s : State) (e : RcpEntry) : let t := rcpCheckOver s e
    t = { s with vec := { s.vec with checking := s.vec.checking.drop 1, checkT := pclkOf s }, seq := { s.seq with haltReq := t.seq.haltReq }
                 ev := t.ev, regs := t.regs, cyc := t.cyc } := by
  have hfr := (notes_ramParities s 2 (rcpFailed s e)).frame
  simp only [rcpCheckOver, pclkOf]
  rw [hfr]

theorem regsKept_rcpCheckOver (s : State) (e : RcpEntry) : RegsKept s (rcpCheckOver s e) [0xE040] := regsKept_ramParities s 2 (rcpFailed s e)

theorem checkRecipe_rcpCheckOver (s : State) (e : RcpEntry) : checkRecipe (rcpCheckOver s e) e = checkRecipe s e :=
  checkRecipe_of_recipe (by rw [rcpCheckOver_frame]) e

/-- The entry of a recipe that failed its check, RECIPE_BAD, and the log of the first failure. -/
def rcpRejected (u : State) (n : Nat) (e : RcpEntry) (why a : Nat) : State :=
  let v := raise (setDir u n { e with checking := false, err := true }) 0x0C n
  if bitB (reg v 0x481C) 31 then v else setReg v 0x481C (word [(1, 31), (n, 20), (why, 16), (a % 512, 0)])

theorem rcpChecked_good (h : checkRecipe s e = none) :
    rcpChecked s n e = setDir (rcpCheckOver s e) n { e with checking := false, pend := true } := by
  unfold rcpChecked
  extract_lets u src v
  have hv : v = rcpCheckOver s e := rfl
  rw [hv, checkRecipe_rcpCheckOver, h]

theorem rcpChecked_bad {y x : Nat} (h : checkRecipe s e = some (y, x)) :
    rcpChecked s n e = rcpRejected (rcpCheckOver s e) n e y x := by
  unfold rcpChecked
  extract_lets u src v
  have hv : v = rcpCheckOver s e := rfl
  rw [hv, checkRecipe_rcpCheckOver, h]
  rfl

/-- A state in which the check of the first armed recipe has ended, but for the entry of the recipe. -/
def RcpOver (s t : State) (l : List Nat) : Prop :=
  t = { s with vec := { s.vec with checking := l, checkT := pclkOf s, dir := t.vec.dir }, seq := { s.seq with haltReq := t.seq.haltReq }
               ev := t.ev, regs := t.regs, cyc := t.cyc, pins := t.pins }

theorem rcpOver_setDir {l : List Nat} (hl : s.vec.checking = n :: l) (e y : RcpEntry) : RcpOver s (setDir (rcpCheckOver s e) n y) l := by
  rw [RcpOver, setDir, rcpCheckOver_frame, hl]
  rfl

theorem rcpRejected_frame (u : State) (n : Nat) (e : RcpEntry) (why a : Nat) : let t := rcpRejected u n e why a
    t = { setDir u n { e with checking := false, err := true } with ev := evWith u 0x0C (n % 65536), regs := t.regs, cyc := t.cyc } := by
  intro t
  have hraise := raise_eq (setDir u n { e with checking := false, err := true }) 0x0C n rfl
  show rcpRejected u n e why a = _
  simp only [t, rcpRejected]
  split
  · rw [hraise]
    rfl
  · rw [setReg_frame, hraise]
    rfl

/-- The check of the first armed recipe answers with what it leaves. -/
theorem answers_recipeCheckDone {P : State → Prop} {l : List Nat} (hl : s.vec.checking = n :: l)
    (hdue : s.vec.checkT + (mget s.vec.dir {} n).len ≤ pclkOf s) (hwait : s.boot.recipeWait = false)
    (hu : rcpChecked s n (mget s.vec.dir {} n) = u) (hover : RcpOver s u l) (hP : ∀ pins, P { u with pins := pins }) :
    Answers .recipeCheckDone s P := by
  have hwait' : u.boot.recipeWait = false := by
    rw [hover]
    exact hwait
  have hload : loadWait u = u := by simp [loadWait, hwait']
  refine answers_of_effect (f := fun s => match s.vec.checking with
    | n :: _ => atPclk (s.vec.checkT + (mget s.vec.dir {} n).len) (recipeCheckEnd n) s
    | [] => s) u rfl ?_ (by rw [hover]) (by rw [hover]) hP
  simp only [hl]
  rw [atPclk_now s _ _ hdue, recipeCheckEnd, hu, hload]

theorem rcpCheckOver_clean (h : rcpFailed s e = []) :
    (rcpCheckOver s e).ev = s.ev ∧ (rcpCheckOver s e).seq.haltReq = s.seq.haltReq := by
  rw [rcpCheckOver, h]
  exact ⟨rfl, rfl⟩

theorem caused_rcpCheckOver (h : rcpFailed s e ≠ []) : Caused (rcpCheckOver s e) 0x11 := (parityFails_ramParities s 2 h).caused

theorem answers_recipeCheckDone_good {l : List Nat} (hl : s.vec.checking = n :: l) (he : mget s.vec.dir {} n = e)
    (hdue : s.vec.checkT + e.len ≤ pclkOf s) (hwait : s.boot.recipeWait = false) (h : checkRecipe s e = none) : Answers .recipeCheckDone s fun t =>
      RcpOver s t l ∧ RegsKept s t [0xE040] ∧ (rcpFailed s e = [] → t.ev = s.ev ∧ t.seq.haltReq = s.seq.haltReq) ∧
      (rcpFailed s e ≠ [] → Caused t 0x11) ∧ mget t.vec.dir {} n = { e with checking := false, pend := true } ∧
      ∀ k, k ≠ n → mget t.vec.dir {} k = mget s.vec.dir {} k := by
  have hover := rcpOver_setDir hl e { e with checking := false, pend := true }
  have hdir : (rcpCheckOver s e).vec.dir = s.vec.dir := by rw [rcpCheckOver_frame]
  have hget := fun k => mget_setDir (rcpCheckOver s e) n k { e with checking := false, pend := true }
  have hkept := regsKept_rcpCheckOver s e
  have hclean := rcpCheckOver_clean (s := s) (e := e)
  have hcaused := caused_rcpCheckOver (s := s) (e := e)
  have hu := rcpChecked_good (n := n) h
  generalize rcpCheckOver s e = v at *
  refine answers_recipeCheckDone hl (by rw [he]; exact hdue) hwait (by rw [he]; exact hu) hover fun pins =>
    ⟨?_, hkept, hclean, hcaused, (hget n).trans (if_pos rfl), fun k hk => (hget k).trans (by rw [if_neg hk, hdir])⟩
  rw [RcpOver, hover]

/-- The log of a recipe's check that failed. -/
theorem rcpLog_fields (hn : n < 64) {y : Nat} (hy : y < 16) (x : Nat) : let v := word [(1, 31), (n, 20), (y, 16), (x % 512, 0)]
    fieldN v 31 1 = 1 ∧ fieldN v 20 6 = n ∧ fieldN v 16 4 = y ∧ fieldN v 0 9 = x % 512 := by
  have hx : x % 512 < 512 := Nat.mod_lt _ (by decide)
  generalize x % 512 = z at hx
  simp only [word, fieldN, List.foldl_cons, List.foldl_nil, Nat.shiftLeft_eq, BitVec.toNat_ofNat]
  refine ⟨?_, ?_, ?_, ?_⟩ <;> omega

theorem reg_rcpRejected (u : State) (n : Nat) (e : RcpEntry) (why a o : Nat) : reg (rcpRejected u n e why a) o =
    if o = 0x481C ∧ bitB (reg u 0x481C) 31 = false then word [(1, 31), (n, 20), (why, 16), (a % 512, 0)] else reg u o := by
  have hraise : ∀ o, reg (raise (setDir u n { e with checking := false, err := true }) 0x0C n) o = reg u o := fun o => by
    rw [raise_frame]
    rfl
  simp only [rcpRejected, hraise]
  cases bitB (reg u 0x481C) 31 <;> simp [hraise]

theorem answers_recipeCheckDone_bad {l : List Nat} (hl : s.vec.checking = n :: l) (he : mget s.vec.dir {} n = e)
    (hdue : s.vec.checkT + e.len ≤ pclkOf s) (hwait : s.boot.recipeWait = false) {y x : Nat} (h : checkRecipe s e = some (y, x)) :
    Answers .recipeCheckDone s fun t =>
      RcpOver s t l ∧ mget t.vec.dir {} n = { e with checking := false, err := true } ∧ Caused t 0x0C ∧
      RegsKept s t [0x481C, 0xE040] ∧ (∀ k, k ≠ n → mget t.vec.dir {} k = mget s.vec.dir {} k) ∧
      (bitB (reg s 0x481C) 31 = false → n < 64 → y < 16 → regF t 0x481C 31 1 = 1 ∧ regF t 0x481C 20 6 = n ∧
        regF t 0x481C 16 4 = y ∧ regF t 0x481C 0 9 = x % 512) := by
  have hset := rcpOver_setDir hl e { e with checking := false, err := true }
  have hdir : (rcpCheckOver s e).vec.dir = s.vec.dir := by rw [rcpCheckOver_frame]
  have hget := fun k => mget_setDir (rcpCheckOver s e) n k { e with checking := false, err := true }
  have hkept := regsKept_rcpCheckOver s e
  have hu := rcpChecked_bad (n := n) h
  generalize rcpCheckOver s e = v at *
  have hfr := rcpRejected_frame v n e y x
  have hreg := reg_rcpRejected v n e y x
  generalize rcpRejected v n e y x = u at *
  have hover : RcpOver s u l := by
    rw [RcpOver, hfr, hset]
  have hvec : u.vec.dir = (setDir v n { e with checking := false, err := true }).vec.dir := by rw [hfr]
  refine answers_recipeCheckDone hl (by rw [he]; exact hdue) hwait (by rw [he]; exact hu) hover fun pins =>
    ⟨?_, (congrArg (mget · {} n) hvec).trans ((hget n).trans (if_pos rfl)), caused_of_evWith (s := v) (congrArg State.ev hfr), fun o ho => ?_,
      fun k hk => (congrArg (mget · {} k) hvec).trans ((hget k).trans (by rw [if_neg hk, hdir])), fun hfree hn hy => ?_⟩
  · rw [RcpOver, hover]
  · simp only [List.mem_cons, List.not_mem_nil, or_false, not_or] at ho
    refine (hreg o).trans ((if_neg (by simp [ho.1])).trans (hkept o (by simpa using ho.2)))
  · have hlog : reg u 0x481C = word [(1, 31), (n, 20), (y, 16), (x % 512, 0)] :=
      (hreg _).trans (if_pos ⟨rfl, by rw [hkept _ (by decide)]; exact hfree⟩)
    have hfields := rcpLog_fields hn hy x
    rw [← hlog] at hfields
    exact hfields

/-- Settles O36: each outcome of the check of a program, and of the check of a recipe. -/
theorem programsAndRecipesAreChecked : Obligations.ProgramsAndRecipesAreChecked :=
  fun _ _ _ hm => ⟨fun hst hcli hrun0 => ⟨answers_runCheckDone_good hm hst hcli hrun0, answers_runCheckDone_bad hm hst hcli hrun0⟩,
    fun _ _ hl hdue hwait => ⟨answers_recipeCheckDone_good hl rfl hdue hwait, fun _ _ => answers_recipeCheckDone_bad hl rfl hdue hwait⟩⟩

end Sys2Proof.Machine
end

section
/-! PROOFS. The end of start-up that fails, and what its steps leave (R190, R361, R371, R377, R392). -/
namespace Sys2Proof.Machine

variable {s t u v : State} {cause sect : Nat}

-- Maps.

theorem mget_msetFrom {α : Type} [DecidableEq α] (l : List α) (m : SMap α) (d x : α) (k j : Nat) :
    mget (msetFrom m d k l) d j = if k ≤ j ∧ j < k + l.length then lget l x (j - k) else mget m d j := by
  induction l generalizing m k with
  | nil => simp [msetFrom]
  | cons a l ih =>
    rw [msetFrom, ih, mget_mset]
    rcases Nat.lt_trichotomy j k with hj | rfl | hj
    · rw [if_neg (by omega), if_neg (by omega), if_neg (by omega)]
    · rw [if_neg (by omega), if_pos rfl, if_pos (by simp)]
      simp [lget]
    · have hsub : j - k = j - (k + 1) + 1 := by omega
      by_cases hlt : j < k + (a :: l).length
      · rw [if_pos (by simp at hlt; omega), if_pos ⟨hj.le, hlt⟩, hsub]
        rfl
      · rw [if_neg (by simp at hlt; omega), if_neg hj.ne', if_neg fun h => hlt h.2]

/-- A value is the default or that of an entry. -/
theorem mget_cases {α : Type} (m : SMap α) (d : α) (k : Nat) : mget m d k = d ∨ ∃ e ∈ m, e.2 = mget m d k := by
  induction m with
  | nil => exact .inl rfl
  | cons e m ih =>
    rw [mget]
    split
    · exact .inr ⟨e, by simp, rfl⟩
    · rcases ih with h | ⟨x, hx, h⟩
      · exact .inl h
      · exact .inr ⟨x, by simp [hx], h⟩

-- Start-up fails (R371).

/-- State `t` is `s` but for what the failure of start-up may change. -/
def BootStops (s t : State) : Prop :=
  t = { s with arr := t.arr, acc := { s.acc with wq := t.acc.wq }, gate := t.gate, scan := t.scan, vec := t.vec, sfu := t.sfu, seq := t.seq
               seams := t.seams, boot := t.boot, memp := t.memp, ev := t.ev, regs := t.regs, cyc := t.cyc }

theorem BootStops.trans (h : BootStops s t) (k : BootStops t u) : BootStops s u := Eq.trans k (by rw [h])

theorem Discards.bootStops (h : Discards s t) : BootStops s t := Eq.trans h (by rw [h])

theorem bootStops_setReg (s : State) (o : Nat) (v : W32) : BootStops s (setReg s o v) := (setReg_frame s o v).trans (by rw [setReg_frame])

theorem bootStops_haltDiscard (s : State) : BootStops s (haltDiscard s) := by
  unfold haltDiscard
  extract_lets s₁ s₂ s₃
  have h₁ : BootStops s s₁ :=
    (eachS_keeps (P := Discards s) (fun t u hu => hu.trans (discards_fbUndo u t.uid t.pos t.k)) _ (.refl s)).bootStops
  have h₂ : BootStops s₁ s₂ := bootStops_setReg ..
  have h₃ : BootStops s₂ s₃ := eachS_keeps (P := BootStops s₂) (fun b t ht => eachS_keeps (P := BootStops s₂) (fun k u hu => by
    split
    · exact hu.trans rfl
    · exact hu) _ ht) _ rfl
  exact ((h₁.trans h₂).trans h₃).trans rfl

theorem bootStops_idleSeq (s : State) : BootStops s (idleSeq s) := by
  unfold idleSeq
  split
  · rfl
  · exact (bootStops_haltDiscard s).trans rfl

theorem idleSeq_st (s : State) : (idleSeq s).seq.st = 0 := by
  unfold idleSeq
  split
  next h => exact h
  next => rfl

/-- The mark of a failure, and no recipe usable. -/
def bootMarked (s : State) (cause sect : Nat) : State :=
  { s with
    boot := { s.boot with st := 7, cause := cause, sect := sect, stage := 0, recipeWait := false, run0 := false }
    vec := { s.vec with
      checking := []
      dir := (s.vec.dir.map fun e =>
        (e.1, { e.2 with valid := false, pend := false, checking := false, retire := false })).filter fun e => e.2 ≠ {} } }

/-- The sequencer idle, and no program and no recipe usable. -/
def bootStopped (s : State) (cause sect : Nat) : State :=
  dropCand (foldTo 16 (fun n s => setRw s (0x3080 + 4 * n) 0x80000000 0) (bootMarked (idleSeq s) cause sect)) fun w => w == .image

theorem bootFail_eq (s : State) (cause sect : Nat) : bootFail s cause sect =
    if cause = 6 then raise (raise (bootStopped s cause sect) 0x61 cause) 0x62 0 else raise (bootStopped s cause sect) 0x61 cause := rfl

/-- Every entry of a recipe directory is invalid. -/
def NoRecipes (s : State) : Prop := ∀ n, (mget s.vec.dir {} n).valid = false

/-- Every one of the 16 programs is invalid. -/
def NoPrograms (s : State) : Prop := ∀ n, n < 16 → bitB (reg s (0x3080 + 4 * n)) 31 = false

theorem noPrograms_foldTo (s : State) : NoPrograms (foldTo 16 (fun n s => setRw s (0x3080 + 4 * n) 0x80000000 0) s) := by
  refine foldTo_induction (fun k t => ∀ n, n < k → bitB (reg t (0x3080 + 4 * n)) 31 = false) _ (by simp) fun k t _ ht n hn => ?_
  rw [reg_setRw]
  split
  · simp [bitB_eq_getLsbD]
  · exact ht n (by omega)

theorem noRecipes_bootMarked (s : State) (cause sect : Nat) : NoRecipes (bootMarked s cause sect) := by
  intro n
  rcases mget_cases (bootMarked s cause sect).vec.dir {} n with h | ⟨e, he, h⟩
  · rw [h]
  · rw [← h]
    obtain ⟨y, -, rfl⟩ := List.mem_map.mp (List.mem_filter.mp he).1
    rfl

theorem bootStopped_leaves (s : State) (cause sect : Nat) : let t := bootStopped s cause sect
    BootStops s t ∧ t.boot.st = 7 ∧ t.boot.cause = cause ∧ t.boot.sect = sect ∧ t.seq.st = 0 ∧ NoPrograms t ∧ NoRecipes t := by
  unfold bootStopped
  have h₁ : BootStops s (bootMarked (idleSeq s) cause sect) := (bootStops_idleSeq s).trans rfl
  obtain ⟨v, hv⟩ : ∃ v, v = foldTo 16 (fun n s => setRw s (0x3080 + 4 * n) 0x80000000 0) (bootMarked (idleSeq s) cause sect) := ⟨_, rfl⟩
  have hfr : v = { bootMarked (idleSeq s) cause sect with regs := v.regs, cyc := v.cyc } := by
    rw [hv]
    refine foldTo_keeps (fun t => t = { bootMarked (idleSeq s) cause sect with regs := t.regs, cyc := t.cyc }) _
      (fun i t ht => ?_) 16 (bootMarked (idleSeq s) cause sect) rfl
    rw [ht, setRw, tileUpd_frame]
    rfl
  have hprog : NoPrograms v := hv ▸ noPrograms_foldTo (bootMarked (idleSeq s) cause sect)
  rw [← hv]
  refine ⟨h₁.trans ?_, ?_, ?_, ?_, ?_, hprog, fun n => ?_⟩
  · rw [BootStops, hfr]
    rfl
  · rw [hfr]
    rfl
  · rw [hfr]
    rfl
  · rw [hfr]
    rfl
  · rw [hfr]
    exact idleSeq_st s
  · rw [hfr]
    exact noRecipes_bootMarked _ cause sect n

/-- What the failure of start-up leaves. -/
structure BootFailed (s t : State) (n x : Nat) : Prop where
  stops : BootStops s t
  st : t.boot.st = 7
  cause : t.boot.cause = n
  sect : t.boot.sect = x
  event : Caused t 0x61
  missing : n = 6 → Caused t 0x62
  programs : NoPrograms t
  recipes : NoRecipes t
  idle : t.seq.st = 0

theorem bootFailed_bootFail (s : State) (cause sect : Nat) : BootFailed s (bootFail s cause sect) cause sect := by
  obtain ⟨hstops, hst, hcause, hsect, hseq, hprog, hrcp⟩ := bootStopped_leaves s cause sect
  obtain ⟨v, hv⟩ : ∃ v, v = bootStopped s cause sect := ⟨_, rfl⟩
  rw [← hv] at hstops hst hcause hsect hseq hprog hrcp
  have hboth : ∀ t : State, t = { v with ev := t.ev } → Caused t 0x61 → (cause = 6 → Caused t 0x62) → BootFailed s t cause sect := by
    intro t ht h61 h62
    have hreg : ∀ o, reg t o = reg v o := fun o => by
      rw [ht]
      rfl
    refine ⟨hstops.trans ?_, ?_, ?_, ?_, h61, h62, fun n hn => (congrArg (bitB · 31) (hreg _)).trans (hprog n hn), ?_, ?_⟩
    · rw [BootStops, ht]
    · rw [ht, hst]
    · rw [ht, hcause]
    · rw [ht, hsect]
    · rw [ht]
      exact hrcp
    · rw [ht, hseq]
  rw [bootFail_eq, ← hv]
  split
  next h6 =>
    refine hboth _ ?_ ((raise_grows _ _ _).keeps _ (raise_caused _ _ _ rfl)) fun _ => raise_caused _ _ _ rfl
    rw [raise_frame, raise_frame]
  next h6 => exact hboth _ (raise_frame ..) (raise_caused _ _ _ rfl) fun h => absurd h h6

-- Step 2 (R392).

/-- The trims of the light band, from the codes of its sensors. -/
def lightTrims (s : State) (codes : List W32) : List W32 :=
  (natsTo 16).map fun i => trimWord (lget codes 0 i) (lget s.clk.lightSv s.sup.level i)

theorem startHello_st (s : State) : (startHello s).fab.st = if s.straps.2 < 192 then 0 else 5 := by
  by_cases h : s.straps.2 < 192 <;> simp [startHello, candSelf, nameRoot, propId, h]

theorem answers_lightTrimDone (codes : List W32) (hheld : accessHeld s = false) (hst : s.boot.st = 1) (hfirst : s.sup.firstOk = true)
    (hdue : s.boot.t0 + 12900 ≤ sclkOf s) (hlen : s.clk.trimmed.length = 3) : Answers (.lightTrimDone codes) s fun t =>
      t = { s with clk := { s.clk with trims := t.clk.trims, trimmed := t.clk.trimmed }, fab := t.fab
                   boot := { s.boot with st := 2 }, pins := t.pins } ∧
      lget t.clk.trimmed false 0 = true ∧ lget t.clk.trimmed false 1 = lget s.clk.trimmed false 1 ∧
      (∀ i, i < 16 → mget t.clk.trims 0 i = (lget codes 0 i &&& 0x00003F3F) |||
        BitVec.ofNat 32 (lget s.clk.lightSv s.sup.level i % 256 * 65536)) ∧ (∀ i, 16 ≤ i → mget t.clk.trims 0 i = mget s.clk.trims 0 i) ∧
      (s.straps.2 < 192 → t.fab.st = 0) ∧ (192 ≤ s.straps.2 → t.fab.st = 5) := by
  have hget := fun i => mget_msetFrom (lightTrims s codes) s.clk.trims 0 0 0 i
  have hfab := startHello_st { s with boot := { s.boot with st := 2 }, clk := { s.clk with
    trims := msetFrom s.clk.trims 0 0 (lightTrims s codes), trimmed := lupd s.clk.trimmed 0 fun _ => true } }
  refine answers_of_effect (lightDone s codes) rfl ?_ rfl rfl fun pins => ⟨rfl, ?_, ?_, fun i hi => ?_, fun i hi => ?_, fun h => ?_, fun h => ?_⟩
  · rw [bootRuns, hst, hheld, hfirst]
    exact atSclk_now s _ _ hdue
  · exact (lget_lupd ..).trans (if_pos ⟨rfl, by omega⟩)
  · exact (lget_lupd ..).trans (if_neg (by simp))
  · refine (hget i).trans ((if_pos ⟨by omega, by simpa [lightTrims] using hi⟩).trans ?_)
    exact lget_map_natsTo _ 0 16 i hi
  · exact (hget i).trans (if_neg (by simp [lightTrims]; omega))
  · exact hfab.trans (if_pos h)
  · exact hfab.trans (if_neg (by exact Nat.not_lt.mpr h))

-- The end of the check pass (R369, R371).

/-- What the header says of the image, noted. -/
def checkNoted (s : State) : State :=
  if s.boot.hdr.isEmpty then s
  else setReg (setReg s 0x404 (BitVec.ofNat 32 (hdrWord s 0x18))) 0x408 (BitVec.ofNat 32 (hdrWord s 4))

theorem checkNoted_frame (s : State) : checkNoted s = { s with regs := (checkNoted s).regs, cyc := (checkNoted s).cyc } := by
  unfold checkNoted
  split
  · rfl
  · rw [setReg_frame, setReg_frame]

theorem regsKept_checkNoted (s : State) : RegsKept s (checkNoted s) [0x404, 0x408] := by
  intro o ho
  simp only [List.mem_cons, List.not_mem_nil, or_false, not_or] at ho
  unfold checkNoted
  split
  · rfl
  · simp [ho.1, ho.2]

theorem checkFault_checkNoted (s : State) : checkFault (checkNoted s) = checkFault s := by
  rw [checkNoted_frame]
  rfl

theorem checkDone_passes (h : checkFault s = none) :
    checkDone s = { checkNoted s with boot := { (checkNoted s).boot with st := 4, stage := 0, img := [], t0 := sclkOf (checkNoted s) } } := by
  unfold checkDone
  extract_lets v
  have hv : v = checkNoted s := rfl
  rw [hv, checkFault_checkNoted, h]
  rfl

theorem checkDone_fails {c x : Nat} (h : checkFault s = some (c, x)) : checkDone s = bootFail (checkNoted s) c x := by
  unfold checkDone
  extract_lets v
  have hv : v = checkNoted s := rfl
  rw [hv, checkFault_checkNoted, h]

/-- The failure of start-up answers, after what changes registers alone. -/
theorem answers_bootFail {c : Instr} {f : State → State} {P : State → Prop} {n x : Nat} (hx : exec c s = act s f) (hf : f s = bootFail v n x)
    (hv : BootStops s v) (hP : ∀ t, BootFailed v t n x → ∀ pins, P { t with pins := pins }) : Answers c s P := by
  have hfail := bootFailed_bootFail v n x
  have hstops := hv.trans hfail.stops
  exact answers_of_effect _ hx hf (by rw [hstops]) (by rw [hstops]) fun pins => hP _ hfail pins

theorem answers_imageCheckDone_passes (hheld : accessHeld s = false) (hst : s.boot.st = 3) (hover : passOver s = true)
    (h : checkFault s = none) : Answers .imageCheckDone s fun t =>
      t.boot.st = 4 ∧ t.boot.t0 = sclkOf s ∧ t = { s with boot := t.boot, regs := t.regs, cyc := t.cyc, pins := t.pins } ∧
      RegsKept s t [0x404, 0x408] := by
  have hfr := checkNoted_frame s
  have hguard : guardS (bootRuns s 3 && passOver s) checkDone s = checkDone s := by simp [bootRuns, hst, hheld, hover]
  have hdone := checkDone_passes h
  have hkept := regsKept_checkNoted s
  generalize checkNoted s = v at *
  refine answers_of_effect _ rfl (hguard.trans hdone) ?_ ?_ fun pins => ⟨rfl, ?_, ?_, hkept⟩
  · rw [hfr]
  · rw [hfr]
  · show sclkOf v = sclkOf s
    rw [hfr]
    rfl
  · rw [hfr]

theorem answers_imageCheckDone_fails (hheld : accessHeld s = false) (hst : s.boot.st = 3) (hover : passOver s = true) {c x : Nat}
    (h : checkFault s = some (c, x)) : Answers .imageCheckDone s fun t =>
      t.boot.st = 7 ∧ t.boot.cause = c ∧ t.boot.sect = x ∧ Caused t 0x61 ∧ (c = 6 → Caused t 0x62) ∧
      (∀ n, n < 16 → bitB (reg t (0x3080 + 4 * n)) 31 = false) ∧ (∀ n, (mget t.vec.dir {} n).valid = false) ∧ t.spad = s.spad ∧
      t.acc = { s.acc with wq := t.acc.wq } ∧ t.seq.st = 0 := by
  have hnoted : BootStops s (checkNoted s) := (checkNoted_frame s).trans (by rw [checkNoted_frame])
  have hguard : guardS (bootRuns s 3 && passOver s) checkDone s = checkDone s := by simp [bootRuns, hst, hheld, hover]
  refine answers_bootFail rfl (hguard.trans (checkDone_fails h)) hnoted fun t ht pins => ?_
  have hstops := hnoted.trans ht.stops
  refine ⟨ht.st, ht.cause, ht.sect, ht.event, ht.missing, ht.programs, ht.recipes, ?_, ?_, ht.idle⟩
  · rw [hstops]
  · rw [hstops]

-- The scan of the store (R377).

/-- State `t` is `s` but for what the scan of the store, and the requests of the load pass, may change. -/
structure Scans (s t : State) : Prop where
  frame : t = { s with clk := t.clk, boot := t.boot, store := { s.store with skipped := t.store.skipped }, ev := t.ev, memp := t.memp }
  st : t.boot.st = s.boot.st

theorem Scans.refl (s : State) : Scans s s := ⟨rfl, rfl⟩

theorem Scans.trans (h : Scans s t) (k : Scans t u) : Scans s u := ⟨Eq.trans k.frame (by rw [h.frame]), k.st.trans h.st⟩

theorem scans_raise (s : State) (code arg : Nat) : Scans s (raise s code arg) :=
  ⟨(raise_frame s code arg).trans (by rw [raise_frame]), by rw [raise_frame]⟩

theorem scans_imgAsk (s : State) (off n : Nat) : Scans s (imgAsk s off n) := by
  unfold imgAsk
  refine eachS_keeps (P := Scans s) (fun e t ht => ?_) _ (.refl s)
  exact ht.trans ⟨rfl, rfl⟩

theorem scans_askSects (s : State) : Scans s (askSects s) :=
  eachS_keeps (P := Scans s) (fun _ _ ht => ht.trans (scans_imgAsk ..)) _ (.refl s)

theorem scans_trimApply (s : State) (key f : Nat) : Scans s (trimApply s key f) := by
  unfold trimApply
  split
  · exact ⟨rfl, rfl⟩
  · refine Scans.trans (t := { s with store := { s.store with skipped := s.store.skipped + 1 } }) ⟨rfl, rfl⟩ (scans_raise ..)

/-- The index of the store built. -/
def storeIndexed (s : State) : State :=
  { s with store := { s.store with
    bad := ((natsTo (storeFrames s)).filter fun f => fCommitted s f && !fCrcOk s f).length, indexed := true } }

/-- The bad frames reported, and the TRIM records applied after a reset that lost the trims. -/
def storeScanned (s : State) : State :=
  let bad := (natsTo (storeFrames s)).filter fun f => fCommitted s f && !fCrcOk s f
  let s := eachS bad (fun f s => raise s 0x63 f) (storeIndexed s)
  if s.boot.fromL1 then s else eachS ((liveKeys s).filter fun e => e.1 / 2 ^ 24 == 1) (fun e s => trimApply s e.1 e.2) s

/-- The load pass as it begins. -/
def loadBegun (s : State) : State :=
  { s with boot := { s.boot with st := 5, img := [], stage := 3, sectI := 0, sectW := 0, loadBad := none, refused := false } }

theorem scanDone_eq (s : State) : scanDone s = askSects (loadBegun (storeScanned s)) := rfl

/-- The reports leave the clocks. -/
theorem eachS_raise_frame (l : List Nat) (s : State) : eachS l (fun f s => raise s 0x63 f) s =
    { s with ev := (eachS l (fun f s => raise s 0x63 f) s).ev } :=
  eachS_keeps (P := fun t : State => t = { s with ev := t.ev }) (fun f t ht => by rw [raise_frame, ht]) l rfl

theorem scans_storeScanned (s : State) : Scans (storeIndexed s) (storeScanned s) := by
  unfold storeScanned
  extract_lets bad v
  have hv : Scans (storeIndexed s) v := eachS_keeps (P := Scans (storeIndexed s)) (fun f t ht => ht.trans (scans_raise ..)) _ (.refl _)
  split
  · exact hv
  · exact eachS_keeps (P := Scans (storeIndexed s)) (fun e t ht => ht.trans (scans_trimApply ..)) _ hv

theorem storeScanned_clk (h : s.boot.fromL1 = true) : (storeScanned s).clk = s.clk := by
  unfold storeScanned
  extract_lets bad v
  have hv : v = { storeIndexed s with ev := v.ev } := eachS_raise_frame ..
  have hfrom : v.boot.fromL1 = true := by
    rw [hv]
    exact h
  rw [if_pos hfrom, hv]
  rfl

theorem imgAsk_clk (s : State) (off n : Nat) : (imgAsk s off n).clk = s.clk := by
  unfold imgAsk
  refine eachS_keeps (P := fun t : State => t.clk = s.clk) (fun e t ht => ?_) _ rfl
  exact ht

theorem askSects_clk (s : State) : (askSects s).clk = s.clk := by
  unfold askSects
  refine eachS_keeps (P := fun t : State => t.clk = s.clk) (fun e t ht => ?_) _ rfl
  exact (imgAsk_clk ..).trans ht

theorem answers_overlayScanDone (hheld : accessHeld s = false) (hst : s.boot.st = 4) (hdue : s.boot.t0 + scanLen s ≤ sclkOf s) :
    Answers .overlayScanDone s fun t =>
      t.boot.st = 5 ∧ t.store.indexed = true ∧ t.store.data = s.store.data ∧ t.spad = s.spad ∧
      t.store.bad = ((natsTo (storeFrames s)).filter fun f => fCommitted s f && !fCrcOk s f).length ∧
      (s.boot.fromL1 = true → t.clk = s.clk) := by
  have hscan := scans_storeScanned s
  have hask := scans_askSects (loadBegun (storeScanned s))
  have hclk := askSects_clk (loadBegun (storeScanned s))
  have hdone := storeScanned_clk (s := s)
  have heq := scanDone_eq s
  generalize storeScanned s = v at *
  generalize askSects (loadBegun v) = t at *
  have hfr := hask.frame
  have hfv := hscan.frame
  refine answers_of_effect t rfl ?_ ?_ ?_ fun pins => ⟨hask.st, ?_, ?_, ?_, ?_, fun hfrom => hclk.trans (hdone hfrom)⟩
  · rw [bootRuns, hst, hheld]
    exact (atSclk_now s _ _ hdue).trans heq
  all_goals
    rw [hfr, loadBegun, hfv]
    rfl

-- The end of the load pass (R364, R368, R371).

theorem loadDone_bad {c x : Nat} (h : s.boot.loadBad = some (c, x)) : loadDone s = bootFail s c x := by simp [loadDone, h]

theorem loadDone_refused (h : s.boot.loadBad = none) (hr : s.boot.refused = true) : loadDone s = bootFail s 9 (cmdSect s) := by
  simp [loadDone, h, hr]

theorem loadDone_fail7 (h : s.boot.loadBad = none) (hr : s.boot.refused = false) (h7 : s.boot.fail7 = true) :
    loadDone s = bootFail s 7 0 := by simp [loadDone, h, hr, h7]

/-- A RESURVEY changes the fabric alone. -/
theorem resurvey_frame (s : State) : resurvey s = { s with fab := (resurvey s).fab } := by
  have hflood (v : State) : floodTree v true = { v with fab := (floodTree v true).fab } := by
    unfold floodTree
    refine eachS_keeps (P := fun t : State => t = { v with fab := t.fab }) (fun n t ht => ?_) _ rfl
    rw [ht]
    rfl
  unfold resurvey
  split
  · rfl
  · rw [startTree, hflood]
    rfl

/-- The state in which start-up is over, with the RESURVEY that a changed root begins. -/
def bootOver (s : State) : State :=
  let s := if regF s 0x7008 0 8 ≠ s.fab.surveyRoot then resurvey s else s
  { s with boot := { s.boot with st := 6, stage := 0, recipeWait := false, img := [], refused := false } }

theorem bootOver_frame (s : State) : bootOver s =
    { s with fab := (bootOver s).fab
             boot := { s.boot with st := 6, stage := 0, recipeWait := false, img := [], refused := false } } := by
  unfold bootOver
  dsimp only
  split
  · rw [resurvey_frame]
  · rfl

/-- Start-up without an overlay, a recipe under check, and RUN 0 ends in DONE. -/
theorem loadDone_ends (h : s.boot.loadBad = none) (hr : s.boot.refused = false) (h7 : s.boot.fail7 = false) (hchk : s.vec.checking = [])
    (hoverlay : (hdrWord s 0x14).testBit 0 = true) (hrun : (hdrWord s 0x14).testBit 1 = true) :
    loadDone s = raise (bootOver { s with boot := { s.boot with recipeWait := true } }) 0x60 0 := by
  have hkeep : overlayApply s = s := by simp [overlayApply, hoverlay]
  have hfr := bootOver_frame { s with boot := { s.boot with recipeWait := true } }
  have hbit : (hdrWord (bootOver { s with boot := { s.boot with recipeWait := true } }) 0x14).testBit 1 = true := by
    rw [hfr]
    exact hrun
  have hend : loadEnd { s with boot := { s.boot with recipeWait := true } } =
      raise (bootOver { s with boot := { s.boot with recipeWait := true } }) 0x60 0 := if_pos hbit
  have hgoes : loadDone s = loadEnd { s with boot := { s.boot with recipeWait := true } } := by
    simp [loadDone, h, hr, h7, hkeep, loadWait, hchk]
  exact hgoes.trans hend

/-- The end of the load pass answers with what it leaves. -/
theorem loadPass_over (hheld : accessHeld s = false) (hst : s.boot.st = 5) (hwait : s.boot.recipeWait = false) (hover : passOver s = true) :
    guardS (bootRuns s 5 && !s.boot.recipeWait && passOver s) loadDone s = loadDone s := by simp [bootRuns, hst, hheld, hwait, hover]

/-- Settles O35: each step of start-up by its outcome, a failure by what every failure leaves. -/
theorem startUpGoesStepByStep : Obligations.StartUpGoesStepByStep := by
  intro s hheld
  refine ⟨fun codes => answers_lightTrimDone codes hheld,
    fun hst hover => ⟨answers_imageCheckDone_passes hheld hst hover, fun _ _ => answers_imageCheckDone_fails hheld hst hover⟩,
    answers_overlayScanDone hheld, fun hst hwait hover => ?_⟩
  have hload := loadPass_over hheld hst hwait hover
  refine ⟨fun c x h => ?_, fun h hr => ?_, fun h hr h7 => ?_, fun h hr h7 hchk hoverlay hrun => ?_⟩
  · exact answers_bootFail rfl (hload.trans (loadDone_bad h)) rfl fun t ht _ => ⟨ht.st, ht.cause, ht.sect, ht.event⟩
  · exact answers_bootFail rfl (hload.trans (loadDone_refused h hr)) rfl fun t ht _ => ⟨ht.st, ht.cause, ht.event⟩
  · exact answers_bootFail rfl (hload.trans (loadDone_fail7 h hr h7)) rfl fun t ht _ => ⟨ht.st, ht.cause, ht.event⟩
  · have hend := loadDone_ends h hr h7 hchk hoverlay hrun
    have hfr := bootOver_frame { s with boot := { s.boot with recipeWait := true } }
    generalize bootOver { s with boot := { s.boot with recipeWait := true } } = v at *
    have hraise := raise_frame v 0x60 0
    refine answers_of_effect _ rfl (hload.trans hend) ?_ ?_ fun pins => ⟨?_, raise_caused v 0x60 0 rfl, ?_⟩ <;> rw [hraise, hfr]

end Sys2Proof.Machine
end

section
/-! PROOFS. The commands that clear counts (R192, R212, R239, R274, R307, R336, R360, R402, R403, R415, R432, R433). -/
namespace Sys2Proof.Machine

variable {s t u : State} {p : Port} {c : Instr} {off o : Nat} {l : List Nat}

-- Registers cleared.

theorem reg_clearRegs (l : List Nat) (s : State) (o : Nat) : reg (clearRegs l s) o = if o ∈ l then 0 else reg s o := by
  induction l generalizing s with
  | nil => rfl
  | cons a l ih =>
    refine (ih (setReg s a 0)).trans ?_
    by_cases hl : o ∈ l
    · simp [hl]
    · by_cases ha : o = a <;> simp [hl, ha]

theorem clearRegs_frame (l : List Nat) (s : State) : clearRegs l s = { s with regs := (clearRegs l s).regs, cyc := (clearRegs l s).cyc } := by
  unfold clearRegs
  refine eachS_keeps (P := fun t : State => t = { s with regs := t.regs, cyc := t.cyc }) (fun o t ht => ?_) l rfl
  rw [setReg_frame, ht]

/-- The counting registers that a command clears whole. -/
def countRegs : List Nat :=
  [0x400C, 0x4820, 0x4824, 0x4F08, 0x4F0C, 0x501C, 0x3018, 0x301C, 0x6048, 0x604C, 0x6050, 0x6054, 0x605C, 0x6060, 0x7048, 0x704C, 0x7050,
    0x7054, 0x308, 0x30C, 0x310, 0x214, 0xE038, 0xE03C, 0xE040]

/-- They read as they are held. -/
theorem readReg_countRegs (t : State) : ∀ o ∈ countRegs, readReg t o = reg t o := by
  simp [countRegs, readReg, readArray, readVector, readSfu, readBench, readSpad, readFabric, readClock, readReset, readPerf]

/-- A command that clears registers makes them 0, and changes nothing else. -/
theorem answers_clears (hx : exec c s = act s (access p off (clearRegs l))) (hl : ∀ o ∈ l, o ∈ countRegs) (hp : Performed s p off) :
    Answers c s fun t => (∀ o ∈ l, readReg t o = 0) ∧ RegsKept s t l ∧
      t = { s with mb := ackedMb s p s.mb.rdata, regs := t.regs, cyc := t.cyc, pins := t.pins } := by
  have hfr := clearRegs_frame l s
  have hreg := reg_clearRegs l s
  generalize hu : clearRegs l s = u at hfr hreg
  refine answers_performed u hx hp hu (by rw [hfr]) (by rw [hfr]) fun pins => ⟨fun o ho => ?_, fun o ho => ?_, ?_⟩
  · exact (readReg_countRegs _ o (hl o ho)).trans ((hreg o).trans (if_pos ho))
  · exact (hreg o).trans (if_neg ho)
  · rw [hfr]
    rfl

-- Counts that are parts of registers (R307).

/-- The counts of channel c cleared. -/
def chanCleared (c : Nat) (s : State) : State := clearF (setReg s (chReg c 0x18) 0) (chReg c 0x1C) 16 16

/-- The counts of channel c are 0. -/
def ChanZero (s : State) (c : Nat) : Prop := reg s (chReg c 0x18) = 0 ∧ regF s (chReg c 0x1C) 16 16 = 0

/-- A field that is written 0 is 0. -/
theorem fieldN_putN_zero {n : Nat} (x : BitVec n) (lo len : Nat) : fieldN (putN x lo len 0) lo len = 0 := by
  refine Nat.eq_of_testBit_eq fun i => ?_
  rw [fieldN, Nat.testBit_mod_two_pow, Nat.testBit_shiftRight, BitVec.testBit_toNat, Nat.zero_testBit]
  by_cases hi : i < len
  · simp +contextual [putN, hi, BitVec.getLsbD_ofNat, Nat.testBit_shiftLeft, Nat.testBit_two_pow_sub_one]
  · simp [hi]

theorem regF_clearF (s : State) (o lo len : Nat) : regF (clearF s o lo len) o lo len = 0 := by
  rw [regF, clearF, setRegF, reg_setReg, if_pos rfl, fieldN_putN_zero]

theorem chanZero_chanCleared (s : State) (c : Nat) : ChanZero (chanCleared c s) c := by
  refine ⟨?_, regF_clearF ..⟩
  have hne : chReg c 0x18 ≠ chReg c 0x1C := by
    unfold chReg
    omega
  simp [chanCleared, clearF, setRegF, hne]

/-- Another channel's counts stay. -/
theorem reg_chanCleared (s : State) (c : Nat) (h18 : o ≠ chReg c 0x18) (h1C : o ≠ chReg c 0x1C) : reg (chanCleared c s) o = reg s o := by
  simp [chanCleared, clearF, setRegF, h18, h1C]

theorem ChanZero.of_regs {k : Nat} (h : ChanZero s k) (h18 : reg t (chReg k 0x18) = reg s (chReg k 0x18))
    (h1C : reg t (chReg k 0x1C) = reg s (chReg k 0x1C)) : ChanZero t k := ⟨h18.trans h.1, (regF_of_reg h1C).trans h.2⟩

theorem chanZero_foldTo (s : State) (n : Nat) : ∀ c, c < n → ChanZero (foldTo n chanCleared s) c := by
  refine foldTo_induction (fun n t => ∀ c, c < n → ChanZero t c) n (by simp) fun k t _ ht c hc => ?_
  by_cases hck : c = k
  · exact hck ▸ chanZero_chanCleared t k
  · refine (ht c (by omega)).of_regs (reg_chanCleared _ _ ?_ ?_) (reg_chanCleared _ _ ?_ ?_) <;> unfold chReg <;> omega

/-- The registers of the memory port outside its channels cleared. -/
theorem mempClear_eq (s : State) : mempClear s = clearF (clearRegs [0x1CC, 0x1D0] (foldTo 128 chanCleared s)) 0x1D4 0 16 := rfl

theorem setRegF_frame (s : State) (o lo len v : Nat) :
    setRegF s o lo len v = { s with regs := (setRegF s o lo len v).regs, cyc := (setRegF s o lo len v).cyc } := setReg_frame ..

theorem mempClear_frame (s : State) : mempClear s = { s with regs := (mempClear s).regs, cyc := (mempClear s).cyc } := by
  have hchans : foldTo 128 chanCleared s = { s with regs := (foldTo 128 chanCleared s).regs, cyc := (foldTo 128 chanCleared s).cyc } := by
    refine foldTo_keeps (fun t : State => t = { s with regs := t.regs, cyc := t.cyc }) _ (fun c t ht => ?_) 128 s rfl
    rw [chanCleared, clearF, setRegF_frame, setReg_frame, ht]
  rw [mempClear_eq, clearF, setRegF_frame, clearRegs_frame, hchans]

theorem reg_mempClear (s : State) (h : o ≠ 0x1CC ∧ o ≠ 0x1D0 ∧ o ≠ 0x1D4) : reg (mempClear s) o = reg (foldTo 128 chanCleared s) o := by
  obtain ⟨h1, h2, h3⟩ := h
  rw [mempClear_eq, clearF, reg_setRegF _ _ _ _ _ _ h3, reg_clearRegs, if_neg (by simp [h1, h2])]

theorem answers_mempClrCounts (hp : Performed s p 0x1D8) : Answers (.mempClrCounts p) s fun t =>
    t = { s with mb := ackedMb s p s.mb.rdata, regs := t.regs, cyc := t.cyc, pins := t.pins } ∧ reg t 0x1CC = 0 ∧ reg t 0x1D0 = 0 ∧
      regF t 0x1D4 0 16 = 0 ∧ ∀ c, c < 128 → reg t (chReg c 0x18) = 0 ∧ regF t (chReg c 0x1C) 16 16 = 0 := by
  have hfr := mempClear_frame s
  have hport : ∀ o, o ∈ [0x1CC, 0x1D0] → reg (mempClear s) o = 0 := fun o ho => by
    have hne : o ≠ 0x1D4 := by
      rintro rfl
      simp at ho
    rw [mempClear_eq, clearF, reg_setRegF _ _ _ _ _ _ hne, reg_clearRegs, if_pos ho]
  have hpart : regF (mempClear s) 0x1D4 0 16 = 0 := regF_clearF ..
  have hchan : ∀ c, c < 128 → ChanZero (mempClear s) c := fun c hc => by
    refine (chanZero_foldTo s 128 c hc).of_regs (reg_mempClear s ?_) (reg_mempClear s ?_) <;> unfold chReg <;> omega
  generalize hu : mempClear s = u at hfr hport hpart hchan
  refine answers_performed u rfl hp hu (by rw [hfr]) (by rw [hfr]) fun pins =>
    ⟨?_, hport _ (by simp), hport _ (by simp), hpart, fun c hc => hchan c hc⟩
  rw [hfr]
  rfl

-- Counts that lie elsewhere (R360, R403, R432, R433).

theorem answers_redClrCounts {k : Nat} (hk : k < 2) (hunit : hasAdapt s = true) (hp : Performed s p (0x8060 + 256 * k)) :
    Answers (.redClrCounts p k) s fun t =>
      t = { s with mb := ackedMb s p s.mb.rdata, regs := t.regs, cyc := t.cyc, pins := t.pins } ∧ reg t (0x8054 + 256 * k) = 0 ∧
      reg t (0x8058 + 256 * k) = 0 ∧ RegsKept s t [0x8054 + 256 * k, 0x8058 + 256 * k] := by
  have hx : exec (.redClrCounts p k) s = act s (access p (0x8060 + 256 * k) (redClear k)) := by
    show act s (guardS (decide (k < 2)) (accessUnit (hasAdapt s) p (0x8060 + 256 * k) (redClear k))) = _
    rw [decide_eq_true hk, hunit]
    rfl
  have hfr := clearRegs_frame [0x8054 + 256 * k, 0x8058 + 256 * k] s
  have hreg := reg_clearRegs [0x8054 + 256 * k, 0x8058 + 256 * k] s
  generalize hu : clearRegs [0x8054 + 256 * k, 0x8058 + 256 * k] s = u at hfr hreg
  refine answers_performed u hx hp hu (by rw [hfr]) (by rw [hfr]) fun pins =>
    ⟨?_, (hreg _).trans (if_pos (by simp)), (hreg _).trans (if_pos (by simp)), fun o ho => (hreg o).trans (if_neg ho)⟩
  rw [hfr]
  rfl

theorem answers_supClr (hp : Performed s p 0x394) : Answers (.supClr p) s fun t =>
    t = { s with mb := ackedMb s p s.mb.rdata, regs := t.regs, cyc := t.cyc, sup := { s.sup with min := 0xFF }, pins := t.pins } ∧
      reg t 0x390 = 0 ∧ RegsKept s t [0x390] := by
  have hfr : supClear s = { s with sup := { s.sup with min := 0xFF }, regs := (supClear s).regs, cyc := (supClear s).cyc } := setReg_frame ..
  have hreg : ∀ o, reg (supClear s) o = if o = 0x390 then 0 else reg s o := fun o => reg_setReg ..
  generalize hu : supClear s = u at hfr hreg
  refine answers_performed u rfl hp hu (by rw [hfr]) (by rw [hfr]) fun pins => ⟨?_, (hreg _).trans (if_pos rfl), fun o ho => ?_⟩
  · rw [hfr]
    rfl
  · exact (hreg o).trans (if_neg (by simpa using ho))

/-- No entry of a cleared log is valid. -/
theorem logClear_invalid (s : State) (n : Nat) : (mget (logClear s).ev.log {} n).valid = false := by
  rcases mget_cases (logClear s).ev.log {} n with h | ⟨e, he, h⟩
  · rw [h]
  · rw [← h]
    obtain ⟨y, -, rfl⟩ := List.mem_map.mp he
    rfl

theorem lget_replicate_self {α : Type} (n c : Nat) (d : α) : lget (List.replicate n d) d c = d := by
  induction n generalizing c with
  | zero => rfl
  | succ n ih =>
    cases c with
    | zero => rfl
    | succ c => exact ih c

/-- Settles O11: registers cleared whole by one rule, and each other count by what its command leaves. -/
theorem clearCommandsZeroTheirCounts : Obligations.ClearCommandsZeroTheirCounts := by
  have hsub : ∀ l : List Nat, (l.all countRegs.contains) = true → ∀ o ∈ l, o ∈ countRegs := fun l hl => by simpa using hl
  refine ⟨fun s p => ?_, fun s p => ⟨answers_mempClrCounts, fun k => answers_redClrCounts, answers_supClr, fun hp => ?_, fun hp => ?_⟩⟩
  · exact ⟨answers_clears rfl (hsub _ rfl), answers_clears rfl (hsub _ rfl), answers_clears rfl (hsub _ rfl), answers_clears rfl (hsub _ rfl),
      answers_clears rfl (hsub _ rfl), answers_clears rfl (hsub _ rfl), answers_clears rfl (hsub _ rfl), answers_clears rfl (hsub _ rfl),
      answers_clears rfl (hsub _ rfl), answers_clears rfl (hsub _ rfl), answers_clears rfl (hsub _ rfl), answers_clears rfl (hsub _ rfl)⟩
  · exact answers_performed (logClear s) rfl hp rfl rfl rfl fun _ => ⟨rfl, rfl, rfl, rfl, rfl, rfl, rfl, rfl, rfl, rfl, rfl, logClear_invalid s⟩
  · exact answers_performed (freezeClear s) rfl hp rfl rfl rfl fun _ => ⟨rfl, rfl, fun c => lget_replicate_self 6 c 0, rfl⟩

end Sys2Proof.Machine
end
